-- ==== Sys2Proof/Word.lean ====
section
/-! DEFINITION. The two word types of the spec: a byte, and the 32-bit register word (R181). -/
namespace Sys2Proof

/-- One byte. -/
abbrev Byte := BitVec 8

/-- One register word: every register is reached by a 32-bit access (R181). -/
abbrev Word := BitVec 32

end Sys2Proof
end

