-- ==== Sys2Proof/Syntax.lean ====
section
/-! DEFINITION. The commands of the block: one constructor of Instr for each row of spec/opcode_table.json. -/
namespace Sys2Proof

/-- How a read delivery ends (R85, R48): it completes, or it meets a host memory error on a segment
after some leading blocks were copied whole. -/
inductive DeliveryResult where
  | complete
  | bufferError (segment : Fin 6) (blocks : Nat)
  deriving DecidableEq, Repr

/-- How a write fetch ends (R85, R91, R101): the bytes it copied (byte i of the buffer in bits 8i+7 to 8i);
a host memory error on a segment; or bytes in which the check before the disk write finds an uncorrectable error. -/
inductive FetchResult where
  | complete (data : Nat)
  | bufferError (segment : Fin 6)
  | stagingError
  deriving DecidableEq, Repr

/-- The Exchange Area access that a host memory error ends (R171), with the part of a record write it fell in
(0 first; R200). -/
inductive AreaAccess where
  | visitRead
  | takeRead
  | takenWrite
  | answerFields
  | answerHand
  | interim
  | faultRecord (part : Fin 2)
  | meterBlock (part : Fin 3)
  | baySummary (part : Fin 3)
  deriving DecidableEq, Repr

/-- The sent command that a report on a bay is about, by its command tag (R122, R123) and by the number of its send on the bay, the
model's own (log entry 16). -/
structure TagSend where
  tag : Fin 4
  number : Nat
  deriving DecidableEq, Repr

/-- The same of a report that may also be about the bay's one control command, which has no tag. -/
structure AnySend where
  tag : Option (Fin 4)
  number : Nat
  deriving DecidableEq, Repr

/-- A sent control command, by its bay and the number of its send. -/
structure ControlSend where
  bay : Fin 24
  number : Nat
  deriving DecidableEq, Repr

/-- The commands. A register write carries the word written; an order kind carries the cell of an order that
awaits validation; an event carries what it names and the data that comes with it. A disk command is named by its bay, by its
command tag, or by no tag for the bay's one control command, and by the number of its send on the bay (log entry 16). -/
inductive Instr where
  | powerOn
  | bringupEnd (badSlots : BitVec 256)
  | linkReset
  | restart (w : Word)
  | restartEffects
  | run (w : Word)
  | runStop (w : Word)
  | intakeMode (w : Word)
  | answerMode (w : Word)
  | sweepMs (w : Word)
  | exchangeBase (high : Bool) (w : Word)
  | post (w : Word)
  | answer
  | lapse
  | notice (w : Word)
  | noticeEnable (w : Word)
  | registerWriteIgnored (offset : BitVec 12) (w : Word)
  | postFifoIntake
  | sweep
  | sweepVisit (lead : BitVec 64)
  | take (copy : BitVec 1024)
  | loanOpen (cell : Fin 1024)
  | loanRenew (cell : Fin 1024)
  | loanReturn (cell : Fin 1024)
  | loanQuery (cell : Fin 1024)
  | read (cell : Fin 1024)
  | write (cell : Fin 1024)
  | appendWrite (cell : Fin 1024)
  | serviceRead (cell : Fin 1024)
  | serviceWrite (cell : Fin 1024)
  | groupSet (cell : Fin 1024)
  | diskSet (cell : Fin 1024)
  | clockSet (cell : Fin 1024)
  | bayAdmit (cell : Fin 1024)
  | bayRetire (cell : Fin 1024)
  | bayWatch (cell : Fin 1024)
  | slotFlush (cell : Fin 1024)
  | holdSet (cell : Fin 1024)
  | faultClear (cell : Fin 1024)
  | tick
  | waitExpired (loan : Fin 512)
  | termLapse (loan : Fin 512)
  | spinDown (bay : Fin 24)
  | meterPeriodEnd
  | dispatch (bay : Fin 24)
  | deliveryItemStart (channel : Fin 8)
  | deliveryEnd (channel : Fin 8) (result : DeliveryResult)
  | fetchEnd (channel : Fin 8) (result : FetchResult)
  | stagingError (channel : Fin 8) (copied : List Nat)
  | diskReadEnd (bay : Fin 24) (tag : TagSend) (data : Nat)
  | diskWriteEnd (bay : Fin 24) (tag : TagSend)
  | mediaError (bay : Fin 24) (tag : AnySend) (firstBad : Word)
  | linkError (bay : Fin 24) (tag : AnySend)
  | cmdTimeout (bay : Fin 24) (tag : AnySend)
  | standbyEnd (bay : ControlSend)
  | startEnd (bay : ControlSend)
  | identifyEnd (bay : ControlSend) (size : BitVec 64)
  | operationTimeout (bay : Fin 24)
  | readyRise (bay : Fin 24)
  | readyFall (bay : Fin 24)
  | readyLost (bay : Fin 24)
  | presenceRise (bay : Fin 24)
  | removal (bay : Fin 24)
  | faultRecordWriteEnd
  | meterBlockWriteEnd
  | baySummaryWriteEnd
  | answerWritten
  | exchangeAreaError (access : AreaAccess)
  | linkUp
  | interimWriteEnd
  deriving DecidableEq, Repr

end Sys2Proof
end

