-- ==== Sys2Proof/Config.lean ====
section
/-! DEFINITION. The fixed numbers of the Repabin L24. The spec leaves no value free, so there is no free value here. -/
namespace Sys2Proof.Config

/-- Loan Table entries (R1). -/
abbrev numLoans : Nat := 512
/-- Order cells (R170, R197). -/
abbrev numCells : Nat := 1024
/-- Bays (R119). -/
abbrev numBays : Nat := 24
/-- Share groups (R53). -/
abbrev numGroups : Nat := 16
/-- Staging slots (R79). -/
abbrev numSlots : Nat := 256
/-- Command tags of one bay (R73). -/
abbrev numTags : Nat := 4
/-- Delivery Engine channels (R85). -/
abbrev numChannels : Nat := 8
/-- Post FIFO entries (R173). -/
abbrev postFifoDepth : Nat := 64
/-- Joiners of one FILLING slot (R82). -/
abbrev maxJoiners : Nat := 32
/-- Refetches of one fill (R93). -/
abbrev maxRefetches : Nat := 4
/-- Sends that may end in a link error before the bay faults: two resends (R124). -/
abbrev linkErrorLimit : Nat := 3
/-- Segments of one transfer (R33, R34). -/
abbrev maxSegments : Nat := 6
/-- Bytes of a block. -/
abbrev blockBytes : Nat := 4096
/-- The highest block number, and the limit of H and of a capacity. -/
abbrev maxBlock : Nat := 4294967295
/-- The limit of a cost (R62). -/
abbrev maxCost : Nat := 65535
/-- V is rebased at this value (R65). -/
abbrev rebaseAt : Nat := 2147483648
/-- The rebase subtracts this value (R65). -/
abbrev rebaseBy : Nat := 1073741824
/-- Timeout of a READ, WRITE or STANDBY, in microseconds (R125). -/
abbrev commandTimeoutUs : Nat := 8000000
/-- Limit of an admission or a spin-up, in ms (R128, R132). -/
abbrev operationLimitMs : Nat := 20000
/-- Limit of the ready-low timer, in ms (R136). -/
abbrev readyLowLimitMs : Nat := 2000
/-- Limit of a current or last-period counter (R151). -/
abbrev counterMax : Nat := 4294967295
/-- Limit of a running total (R151). -/
abbrev totalMax : Nat := 281474976710655
/-- Offset of the Fault Record in the Exchange Area (R197). -/
abbrev faultRecordOffset : Nat := 0x20000
/-- Offset of the Bay Summary (R197). -/
abbrev baySummaryOffset : Nat := 0x20040
/-- Offset of the Meter Block (R197). -/
abbrev meterBlockOffset : Nat := 0x20200
/-- Host addresses are taken modulo this number (R170). -/
abbrev addressSpace : Nat := 18446744073709551616

end Sys2Proof.Config
end

