-- ==== Sys2Proof/Machine/State.lean ====
section
/-! DEFINITION. The state of the Repabin L24 as plain data, block by block (00_scope.md Table 1-1), and its value at power-on.

A numbered table of the spec (Loan Table, Staging Directory, bay records, FIFOs, ...) is held as the list of its entries that
differ from the default of the spec's table, in rising order of number: an entry not listed reads as that default. -/
namespace Sys2Proof.Machine

/-- A numbered table: the entries that differ from the default, by rising number. -/
abbrev Table (α : Type) := List (Nat × α)

/-! ## Exchange Port -/

/-- Part states (R183, Table 9-3). -/
inductive PartState where
  | bringup | stopped | running | stopping | restarting | halted
  deriving DecidableEq, Repr

/-- Reset causes (R183). -/
inductive ResetCause where
  | powerOn | restartWrite | linkReset
  deriving DecidableEq, Repr

/-- Halt causes (R171, R183). -/
inductive HaltCause where
  | none | cell | answer | faultRecord | meterBlock | baySummary
  deriving DecidableEq, Repr

/-- CONTROL.INTAKE_MODE (R182). -/
inductive IntakeMode where
  | notified | swept | both
  deriving DecidableEq, Repr

/-- CONTROL.ANSWER_MODE (R182). -/
inductive AnswerMode where
  | each | first
  deriving DecidableEq, Repr

/-- The stored fields of CONTROL (R182). -/
structure Control where
  run : Bool
  intake : IntakeMode
  answerMode : AnswerMode
  sweepMs : BitVec 8
  deriving DecidableEq, Repr

/-- The order kinds (Table 11-4). -/
inductive OrderKind where
  | loanOpen | loanRenew | loanReturn | loanQuery
  | read | write | appendWrite | serviceRead | serviceWrite
  | groupSet | diskSet | clockSet | bayAdmit | bayRetire | bayWatch | slotFlush | holdSet | faultClear
  deriving DecidableEq, Repr

/-- Result codes (Table 11-9). -/
inductive Result where
  | ok | okTruncated | format | noLoan | outOfLoan | mode | range | conflict | waitExpired | cancelled | lapsed
  | tooLate | tableFull | diskUnavailable | diskFault | mediaError | bufferFault | stagingError | staleRetry
  | extentFull | appendBroken | wrongState
  deriving DecidableEq, Repr

/-- Where delivered or written data came from or went (R45). -/
inductive Source where
  | none | disk | staged
  deriving DecidableEq, Repr

/-- A transfer that passed its checks: its range on the bay and what its answer is reported to (R45, R53, R57).
For an APPEND_WRITE the range is the disk position and the n blocks its reservation granted (R57, R111). -/
structure Transfer where
  kind : OrderKind
  group : Nat
  bay : Nat
  first : Nat
  count : Nat
  /-- The loan whose in-flight count it holds; absent for a service transfer. -/
  loan : Option Nat
  /-- The offset an APPEND_WRITE was reserved at (R109). -/
  reserved : Option Nat
  /-- Blocks of the order that a truncated append was not given (R109). -/
  residue : Nat
  deriving DecidableEq, Repr

/-- A cell of the Held Cell set: its 128-byte copy (byte k in bits 8k+7 to 8k), and the transfer it makes once it has
passed its checks. -/
structure HeldOrder where
  cell : Nat
  copy : BitVec 1024
  transfer : Option Transfer
  deriving DecidableEq, Repr

/-- A decided answer (R178, Table 11-7) but for its stamp and host tag, which are taken when it is written. -/
structure Answer where
  cell : Nat
  result : Result
  detail : Nat
  blocksDone : Nat
  source : Source
  /-- Bytes 32-79 of a LOAN_QUERY answer (R199). -/
  snapshot : Option (List Byte)
  deriving DecidableEq, Repr

/-- An entry of the Answer Write list: an answer, or the interim write of a waiting loan's number (R7, R178). -/
inductive AnswerWrite where
  | answer (a : Answer)
  | interim (cell loan : Nat)
  deriving DecidableEq, Repr

/-- A record write in flight: the base it uses (R170) and the bytes taken when it began (R200). -/
structure RecordWrite where
  base : BitVec 64
  image : List Byte
  deriving DecidableEq, Repr

/-- The writer of the Meter Block or of the Bay Summary: a request held, and the write in flight (R142, R155). -/
structure RecordPort where
  held : Bool
  inFlight : Option RecordWrite
  deriving DecidableEq, Repr

/-- A take in progress (R174, R175, R176): the whole cell is being read, for the Post FIFO or for a sweep. -/
structure Take where
  cell : Nat
  bySweep : Bool
  deriving DecidableEq, Repr

/-- The sweep (R175): whether one is in progress, and the cell whose leading 8 bytes are being read. -/
structure Sweep where
  active : Bool
  reading : Option Nat
  /-- The read in flight was begun by a sweep that has ended; it runs to its end and leads to nothing. -/
  leftover : Bool := false
  /-- The visited cell that was POSTED while another take was in progress; its take comes next (R176). -/
  waiting : Option Nat := none
  deriving DecidableEq, Repr

/-- State of the Exchange Port (chapter 9). -/
structure Exchange where
  part : PartState
  resetCause : ResetCause
  haltCause : HaltCause
  /-- An Exchange Area error was taken in the present RESTARTING (R186, R188). -/
  errorInRestart : Bool
  base : BitVec 64
  control : Control
  postFifo : List Nat
  strayPosts : Nat
  sweepTimer : Nat
  sweepTimerOn : Bool
  sweep : Sweep
  take : Option Take
  held : List HeldOrder
  awaiting : List Nat
  answerList : List AnswerWrite
  answerBusy : Bool
  answerQueue : List Nat
  lapseQueue : List Nat
  meterPort : RecordPort
  summaryPort : RecordPort
  summarySeq : BitVec 32
  deriving DecidableEq, Repr

/-! ## Loan Manager -/

/-- Loan states (Table 1-2). -/
inductive LoanState where
  | free | waiting | held | returning | lapsing | lapsed | faulted
  deriving DecidableEq, Repr

/-- Loan modes (R3). -/
inductive LoanMode where
  | readShared | writeSole | append
  deriving DecidableEq, Repr

/-- Bay fault causes (Table 6-2). -/
inductive Cause where
  | none | admitFailed | spinupFailed | readyLost | cmdTimeout | linkFailed | removed | stagingError
  deriving DecidableEq, Repr

/-- An entry of a reservation list (R110); good is its status, OUTSTANDING when clear. -/
structure Reservation where
  cell : Nat
  offset : Nat
  n : Nat
  good : Bool
  deriving DecidableEq, Repr

/-- The append record (Table 5-1). -/
structure AppendRecord where
  frameBlocks : Nat
  framesDone : Nat
  blocksIntoFrame : Nat
  reserved : Nat
  broken : Bool
  breakPoint : Option Nat
  reservations : List Reservation
  deriving DecidableEq, Repr

/-- A Loan Table entry (Table 1-1). -/
structure Loan where
  state : LoanState
  node : Nat
  group : Nat
  bay : Nat
  first : Nat
  count : Nat
  mode : LoanMode
  term : Nat
  wait : Nat
  openingCell : Option Nat
  returnCell : Option Nat
  inFlight : Nat
  faultCause : Cause
  append : Option AppendRecord
  deriving DecidableEq, Repr

/-- The defaults of Table 1-1. -/
def Loan.free : Loan :=
  { state := .free, node := 0, group := 0, bay := 0, first := 0, count := 0, mode := .readShared, term := 0, wait := 0,
    openingCell := none, returnCell := none, inFlight := 0, faultCause := .none, append := none }

/-- The Loan Table and the waiting lists (R1, R8). -/
structure LoanTable where
  table : Table Loan
  waiting : Table (List Nat)
  deriving DecidableEq, Repr

/-! ## Share Scheduler -/

/-- A share group record (Table 3-1). -/
structure Group where
  weight : Nat
  cap : Nat
  pendingCap : Option Nat
  capReached : Bool
  deriving DecidableEq, Repr

/-- The defaults of Table 3-1. -/
def Group.initial : Group := { weight := 16, cap := 0, pendingCap := none, capReached := false }

/-- The share tags of a tagged head (R63). -/
structure Tags where
  start : Nat
  finish : Nat
  deriving DecidableEq, Repr

/-- The FIFO of one group on one bay (R57, R58, R63): the orders queued, oldest first; the head's cost and its tags once it
has them; the group's last finish tag F on the bay. -/
structure Fifo where
  orders : List Nat
  cost : Option Nat
  tags : Option Tags
  lastFinish : Nat
  deriving DecidableEq, Repr

/-- An empty FIFO (R77). -/
def Fifo.initial : Fifo := { orders := [], cost := none, tags := none, lastFinish := 0 }

/-- What the scheduler holds for one bay (R60, R63, R64, R73): V, H, the cost parameters, and who holds each command tag. -/
structure Arbiter where
  v : Nat
  h : Nat
  seekMin : Nat
  seekShift : Nat
  seekMax : Nat
  rate : Nat
  tags : Table (Option Nat)
  deriving DecidableEq, Repr

/-- The values of R77. -/
def Arbiter.initial : Arbiter :=
  { v := 0, h := 0, seekMin := 4000, seekShift := 16, seekMax := 15000, rate := 48, tags := [] }

/-- The Share Scheduler. FIFO of group g on bay b has the number 16 b + g. -/
structure Shares where
  groups : Table Group
  fifos : Table Fifo
  arbiters : Table Arbiter
  deriving DecidableEq, Repr

/-! ## Staging Controller and Delivery Engine -/

/-- Slot states (Table 4-2). -/
inductive SlotState where
  | free | filling | resident | draining | stale | bad
  deriving DecidableEq, Repr

/-- Stage of a write in a DRAINING slot (R91). -/
inductive DrainPhase where
  | fetch | disk
  deriving DecidableEq, Repr

/-- The staged range of a slot: bay, first block, count. -/
structure Place where
  bay : Nat
  first : Nat
  count : Nat
  deriving DecidableEq, Repr

/-- A slot record (Table 4-1). -/
structure Slot where
  state : SlotState
  place : Option Place
  lead : Option Nat
  joiners : List Nat
  deliveries : Nat
  phase : Option DrainPhase
  refetch : Bool
  refetchCount : Nat
  blocking : List Nat
  staleRetry : Bool
  fetchFailure : Option Cause
  reservedFor : Option Nat
  /-- The fill's disk read has ended with good status and waits to be reissued (R94, R95). -/
  readEnded : Bool
  /-- The staged bytes of the range, byte i in bits 8i+7 to 8i. -/
  data : Option Nat
  deriving DecidableEq, Repr

/-- The defaults of Table 4-1. -/
def Slot.free : Slot :=
  { state := .free, place := none, lead := none, joiners := [], deliveries := 0, phase := none, refetch := false,
    refetchCount := 0, blocking := [], staleRetry := false, fetchFailure := none, reservedFor := none,
    readEnded := false, data := none }

/-- The Staging Directory, the residency list (least recently used first) and the Slot Wait list (R79, R80, R89). -/
structure Staging where
  slots : Table Slot
  residency : List Nat
  slotWait : List Nat
  deriving DecidableEq, Repr

/-- An item of the Delivery Engine (R85). A read delivery remembers whether its order led the fill (R46). With no
channel it stands in the Delivery Queue. -/
structure Item where
  cell : Nat
  slot : Nat
  fetch : Bool
  led : Bool
  channel : Option Nat
  deriving DecidableEq, Repr

/-- The Delivery Queue and the channels, in the order the items were started (R85, R100). -/
structure Engine where
  items : List Item
  deriving DecidableEq, Repr

/-! ## Bay Controller -/

/-- Bay states (Table 6-2). -/
inductive BayState where
  | empty | present | admitting | online | spinningDown | spunDown | spinningUp | retiring | faulted
  deriving DecidableEq, Repr

/-- Edge select of presence capture (R140). -/
inductive EdgeSelect where
  | insert | remove | both
  deriving DecidableEq, Repr

/-- The disk commands (R122). -/
inductive CommandKind where
  | read | write | standby | start | identify
  deriving DecidableEq, Repr

/-- A disk command, outstanding or waiting to be sent (R119, R122, R125). -/
structure Command where
  kind : CommandKind
  tag : Option Nat
  first : Nat
  count : Nat
  linkErrors : Nat
  /-- Timeout timer in microseconds. -/
  timer : Nat
  /-- The number of its latest send among the sends of the bay, the model's own (log entry 16). -/
  number : Nat
  deriving DecidableEq, Repr

/-- A bay record (Table 6-1). -/
structure Bay where
  state : BayState
  capacity : Nat
  lastFault : Cause
  mediaErrors : Nat
  spinIdle : Nat
  idleTicks : Nat
  readyLow : Nat
  opTimer : Nat
  spinUpPending : Bool
  retirePending : Bool
  admitCell : Option Nat
  captureEnable : Bool
  edgeSelect : EdgeSelect
  noticeOn : Bool
  captured : Bool
  outstanding : List Command
  sendList : List Command
  /-- How many commands have been sent on the bay, the model's own (log entry 16). -/
  sends : Nat
  deriving DecidableEq, Repr

/-- The power-on values of Table 6-1. -/
def Bay.initial : Bay :=
  { state := .empty, capacity := 0, lastFault := .none, mediaErrors := 0, spinIdle := 0, idleTicks := 0, readyLow := 0,
    opTimer := 0, spinUpPending := false, retirePending := false, admitCell := none, captureEnable := false,
    edgeSelect := .both, noticeOn := false, captured := false, outstanding := [], sendList := [], sends := 0 }

/-- The levels of a bay's two lines, high when set. They are inputs (R119). -/
structure Lines where
  presence : Bool
  ready : Bool
  deriving DecidableEq, Repr

/-- Both lines low. -/
def Lines.low : Lines := { presence := false, ready := false }

/-- The bay records and the lines. -/
structure BayTable where
  records : Table Bay
  lines : Table Lines
  deriving DecidableEq, Repr

/-! ## Loan Clock, Meter Unit, Fault Capture Unit, Notice Unit -/

/-- The Loan Clock (Table 7-1). -/
structure LoanClock where
  prescaleCode : Nat
  period : Nat
  prescaler : Nat
  periodCounter : Nat
  tickCount : BitVec 32
  meterTicks : Nat
  meterTickCount : Nat
  /-- The model's own divider of the reference for timers counted in ms, 0 to 999 (log entry 2). -/
  microseconds : Nat
  deriving DecidableEq, Repr

/-- One counter in its three copies (R151). -/
structure Counter where
  current : Nat
  last : Nat
  total : Nat
  deriving DecidableEq, Repr

/-- A counter at zero (R157). -/
def Counter.zero : Counter := { current := 0, last := 0, total := 0 }

/-- The counter set of one group (Table 7-3) with its capped-in-period flag (R151). -/
structure GroupMeter where
  reads : Counter
  writes : Counter
  staged : Counter
  orders : Counter
  capped : Bool
  cappedLast : Bool
  deriving DecidableEq, Repr

/-- A set at zero (R157). -/
def GroupMeter.zero : GroupMeter :=
  { reads := .zero, writes := .zero, staged := .zero, orders := .zero, capped := false, cappedLast := false }

/-- The Meter Unit (R151, R155). -/
structure Meters where
  groups : Table GroupMeter
  noGroup : Counter
  periodSeq : BitVec 32
  endStamp : BitVec 32
  deriving DecidableEq, Repr

/-- The captured record (R162). -/
structure FaultRecord where
  cause : Cause
  location : Nat
  loansFaulted : Nat
  ordersFailed : Nat
  stamp : BitVec 32
  suppressedBefore : Nat
  holdMask : BitVec 16
  autoRearm : Bool
  sequence : BitVec 32
  deriving DecidableEq, Repr

/-- The Fault Capture Unit (Table 8-1). A record is in flight while record is present (R159); writing holds the base of
its write once that has begun (R170). -/
structure FaultCapture where
  triggered : Bool
  autoRearm : Bool
  holdMask : BitVec 16
  sequence : BitVec 32
  suppressed : Nat
  record : Option FaultRecord
  writing : Option (BitVec 64)
  deriving DecidableEq, Repr

/-- One bit for each notice cause (Table 10-1). -/
structure NoticeBits where
  fault : Bool
  bay : Bool
  lapse : Bool
  answer : Bool
  meter : Bool
  postOverflow : Bool
  deriving DecidableEq, Repr

/-- No cause. -/
def NoticeBits.clear : NoticeBits :=
  { fault := false, bay := false, lapse := false, answer := false, meter := false, postOverflow := false }

/-- The Notice Unit (R189, R193, R194): flags, enables, the interrupt as the host sees it, and how many times it was signalled. -/
structure Notices where
  flags : NoticeBits
  enable : NoticeBits
  interrupt : Bool
  messages : Nat
  deriving DecidableEq, Repr

/-- The PCI Express link as the register window sees it (R181, R187), and what the last register read that changes state
(ANSWER, LAPSE) returned: absent before the first, and when the window could not be reached. -/
structure Link where
  up : Bool
  lastRead : Option Word
  deriving DecidableEq, Repr

/-! ## The whole part -/

/-- The state of the part: its blocks, the host memory its writes have left, and the commands that wait, oldest first. -/
structure State where
  link : Link
  exchange : Exchange
  loans : LoanTable
  shares : Shares
  staging : Staging
  engine : Engine
  bays : BayTable
  clock : LoanClock
  meters : Meters
  capture : FaultCapture
  notices : Notices
  hostMem : List Host.Cell
  pending : List Instr
  deriving DecidableEq, Repr

/-- No command of this block stops the model: every fault of the spec is an effect on the state, so there is no reason to stop. -/
inductive Fault where
  deriving DecidableEq, Repr

/-- Why a command has no meaning. -/
inductive Refusal where
  /-- Raised by a refused arm of exec for a command that has no meaning yet. Safe: the model stops. -/
  | notModelled (mnemonic : String)
  deriving DecidableEq, Repr

/-- CONTROL after power-on (R182). -/
def Control.initial : Control := { run := false, intake := .both, answerMode := .each, sweepMs := 10 }

/-- The Exchange Port at power-on (R188). -/
def Exchange.initial : Exchange :=
  { part := .bringup, resetCause := .powerOn, haltCause := .none, errorInRestart := false, base := 0, control := .initial,
    postFifo := [], strayPosts := 0, sweepTimer := 0, sweepTimerOn := false, sweep := { active := false, reading := none },
    take := none, held := [], awaiting := [], answerList := [], answerBusy := false, answerQueue := [], lapseQueue := [],
    meterPort := { held := false, inFlight := none }, summaryPort := { held := false, inFlight := none }, summarySeq := 0 }

/-- The Loan Clock at power-on (R150). -/
def LoanClock.initial : LoanClock :=
  { prescaleCode := 3, period := 62499, prescaler := 0, periodCounter := 0, tickCount := 0, meterTicks := 60,
    meterTickCount := 0, microseconds := 0 }

/-- The Meter Unit at power-on (R157). -/
def Meters.initial : Meters := { groups := [], noGroup := .zero, periodSeq := 0, endStamp := 0 }

/-- The Fault Capture Unit at power-on (R169). -/
def FaultCapture.initial : FaultCapture :=
  { triggered := false, autoRearm := false, holdMask := 0, sequence := 0, suppressed := 0, record := none, writing := none }

/-- The Notice Unit at power-on (R195). -/
def Notices.initial : Notices := { flags := .clear, enable := .clear, interrupt := false, messages := 0 }

/-- The machine right after power-on: every block at its power-on values, in BRINGUP (R184, R30, R77, R105, R118, R144, R150,
R157, R169, R188, R195). The link is up and every line low (log entries 3 and 4), and nothing is known of host memory. -/
def State.reset : State :=
  { link := { up := true, lastRead := none }, exchange := .initial, loans := { table := [], waiting := [] },
    shares := { groups := [], fifos := [], arbiters := [] }, staging := { slots := [], residency := [], slotWait := [] },
    engine := { items := [] }, bays := { records := [], lines := [] }, clock := .initial, meters := .initial,
    capture := .initial, notices := .initial, hostMem := [], pending := [] }

end Sys2Proof.Machine
end

