-- ==== Sys2Proof/Machine/Ops.lean ====
section
/-! DEFINITION. The named operations every block uses: numbered tables, host memory, the part state, the Held Cell set and the
Answer Write list. -/
namespace Sys2Proof.Machine

/-! ## Numbered tables -/

/-- Entry n of a table whose default is d. -/
def Table.get {α : Type} (d : α) (t : Table α) (n : Nat) : α :=
  match t with
  | [] => d
  | (k, v) :: rest => if k = n then v else Table.get d rest n

/-- Entry n listed with value v, in the place its number gives it. -/
def Table.insert {α : Type} (t : Table α) (n : Nat) (v : α) : Table α :=
  match t with
  | [] => [(n, v)]
  | (k, w) :: rest =>
    if n < k then (n, v) :: (k, w) :: rest
    else if n = k then (n, v) :: rest
    else (k, w) :: Table.insert rest n v

/-- Entry n takes the value v; an entry that takes the default is not listed. -/
def Table.set {α : Type} [DecidableEq α] (d : α) (t : Table α) (n : Nat) (v : α) : Table α :=
  if v = d then t.filter (fun e => e.1 != n) else Table.insert t n v

/-- The numbers of the listed entries. -/
def Table.keys {α : Type} (t : Table α) : List Nat := t.map Prod.fst

/-! ## Accessors: one home for every record -/

/-- Loan Table entry n (R1). -/
def State.loan (s : State) (n : Nat) : Loan := Table.get .free s.loans.table n
/-- Loan Table entry n takes the value l. -/
def State.setLoan (s : State) (n : Nat) (l : Loan) : State :=
  { s with loans := { s.loans with table := Table.set .free s.loans.table n l } }
/-- The waiting list of bay b, head first (R8). -/
def State.waiting (s : State) (b : Nat) : List Nat := Table.get [] s.loans.waiting b
/-- The waiting list of bay b takes the value l. -/
def State.setWaiting (s : State) (b : Nat) (l : List Nat) : State :=
  { s with loans := { s.loans with waiting := Table.set [] s.loans.waiting b l } }
/-- Share group g (R53). -/
def State.group (s : State) (g : Nat) : Group := Table.get .initial s.shares.groups g
/-- Share group g takes the value v. -/
def State.setGroup (s : State) (g : Nat) (v : Group) : State :=
  { s with shares := { s.shares with groups := Table.set .initial s.shares.groups g v } }
/-- The number of the FIFO of group g on bay b among the 384 (R57). -/
def fifoNumber (b g : Nat) : Nat := Config.numGroups * b + g
/-- The FIFO of group g on bay b (R57). -/
def State.fifo (s : State) (b g : Nat) : Fifo := Table.get .initial s.shares.fifos (fifoNumber b g)
/-- The FIFO of group g on bay b takes the value q. -/
def State.setFifo (s : State) (b g : Nat) (q : Fifo) : State :=
  { s with shares := { s.shares with fifos := Table.set .initial s.shares.fifos (fifoNumber b g) q } }
/-- What the scheduler holds for bay b. -/
def State.arbiter (s : State) (b : Nat) : Arbiter := Table.get .initial s.shares.arbiters b
/-- What the scheduler holds for bay b takes the value a. -/
def State.setArbiter (s : State) (b : Nat) (a : Arbiter) : State :=
  { s with shares := { s.shares with arbiters := Table.set .initial s.shares.arbiters b a } }
/-- Slot record k (R79). -/
def State.slot (s : State) (k : Nat) : Slot := Table.get .free s.staging.slots k
/-- Slot record k takes the value v. -/
def State.setSlot (s : State) (k : Nat) (v : Slot) : State :=
  { s with staging := { s.staging with slots := Table.set .free s.staging.slots k v } }
/-- Bay record b (R119). -/
def State.bay (s : State) (b : Nat) : Bay := Table.get .initial s.bays.records b
/-- Bay record b takes the value v. -/
def State.setBay (s : State) (b : Nat) (v : Bay) : State :=
  { s with bays := { s.bays with records := Table.set .initial s.bays.records b v } }
/-- The lines of bay b. -/
def State.lines (s : State) (b : Nat) : Lines := Table.get .low s.bays.lines b
/-- The lines of bay b take the levels v. -/
def State.setLines (s : State) (b : Nat) (v : Lines) : State :=
  { s with bays := { s.bays with lines := Table.set .low s.bays.lines b v } }
/-- The counter set of group g (R151). -/
def State.meter (s : State) (g : Nat) : GroupMeter := Table.get .zero s.meters.groups g
/-- The counter set of group g takes the value v. -/
def State.setMeter (s : State) (g : Nat) (v : GroupMeter) : State :=
  { s with meters := { s.meters with groups := Table.set .zero s.meters.groups g v } }

/-- The numbers of all bays, rising. -/
def allBays : List Nat := List.range Config.numBays
/-- The numbers of all groups, rising. -/
def allGroups : List Nat := List.range Config.numGroups

/-! ## Part state -/

/-- The part is STOPPED, RUNNING or STOPPING: ticks are taken, answers and records are written (Table 9-4). -/
def State.serving (s : State) : Bool :=
  match s.exchange.part with
  | .stopped | .running | .stopping => true
  | .bringup | .restarting | .halted => false

/-- The part is RUNNING or STOPPING: orders are served and the arbiters choose (Table 9-4). -/
def State.working (s : State) : Bool :=
  match s.exchange.part with
  | .running | .stopping => true
  | .bringup | .stopped | .restarting | .halted => false

/-- A register write reaches the part: the window can be reached and the part is not in BRINGUP (R181). -/
def State.writable (s : State) : Bool := s.link.up && s.exchange.part != .bringup

/-! ## Bytes -/

/-- The low bytes of n, least significant first (00_scope.md 3.6). -/
def leBytes (width n : Nat) : List Byte :=
  match width with
  | 0 => []
  | k + 1 => BitVec.ofNat 8 n :: leBytes k (n / 256)

/-- A flag as the bit 0 of a byte. -/
def flagNat (b : Bool) : Nat := if b then 1 else 0

/-! ## Host memory, as the part's writes leave it -/

namespace Memory

/-- The byte the part's writes left at an address; none where they say nothing. -/
def read (m : List Host.Cell) (a : Nat) : Option Byte :=
  match m with
  | [] => none
  | (x, c) :: rest => if x = a then some c else read rest a

/-- A run of bytes with rising addresses from a. -/
def cells (a : Nat) (bs : List Byte) : List Host.Cell :=
  match bs with
  | [] => []
  | b :: rest => (a, b) :: cells (a + 1) rest

/-- A run of bytes put in place of what stood at its addresses. -/
def writeRun (m : List Host.Cell) (a : Nat) (bs : List Byte) : List Host.Cell :=
  m.filter (fun e => e.1 < a) ++ cells a bs ++ m.filter (fun e => a + bs.length ≤ e.1)

/-- A run of n bytes of which the part's writes say nothing any more. -/
def eraseRun (m : List Host.Cell) (a n : Nat) : List Host.Cell := m.filter (fun e => e.1 < a || a + n ≤ e.1)

/-- How many bytes from address a stand below 2^64. -/
def room (a : Nat) : Nat := Config.addressSpace - a

/-- Bytes written at rising addresses, modulo 2^64 (R170). -/
def writeBytes (m : List Host.Cell) (a : Nat) (bs : List Byte) : List Host.Cell :=
  let a := a % Config.addressSpace
  writeRun (writeRun m a (bs.take (room a))) 0 (bs.drop (room a))

/-- A run of bytes erased, modulo 2^64. -/
def eraseBytes (m : List Host.Cell) (a n : Nat) : List Host.Cell :=
  let a := a % Config.addressSpace
  eraseRun (eraseRun m a (min n (room a))) 0 (n - room a)

/-- Every address is below 2^64. -/
def bounded (m : List Host.Cell) : Bool := m.all (fun e => e.1 < Config.addressSpace)

/-- The addresses rise strictly. -/
def rising (m : List Host.Cell) : Bool :=
  match m with
  | [] => true
  | (x, _) :: rest => rest.all (fun e => x < e.1) && rising rest

/-- The canonical form: addresses rise strictly and lie in the address space. An unlisted address reads as none, which no
entry equals. -/
def wf (m : List Host.Cell) : Bool := rising m && bounded m

end Memory

/-- Bytes written into host memory at address a. -/
def State.poke (s : State) (a : Nat) (bs : List Byte) : State := { s with hostMem := Memory.writeBytes s.hostMem a bs }

/-- Host bytes that a write ending in an error may or may not have changed. -/
def State.smudge (s : State) (a n : Nat) : State := { s with hostMem := Memory.eraseBytes s.hostMem a n }

/-- The address of byte off of cell c (R170, R197). -/
def State.cellAddress (s : State) (c off : Nat) : Nat := s.exchange.base.toNat + 128 * c + off

/-! ## Held Cell set -/

/-- The held order in cell c (R176). -/
def State.order? (s : State) (c : Nat) : Option HeldOrder := s.exchange.held.find? (fun o => o.cell == c)

/-- Cell c is in the Held Cell set. -/
def State.isHeld (s : State) (c : Nat) : Bool := (s.order? c).isSome

/-- The transfer that the held order in cell c makes, once its checks are passed. -/
def State.transfer? (s : State) (c : Nat) : Option Transfer := (s.order? c).bind (fun o => o.transfer)

/-- The held order in cell c has passed its checks and makes transfer t. -/
def State.setTransfer (s : State) (c : Nat) (t : Transfer) : State :=
  { s with exchange := { s.exchange with
      held := s.exchange.held.map (fun o => if o.cell = c then { o with transfer := some t } else o) } }

/-- Cell c leaves the Held Cell set. -/
def State.unhold (s : State) (c : Nat) : State :=
  { s with exchange := { s.exchange with held := s.exchange.held.filter (fun o => o.cell != c) } }

/-! ## Answer Write list -/

/-- An entry is appended to the Answer Write list; the write of the first entry begins at once while the part serves the
list (R178, Table 9-4). -/
def State.putAnswer (s : State) (w : AnswerWrite) : State :=
  { s with exchange := { s.exchange with
      answerList := s.exchange.answerList ++ [w], answerBusy := s.exchange.answerBusy || s.serving } }

/-- An answer is decided for cell c (R178). -/
def State.answerWith (s : State) (c : Nat) (r : Result) (detail done : Nat) (src : Source) : State :=
  s.putAnswer (.answer { cell := c, result := r, detail := detail, blocksDone := done, source := src, snapshot := none })

/-- An answer with blocks done 0 and source NONE. -/
def State.reply (s : State) (c : Nat) (r : Result) (detail : Nat) : State := s.answerWith c r detail 0 .none

/-- The same answer for each of several cells, in their order. -/
def State.replyAll (s : State) (cells : List Nat) (r : Result) (detail : Nat) : State :=
  cells.foldl (fun s c => s.reply c r detail) s

/-- A reply in a cell that may be absent. -/
def State.replyOpt (s : State) (c : Option Nat) (r : Result) (detail : Nat) : State :=
  match c with
  | none => s
  | some c => s.reply c r detail

/-- A STOPPING part whose Held Cell set and Answer Write list are both empty enters STOPPED (R185). A take in progress will
be held, so it keeps the part in STOPPING (log entry 14). -/
def State.tryStop (s : State) : State :=
  if s.exchange.part = .stopping ∧ s.exchange.held = [] ∧ s.exchange.answerList = [] ∧ s.exchange.take = none then
    { s with exchange := { s.exchange with part := .stopped } }
  else s

/-! ## Ranges (00_scope.md 3.2) -/

/-- Two block ranges share a block. -/
def overlaps (f₁ n₁ f₂ n₂ : Nat) : Bool := f₁ < f₂ + n₂ && f₂ < f₁ + n₁

/-- The first range lies within the second. -/
def liesWithin (f₁ n₁ f₂ n₂ : Nat) : Bool := f₂ ≤ f₁ && f₁ + n₁ ≤ f₂ + n₂

end Sys2Proof.Machine
end

