-- ==== Sys2Proof/Machine/Flags.lean ====
section
/-! DEFINITION. The notice flags, NOTICE and NOTICE_ENABLE, the interrupt (chapter 10), and the two queues whose state the
level flags follow (R179, R180). -/
namespace Sys2Proof.Machine

/-- The bits of NOTICE and NOTICE_ENABLE (Table 11-1). -/
def NoticeBits.toNat (n : NoticeBits) : Nat :=
  flagNat n.fault + 2 * flagNat n.bay + 4 * flagNat n.lapse + 8 * flagNat n.answer + 16 * flagNat n.meter
    + 32 * flagNat n.postOverflow

/-- The six bits of a word written to NOTICE or NOTICE_ENABLE; its other bits are ignored (R193, R196). -/
def NoticeBits.ofWord (w : Word) : NoticeBits :=
  { fault := w.getLsbD 0, bay := w.getLsbD 1, lapse := w.getLsbD 2, answer := w.getLsbD 3, meter := w.getLsbD 4,
    postOverflow := w.getLsbD 5 }

/-- The flags that are set in both. -/
def NoticeBits.and (a b : NoticeBits) : NoticeBits :=
  { fault := a.fault && b.fault, bay := a.bay && b.bay, lapse := a.lapse && b.lapse, answer := a.answer && b.answer,
    meter := a.meter && b.meter, postOverflow := a.postOverflow && b.postOverflow }

/-- The flags pending and enabled (R189). -/
def Notices.shown (n : Notices) : NoticeBits := n.flags.and n.enable

/-- The lowest cause number among some flags, 0 for none (R193). -/
def NoticeBits.highest (n : NoticeBits) : Nat :=
  if n.fault then 1 else if n.bay then 2 else if n.lapse then 3 else if n.answer then 4
  else if n.meter then 5 else if n.postOverflow then 6 else 0

/-- At least one flag is pending and enabled (R194). -/
def Notices.condition (n : Notices) : Bool := n.shown.highest != 0

/-- Flags and enables take new values and the interrupt is re-evaluated (R194): it is asserted and signalled once when the
condition becomes true, deasserted when it becomes false, and left as it is otherwise: deasserted too, where a link reset has deasserted it and the
condition still holds. So it is also while the link is down (both the model's choice, log entry 31). -/
def Notices.renew (n : Notices) (flags enable : NoticeBits) : Notices :=
  let after := { n with flags := flags, enable := enable }
  match n.condition, after.condition with
  | false, true => { after with interrupt := true, messages := n.messages + 1 }
  | _, false => { after with interrupt := false }
  | true, true => after

/-- The flags take new values (R189, R194). -/
def State.setFlags (s : State) (flags : NoticeBits) : State :=
  { s with notices := s.notices.renew flags s.notices.enable }

/-- FAULT is requested (R190). -/
def State.noticeFault (s : State) : State := s.setFlags { s.notices.flags with fault := true }
/-- BAY is requested (R190). -/
def State.noticeBay (s : State) : State := s.setFlags { s.notices.flags with bay := true }
/-- METER is requested (R190). -/
def State.noticeMeter (s : State) : State := s.setFlags { s.notices.flags with meter := true }
/-- POST_OVERFLOW is requested (R190). -/
def State.noticeOverflow (s : State) : State := s.setFlags { s.notices.flags with postOverflow := true }

/-- A host write to NOTICE: each event flag written 1 is cleared; LAPSE is not, and ANSWER is only in FIRST mode (R193). -/
def NoticeBits.clearedBy (n w : NoticeBits) (mode : AnswerMode) : NoticeBits :=
  { fault := n.fault && !w.fault, bay := n.bay && !w.bay, lapse := n.lapse,
    answer := n.answer && !(w.answer && mode == .first), meter := n.meter && !w.meter,
    postOverflow := n.postOverflow && !w.postOverflow }

/-! ## The queues -/

/-- The Lapse Queue takes a new value and LAPSE follows it (R191). -/
def State.setLapseQueue (s : State) (q : List Nat) : State :=
  { s with exchange := { s.exchange with lapseQueue := q } }.setFlags { s.notices.flags with lapse := !q.isEmpty }

/-- A loan number is pushed at a lapse (R14, R16). -/
def State.pushLapse (s : State) (n : Nat) : State := s.setLapseQueue (s.exchange.lapseQueue ++ [n])

/-- The Loan Manager removes the entry of a loan that is freed or faulted, if it is still queued (R16). -/
def State.dropLapse (s : State) (n : Nat) : State :=
  if n ∈ s.exchange.lapseQueue then s.setLapseQueue (s.exchange.lapseQueue.filter (fun m => m != n)) else s

/-- The ANSWER flag after a pop or a removal: in EACH mode it follows the queue, in FIRST mode it stays (R192). -/
def answerLevel (mode : AnswerMode) (q : List Nat) (old : Bool) : Bool :=
  match mode with
  | .each => !q.isEmpty
  | .first => old

/-- The Answer Queue loses entries (a pop, or the removal of a reposted cell), and ANSWER is re-evaluated (R192). -/
def State.shrinkAnswers (s : State) (q : List Nat) : State :=
  { s with exchange := { s.exchange with answerQueue := q } }.setFlags
    { s.notices.flags with answer := answerLevel s.exchange.control.answerMode q s.notices.flags.answer }

/-- An answered cell is appended to the Answer Queue. EACH: ANSWER is set. FIRST: it is set when the queue was empty (R192). -/
def State.growAnswers (s : State) (c : Nat) : State :=
  { s with exchange := { s.exchange with answerQueue := s.exchange.answerQueue ++ [c] } }.setFlags
    { s.notices.flags with
      answer := match s.exchange.control.answerMode with
        | .each => true
        | .first => s.notices.flags.answer || s.exchange.answerQueue.isEmpty }

/-- The part states in which a read of ANSWER or LAPSE pops (R179, R180). -/
def State.pops (s : State) : Bool :=
  match s.exchange.part with
  | .stopped | .running | .stopping | .halted => true
  | .bringup | .restarting => false

end Sys2Proof.Machine
end

