-- ==== Sys2Proof/Machine/Operands.lean ====
section
/-! DEFINITION. The fields of an order copy (R198, Tables 11-3 to 11-6), their codes, and the format checks that several kinds
share (R34, R177). -/
namespace Sys2Proof.Machine

/-- An order copy: the 128 bytes of a cell, byte k in bits 8k+7 to 8k. -/
abbrev Copy := BitVec 1024

/-- The little-endian field of size bytes at an offset. -/
def Copy.field (c : Copy) (off size : Nat) : Nat := (c.toNat >>> (8 * off)) % 2 ^ (8 * size)

/-! ## Common fields (Table 11-3) -/

/-- The hand code that means POSTED. -/
abbrev handPosted : Nat := 1
/-- The hand code that means TAKEN. -/
abbrev handTaken : Nat := 2
/-- The hand code that means ANSWERED. -/
abbrev handAnswered : Nat := 3

/-- Byte 0. -/
def Copy.hand (c : Copy) : Nat := c.field 0 1
/-- Byte 1. -/
def Copy.kindCode (c : Copy) : Nat := c.field 1 1
/-- Bytes 2-3. -/
def Copy.hostTag (c : Copy) : Nat := c.field 2 2
/-- Byte 4. -/
def Copy.node (c : Copy) : Nat := c.field 4 1

/-- The kind codes of Table 11-4. -/
def OrderKind.ofCode (n : Nat) : Option OrderKind :=
  match n with
  | 1 => some .loanOpen
  | 2 => some .loanRenew
  | 3 => some .loanReturn
  | 4 => some .loanQuery
  | 5 => some .read
  | 6 => some .write
  | 7 => some .appendWrite
  | 8 => some .serviceRead
  | 9 => some .serviceWrite
  | 10 => some .groupSet
  | 11 => some .diskSet
  | 12 => some .clockSet
  | 13 => some .bayAdmit
  | 14 => some .bayRetire
  | 15 => some .bayWatch
  | 16 => some .slotFlush
  | 17 => some .holdSet
  | 18 => some .faultClear
  | _ => none

/-- The kind of an order copy, if byte 1 names one. -/
def Copy.kind (c : Copy) : Option OrderKind := OrderKind.ofCode c.kindCode

/-! ## Loan and transfer parameters (Table 11-5) -/

/-- Bytes 8-9. -/
def Copy.loan (c : Copy) : Nat := c.field 8 2
/-- Byte 10. -/
def Copy.group (c : Copy) : Nat := c.field 10 1
/-- Byte 11. -/
def Copy.bay (c : Copy) : Nat := c.field 11 1
/-- Bytes 12-15. -/
def Copy.first (c : Copy) : Nat := c.field 12 4
/-- Bytes 16-19. -/
def Copy.count (c : Copy) : Nat := c.field 16 4
/-- Byte 20. -/
def Copy.segmentCount (c : Copy) : Nat := c.field 20 1
/-- Byte 21, as a loan mode. -/
def Copy.loanMode (c : Copy) : Option LoanMode :=
  match c.field 21 1 with
  | 0 => some .readShared
  | 1 => some .writeSole
  | 2 => some .append
  | _ => none
/-- Bytes 22-23; a term of 0 is taken as 1 (R4, R17). -/
def Copy.term (c : Copy) : Nat := max 1 (c.field 22 2)
/-- Bytes 24-25. -/
def Copy.waitLimit (c : Copy) : Nat := c.field 24 2
/-- Bytes 26-27. -/
def Copy.frameBlocks (c : Copy) : Nat := c.field 26 2
/-- The address of segment k. -/
def Copy.segmentAddress (c : Copy) (k : Nat) : Nat := c.field (32 + 12 * k) 8
/-- The length of segment k in bytes. -/
def Copy.segmentLength (c : Copy) (k : Nat) : Nat := c.field (40 + 12 * k) 4
/-- The used segments, in list order (R33). -/
def Copy.segments (c : Copy) : List (Nat × Nat) :=
  (List.range (min c.segmentCount Config.maxSegments)).map (fun k => (c.segmentAddress k, c.segmentLength k))

/-! ## Policy parameters (Table 11-6) -/

/-- GROUP_SET weight. -/
def Copy.weight (c : Copy) : Nat := c.field 32 1
/-- GROUP_SET cap. -/
def Copy.cap (c : Copy) : Nat := c.field 36 4
/-- DISK_SET SEEK_MIN. -/
def Copy.seekMin (c : Copy) : Nat := c.field 32 2
/-- DISK_SET SEEK_SHIFT. -/
def Copy.seekShift (c : Copy) : Nat := c.field 34 1
/-- DISK_SET SEEK_MAX; a value below SEEK_MIN is taken as SEEK_MIN (R60). -/
def Copy.seekMax (c : Copy) : Nat := max (c.field 36 2) c.seekMin
/-- DISK_SET RATE; 0 is taken as 1 (R60). -/
def Copy.rate (c : Copy) : Nat := max 1 (c.field 38 2)
/-- DISK_SET SPIN_IDLE. -/
def Copy.spinIdle (c : Copy) : Nat := c.field 40 2
/-- CLOCK_SET prescale code. -/
def Copy.prescaleCode (c : Copy) : Nat := c.field 32 1
/-- CLOCK_SET period value P. -/
def Copy.period (c : Copy) : Nat := c.field 34 2
/-- CLOCK_SET METER_TICKS; 0 is taken as 1 (R148). -/
def Copy.meterTicks (c : Copy) : Nat := max 1 (c.field 36 1)
/-- BAY_WATCH mode: ENABLE when true; none for an undefined code. -/
def Copy.watchEnable (c : Copy) : Option Bool :=
  match c.field 32 1 with
  | 0 => some true
  | 1 => some false
  | _ => none
/-- BAY_WATCH edge select. -/
def Copy.edgeSelect (c : Copy) : Option EdgeSelect :=
  match c.field 33 1 with
  | 0 => some .insert
  | 1 => some .remove
  | 2 => some .both
  | _ => none
/-- BAY_WATCH notice-on: a flag byte carries its flag in bit 0 (chapter 11). -/
def Copy.noticeOn (c : Copy) : Bool := c.field 34 1 % 2 == 1
/-- BAY_WATCH bay mask, 32 bits. -/
def Copy.bayMask (c : Copy) : Nat := c.field 36 4
/-- HOLD_SET hold mask. -/
def Copy.holdMask (c : Copy) : BitVec 16 := BitVec.ofNat 16 (c.field 32 2)
/-- HOLD_SET auto-rearm flag. -/
def Copy.autoRearm (c : Copy) : Bool := c.field 34 1 % 2 == 1

/-! ## Kinds of transfer -/

/-- READ or SERVICE_READ. -/
def OrderKind.isRead (k : OrderKind) : Bool := k == .read || k == .serviceRead

/-- SERVICE_READ or SERVICE_WRITE. -/
def OrderKind.isService (k : OrderKind) : Bool := k == .serviceRead || k == .serviceWrite

/-- Who handles an order after the common format check (R177). -/
inductive Owner where
  | loanManager | exchangePort | scheduler | loanClock | bayController | stagingController | faultCapture
  deriving DecidableEq, Repr

/-- The owner of each kind (R177). -/
def OrderKind.owner (k : OrderKind) : Owner :=
  match k with
  | .loanOpen | .loanRenew | .loanReturn | .loanQuery | .read | .write | .appendWrite => .loanManager
  | .serviceRead | .serviceWrite => .exchangePort
  | .groupSet | .diskSet => .scheduler
  | .clockSet => .loanClock
  | .bayAdmit | .bayRetire | .bayWatch => .bayController
  | .slotFlush => .stagingController
  | .holdSet | .faultClear => .faultCapture

/-- The owner of the order in cell c. -/
def State.ownerOf (s : State) (c : Nat) : Option Owner :=
  (s.order? c).bind (fun o => (Copy.kind o.copy).map OrderKind.owner)

/-- The order in cell c as its owner now handles it: the part serves orders, the cell holds an order of kind k awaiting
validation, and it is the oldest that its owner has been handed (R177). -/
def State.handed (s : State) (k : OrderKind) (c : Nat) : Option HeldOrder :=
  if s.working && (s.exchange.awaiting.find? (fun a => s.ownerOf a == some k.owner)) == some c then
    (s.order? c).filter (fun o => Copy.kind o.copy == some k)
  else none

/-- The order in cell c leaves the place 'awaiting validation' (R177). -/
def State.validated (s : State) (c : Nat) : State :=
  { s with exchange := { s.exchange with awaiting := s.exchange.awaiting.filter (fun a => a != c) } }

/-! ## Format checks -/

/-- The detail of a FORMAT answer: none while no check fails, else the number of the first that fails. -/
def firstFailure (checks : List (Nat × Bool)) : Option Nat :=
  (checks.find? (fun x => !x.2)).map Prod.fst

/-- The detail of the FORMAT answer that the common checks of R177 give, if they give one. LOAN_OPEN's own rule answers a
failed node check with detail 0 (R5); every other kind gives its step 2. -/
def Copy.commonFailure (c : Copy) : Option Nat :=
  match c.kind with
  | none => some 1
  | some k => if c.node ≤ 250 then none else some (if k = .loanOpen then 0 else 2)

/-- Step 5 of R34 for one segment. -/
def segmentOk (sg : Nat × Nat) : Bool := sg.2 % 512 == 0 && sg.2 != 0 && sg.1 + sg.2 ≤ Config.addressSpace

/-- The format check of a transfer (R34, R108): the number of the first step that fails. -/
def Copy.transferFailure (c : Copy) (k : OrderKind) : Option Nat :=
  firstFailure
    [(2, if k.isService then c.node == 0 else 1 ≤ c.node && c.node ≤ 250),
     (3, 1 ≤ c.count && c.count ≤ 256),
     (4, 1 ≤ c.segmentCount && c.segmentCount ≤ Config.maxSegments),
     (5, c.segments.all segmentOk),
     (6, (c.segments.map Prod.snd).sum == c.count * Config.blockBytes),
     (7, !k.isService || c.group < Config.numGroups),
     (8, !k.isService || c.bay < Config.numBays)]

end Sys2Proof.Machine
end

