-- ==== Sys2Proof/Machine/Layouts.lean ====
section
/-! DEFINITION. What the host reads: the codes and byte layouts of answers, snapshots and records (chapter 11), and the
reads of the register window (R181, R183, R196). -/
namespace Sys2Proof.Machine

/-! ## Codes -/

/-- Part state codes (R183). -/
def PartState.code (p : PartState) : Nat :=
  match p with
  | .bringup => 0
  | .stopped => 1
  | .running => 2
  | .stopping => 3
  | .restarting => 4
  | .halted => 5

/-- Reset cause codes (R183). -/
def ResetCause.code (c : ResetCause) : Nat :=
  match c with
  | .powerOn => 0
  | .restartWrite => 1
  | .linkReset => 2

/-- Halt cause codes (R183). -/
def HaltCause.code (c : HaltCause) : Nat :=
  match c with
  | .none => 0
  | .cell => 1
  | .answer => 2
  | .faultRecord => 3
  | .meterBlock => 4
  | .baySummary => 5

/-- Bay state codes (Table 6-2). -/
def BayState.code (b : BayState) : Nat :=
  match b with
  | .empty => 0
  | .present => 1
  | .admitting => 2
  | .online => 3
  | .spinningDown => 4
  | .spunDown => 5
  | .spinningUp => 6
  | .retiring => 7
  | .faulted => 8

/-- Cause codes (Table 6-2). -/
def Cause.code (c : Cause) : Nat :=
  match c with
  | .none => 0
  | .admitFailed => 1
  | .spinupFailed => 2
  | .readyLost => 3
  | .cmdTimeout => 4
  | .linkFailed => 5
  | .removed => 6
  | .stagingError => 7

/-- Result codes (Table 11-9). -/
def Result.code (r : Result) : Nat :=
  match r with
  | .ok => 0
  | .okTruncated => 1
  | .format => 2
  | .noLoan => 3
  | .outOfLoan => 4
  | .mode => 5
  | .range => 6
  | .conflict => 7
  | .waitExpired => 8
  | .cancelled => 9
  | .lapsed => 10
  | .tooLate => 11
  | .tableFull => 12
  | .diskUnavailable => 13
  | .diskFault => 14
  | .mediaError => 15
  | .bufferFault => 16
  | .stagingError => 17
  | .staleRetry => 18
  | .extentFull => 19
  | .appendBroken => 20
  | .wrongState => 21

/-- Source codes (Table 11-7). -/
def Source.code (r : Source) : Nat :=
  match r with
  | .none => 0
  | .disk => 1
  | .staged => 2

/-- Loan state codes (Table 11-8). -/
def LoanState.code (l : LoanState) : Nat :=
  match l with
  | .free => 0
  | .waiting => 1
  | .held => 2
  | .returning => 3
  | .lapsing => 4
  | .lapsed => 5
  | .faulted => 6

/-- Loan mode codes (Table 11-5). -/
def LoanMode.code (m : LoanMode) : Nat :=
  match m with
  | .readShared => 0
  | .writeSole => 1
  | .append => 2

/-- Edge select codes (Table 11-6). -/
def EdgeSelect.code (e : EdgeSelect) : Nat :=
  match e with
  | .insert => 0
  | .remove => 1
  | .both => 2

/-- Intake mode codes (Table 11-1). -/
def IntakeMode.code (m : IntakeMode) : Nat :=
  match m with
  | .notified => 0
  | .swept => 1
  | .both => 2

/-! ## The answer area and the snapshot (R199) -/

/-- Bytes 112-127 of an answered cell (Table 11-7). -/
def answerImage (a : Answer) (stamp : BitVec 32) (hostTag : Nat) : List Byte :=
  leBytes 1 a.result.code ++ leBytes 1 a.source.code ++ leBytes 2 a.blocksDone ++ leBytes 4 a.detail
    ++ leBytes 4 stamp.toNat ++ leBytes 2 hostTag ++ leBytes 2 0

/-- An absent cell reads 0. -/
def cellNat (c : Option Nat) : Nat := c.getD 0

/-- Bytes 32-79 of an answered LOAN_QUERY (Table 11-8, R29). -/
def Loan.snapshot (l : Loan) : List Byte :=
  leBytes 1 l.state.code ++ leBytes 1 l.node ++ leBytes 1 l.group ++ leBytes 1 l.bay ++ leBytes 4 l.first ++ leBytes 4 l.count
    ++ leBytes 1 l.mode.code
    ++ leBytes 1 (flagNat l.openingCell.isSome + 2 * flagNat l.returnCell.isSome
        + 4 * flagNat ((l.append.map (fun r => r.broken)).getD false))
    ++ leBytes 2 l.term ++ leBytes 2 l.wait ++ leBytes 2 l.inFlight ++ leBytes 2 (cellNat l.openingCell)
    ++ leBytes 2 (cellNat l.returnCell)
    ++ leBytes 2 ((l.append.map (fun r => r.frameBlocks)).getD 0)
    ++ leBytes 2 ((l.append.map (fun r => r.blocksIntoFrame)).getD 0)
    ++ leBytes 4 ((l.append.map (fun r => r.framesDone)).getD 0)
    ++ leBytes 4 ((l.append.map (fun r => r.reserved)).getD 0)
    ++ leBytes 12 0

/-- The snapshot of a NO_LOAN answer: zeros, which read as state FREE (R199). -/
def noSnapshot : List Byte := leBytes 48 0

/-! ## The records (R200) -/

/-- Bytes 0-19 of the Fault Record (Table 11-10). -/
def FaultRecord.image (r : FaultRecord) : List Byte :=
  leBytes 1 r.cause.code ++ leBytes 1 0 ++ leBytes 2 r.location ++ leBytes 2 r.loansFaulted ++ leBytes 2 r.ordersFailed
    ++ leBytes 4 r.stamp.toNat ++ leBytes 1 r.suppressedBefore ++ leBytes 1 (flagNat r.autoRearm) ++ leBytes 2 r.holdMask.toNat
    ++ leBytes 4 r.sequence.toNat

/-- The 16 bytes of one entry of the Bay Summary (Table 11-11). -/
def Bay.summaryEntry (b : Bay) : List Byte :=
  leBytes 1 b.state.code ++ leBytes 1 b.lastFault.code
    ++ leBytes 1 (flagNat b.captureEnable + 2 * flagNat b.noticeOn + 4 * flagNat b.captured + 16 * b.edgeSelect.code)
    ++ leBytes 1 0 ++ leBytes 4 b.capacity ++ leBytes 2 b.mediaErrors ++ leBytes 6 0

/-- The 392 bytes of the Bay Summary with a sequence number (Table 11-11, R142). -/
def State.summaryImage (s : State) (seq : BitVec 32) : List Byte :=
  allBays.flatMap (fun b => (s.bay b).summaryEntry) ++ leBytes 4 seq.toNat ++ leBytes 4 seq.toNat

/-- The 64 bytes of a group entry of the Meter Block (Table 11-13). -/
def GroupMeter.image (m : GroupMeter) : List Byte :=
  leBytes 4 m.reads.last ++ leBytes 4 m.writes.last ++ leBytes 4 m.staged.last ++ leBytes 4 m.orders.last
    ++ leBytes 1 (flagNat m.cappedLast) ++ leBytes 7 0 ++ leBytes 8 m.reads.total ++ leBytes 8 m.writes.total
    ++ leBytes 8 m.staged.total ++ leBytes 8 m.orders.total ++ leBytes 8 0

/-- How many slots are in a state other than FREE (R155). -/
def State.slotsIn (s : State) (st : SlotState) : Nat :=
  (s.staging.slots.filter (fun e => e.2.state == st)).length

/-- How many slots are FREE: those of the 256 that are in no other state (R80). -/
def State.slotsFree (s : State) : Nat :=
  Config.numSlots - (s.slotsIn .filling + s.slotsIn .resident + s.slotsIn .draining + s.slotsIn .stale + s.slotsIn .bad)

/-- The prescale of a prescale code (Table 7-1). -/
def prescaleOf (code : Nat) : Nat :=
  match code with
  | 0 => 1
  | 1 => 4
  | 2 => 8
  | _ => 16

/-- The tick interval in microseconds (R146). -/
def LoanClock.interval (c : LoanClock) : Nat := prescaleOf c.prescaleCode * (c.period + 1)

/-- The 1092 bytes of the Meter Block (Table 11-12, R155). -/
def State.meterImage (s : State) : List Byte :=
  leBytes 4 s.meters.periodSeq.toNat ++ leBytes 4 s.meters.endStamp.toNat ++ leBytes 1 s.clock.meterTicks ++ leBytes 3 0
    ++ leBytes 4 s.clock.interval
    ++ leBytes 2 s.slotsFree ++ leBytes 2 (s.slotsIn .filling) ++ leBytes 2 (s.slotsIn .resident)
    ++ leBytes 2 (s.slotsIn .draining) ++ leBytes 2 (s.slotsIn .stale) ++ leBytes 2 (s.slotsIn .bad) ++ leBytes 4 0
    ++ leBytes 4 s.meters.noGroup.last ++ leBytes 4 0 ++ leBytes 8 s.meters.noGroup.total ++ leBytes 16 0
    ++ allGroups.flatMap (fun g => (s.meter g).image) ++ leBytes 4 s.meters.periodSeq.toNat

/-- The parts of a record in the order they are written, as offset and length (R200). -/
def faultRecordParts : List (Nat × Nat) := [(0, 16), (16, 4)]
/-- The parts of the Bay Summary. -/
def baySummaryParts : List (Nat × Nat) := [(388, 4), (0, 384), (384, 4)]
/-- The parts of the Meter Block. -/
def meterBlockParts : List (Nat × Nat) := [(0, 4), (4, 1084), (1088, 4)]

/-- Parts of a record written into host memory at address a. -/
def State.pokeParts (s : State) (a : Nat) (image : List Byte) (parts : List (Nat × Nat)) : State :=
  parts.foldl (fun s p => s.poke (a + p.1) ((image.drop p.1).take p.2)) s

/-- A record write that ended with an error in part k: the parts before it are written, and for the rest the area holds what it
held before (R200). -/
def State.failParts (s : State) (a : Nat) (image : List Byte) (parts : List (Nat × Nat)) (k : Nat) : State :=
  s.pokeParts a image (parts.take k)

/-! ## Reads of the register window -/

/-- CONTROL (R182, Table 11-1). -/
def Control.word (c : Control) : Word :=
  BitVec.ofNat 32 (flagNat c.run + 2 * c.intake.code + 8 * flagNat (c.answerMode == .first) + 256 * c.sweepMs.toNat)

/-- STATUS (R183, Table 11-1). -/
def Exchange.status (x : Exchange) : Word :=
  BitVec.ofNat 32 (x.part.code + 8 * x.resetCause.code + 32 * x.haltCause.code + 256 * x.postFifo.length
    + 32768 * min 511 x.answerQueue.length + 16777216 * x.strayPosts)

/-- NOTICE (R193, Table 11-1). -/
def Notices.word (n : Notices) : Word := BitVec.ofNat 32 (n.shown.toNat + 256 * n.shown.highest)

/-- The word that the register at an offset holds for a read; 0 for POST and for every word outside the nine (R181). A read of
ANSWER or LAPSE is a command of its own; here they give what it would return. -/
def State.register (s : State) (offset : Nat) : Word :=
  match offset with
  | 0x00 => s.exchange.control.word
  | 0x04 => s.exchange.status
  | 0x08 => s.exchange.base.extractLsb' 0 32
  | 0x0C => s.exchange.base.extractLsb' 32 32
  | 0x14 => if s.pops then BitVec.ofNat 32 (s.exchange.answerQueue.headD 0xFFFF) else 0xFFFF
  | 0x18 => if s.pops then BitVec.ofNat 32 (s.exchange.lapseQueue.headD 0xFFFF) else 0xFFFF
  | 0x1C => s.notices.word
  | 0x20 => BitVec.ofNat 32 s.notices.enable.toNat
  | _ => 0

/-- What a read of the register window at an offset returns: nothing while the link is down (R181). -/
def State.readWindow (s : State) (offset : Nat) : Option Word := if s.link.up then some (s.register offset) else none

end Sys2Proof.Machine
end

