-- ==== Sys2Proof/Machine/RecordOps.lean ====
section
/-! DEFINITION. Requests for the three Exchange Area records and the beginning of their writes (R142, R155, R160, R170), and the
counters of the Meter Unit (R151 to R153). -/
namespace Sys2Proof.Machine

/-- A Bay Summary rewrite is requested; while one is held a further request changes nothing (R142). -/
def State.requestSummary (s : State) : State :=
  { s with exchange := { s.exchange with summaryPort := { s.exchange.summaryPort with held := true } } }

/-- A Meter Block write is requested (R155). -/
def State.requestMeter (s : State) : State :=
  { s with exchange := { s.exchange with meterPort := { s.exchange.meterPort with held := true } } }

/-- Record writes may begin: the part is STOPPED, RUNNING or STOPPING and the base is not 0 (R170). -/
def State.mayWriteRecords (s : State) : Bool := s.serving && s.exchange.base != 0

/-- The write of a captured record begins (R160, R170). -/
def State.beginFaultRecord (s : State) : State :=
  if s.mayWriteRecords && s.capture.record.isSome && s.capture.writing.isNone then
    { s with capture := { s.capture with writing := some s.exchange.base } }
  else s

/-- A held Meter Block write begins with the values of this moment (R155). -/
def State.beginMeter (s : State) : State :=
  if s.mayWriteRecords && s.exchange.meterPort.held && s.exchange.meterPort.inFlight.isNone then
    { s with exchange := { s.exchange with
        meterPort := { held := false, inFlight := some { base := s.exchange.base, image := s.meterImage } } } }
  else s

/-- A held Bay Summary rewrite begins: it takes the 24 entries as they stand and raises the sequence number by 1 (R142). From
4,294,967,295 the number goes to 0, the model's choice (log entry 38). -/
def State.beginSummary (s : State) : State :=
  if s.mayWriteRecords && s.exchange.summaryPort.held && s.exchange.summaryPort.inFlight.isNone then
    { s with exchange := { s.exchange with
        summarySeq := s.exchange.summarySeq + 1,
        summaryPort := { held := false, inFlight := some { base := s.exchange.base,
                                                           image := s.summaryImage (s.exchange.summarySeq + 1) } } } }
  else s

/-- Every record write that is asked for and may begin, begins. An event that may ask for one, or may let one begin, ends so. -/
def State.beginRecords (s : State) : State := s.beginFaultRecord.beginMeter.beginSummary

/-! ## Meters -/

/-- A current copy rises and saturates (R151). -/
def Counter.add (c : Counter) (n : Nat) : Counter := { c with current := min Config.counterMax (c.current + n) }

/-- A period end: the current copy is latched, added to the saturating total and cleared (R154). -/
def Counter.latch (c : Counter) : Counter :=
  { current := 0, last := c.current, total := min Config.totalMax (c.total + c.current) }

/-- The whole set of a group at a period end (R154 step 1). -/
def GroupMeter.latch (m : GroupMeter) : GroupMeter :=
  { reads := m.reads.latch, writes := m.writes.latch, staged := m.staged.latch, orders := m.orders.latch,
    capped := false, cappedLast := m.capped }

/-- Staged blocks of a joined read's delivery (R153). -/
def State.meterStaged (s : State) (g n : Nat) : State :=
  s.setMeter g { s.meter g with staged := (s.meter g).staged.add n }

/-- Disk blocks of a dispatch (R152). -/
def State.meterDisk (s : State) (g : Nat) (isRead : Bool) (n : Nat) : State :=
  if isRead then s.setMeter g { s.meter g with reads := (s.meter g).reads.add n }
  else s.setMeter g { s.meter g with writes := (s.meter g).writes.add n }

/-- The sum of a group's two current disk counters (R152). -/
def State.diskBlocks (s : State) (g : Nat) : Nat := (s.meter g).reads.current + (s.meter g).writes.current

/-- One order answered, under a group or under none (R153). -/
def State.meterAnswered (s : State) (g : Option Nat) : State :=
  match g with
  | none => { s with meters := { s.meters with noGroup := s.meters.noGroup.add 1 } }
  | some g => s.setMeter g { s.meter g with orders := (s.meter g).orders.add 1 }

/-- The cap-reached flag of a group is set, and its capped-in-period flag with it, when a cap is in force and the group's
disk blocks of the period are at or above it (R56, R152). -/
def State.applyCap (s : State) (g : Nat) : State :=
  if 1 ≤ (s.group g).cap && (s.group g).cap ≤ s.diskBlocks g then
    (s.setGroup g { s.group g with capReached := true }).setMeter g { s.meter g with capped := true }
  else s

end Sys2Proof.Machine
end

