-- ==== Sys2Proof/Machine/BayOps.lean ====
section
/-! DEFINITION. What the Bay Controller does to one bay: sending commands (R122), what a bay holds (R119), the beginning of a
spin-up (R132), the completion test (R135), presence capture (R141). -/
namespace Sys2Proof.Machine

/-- A bay record takes a new value of a field that the Bay Summary shows, and a rewrite is requested (R121, R142). -/
def State.putBay (s : State) (b : Nat) (v : Bay) : State := (s.setBay b v).requestSummary

/-- The ready line of bay b is high. -/
def State.readyHigh (s : State) (b : Nat) : Bool := (s.lines b).ready

/-- READ, WRITE and STANDBY wait for the ready line; START and IDENTIFY do not (R122). -/
def CommandKind.waitsForReady (k : CommandKind) : Bool :=
  match k with
  | .read | .write | .standby => true
  | .start | .identify => false

/-- READ or WRITE. -/
def CommandKind.isTransfer (k : CommandKind) : Bool :=
  match k with
  | .read | .write => true
  | .standby | .start | .identify => false

/-- A control command before it is sent. -/
def Command.control (k : CommandKind) : Command :=
  { kind := k, tag := none, first := 0, count := 0, linkErrors := 0, timer := 0, number := 0 }

/-- The READ or WRITE of a range before it is sent. -/
def Command.transfer (k : CommandKind) (tag : Option Nat) (p : Place) : Command :=
  { kind := k, tag := tag, first := p.first, count := p.count, linkErrors := 0, timer := 0, number := 0 }

/-- A command ready to be sent is sent, with the next number of the bay, its timer at 0 and the bay's idle ticks set to 0, or waits in the send list for
the ready line (R122, R125). While a STANDBY is outstanding the ready line is not watched, so its timer stands at 0 (R136). -/
def State.send (s : State) (b : Nat) (c : Command) : State :=
  let v := s.bay b
  if c.kind.waitsForReady && !s.readyHigh b then s.setBay b { v with sendList := v.sendList ++ [c] }
  else s.setBay b { v with outstanding := v.outstanding ++ [{ c with timer := 0, number := v.sends }], sends := v.sends + 1,
                           idleTicks := 0, readyLow := if c.kind = .standby then 0 else v.readyLow }

/-- The holder of command tag t of bay b (R73). -/
def State.tagHolder (s : State) (b t : Nat) : Option Nat := Table.get none (s.arbiter b).tags t

/-- The lowest-numbered free command tag of bay b (R71). -/
def State.freeTag (s : State) (b : Nat) : Option Nat :=
  (List.range Config.numTags).find? (fun t => (s.tagHolder b t).isNone)

/-- The command tag of bay b that the order in cell c holds. -/
def State.tagOf (s : State) (b c : Nat) : Option Nat :=
  (List.range Config.numTags).find? (fun t => s.tagHolder b t == some c)

/-- Command tag t of bay b takes a holder, or is released (R73). -/
def State.setTag (s : State) (b t : Nat) (holder : Option Nat) : State :=
  s.setArbiter b { s.arbiter b with tags := Table.set none (s.arbiter b).tags t holder }

/-- The command tag that the order in cell c holds on bay b is released (R73). -/
def State.releaseTag (s : State) (b c : Nat) : State :=
  match s.tagOf b c with
  | none => s
  | some t => s.setTag b t none

/-- A slot stages data of bay b. -/
def Slot.onBay (v : Slot) (b : Nat) : Bool :=
  match v.place with
  | none => false
  | some p => p.bay == b

/-- Bay b has work (R119). -/
def State.hasWork (s : State) (b : Nat) : Bool :=
  allGroups.any (fun g => !(s.fifo b g).orders.isEmpty)
    || (List.range Config.numTags).any (fun t => (s.tagHolder b t).isSome)
    || s.staging.slots.any (fun e => (e.2.state == .filling || e.2.state == .draining) && e.2.onBay b)

/-- A loan state in which the bay holds the loan (R119). -/
def LoanState.holdsBay (l : LoanState) : Bool :=
  match l with
  | .waiting | .held | .returning | .lapsing | .lapsed => true
  | .free | .faulted => false

/-- Bay b holds loans (R119). -/
def State.holdsLoans (s : State) (b : Nat) : Bool := s.loans.table.any (fun e => e.2.bay == b && e.2.state.holdsBay)

/-- Some loan of bay b is not FREE (R135). -/
def State.anyLoan (s : State) (b : Nat) : Bool := s.loans.table.any (fun e => e.2.bay == b && e.2.state != .free)

/-- A spin-up starts (R132). -/
def State.startSpinUp (s : State) (b : Nat) : State :=
  (s.putBay b { s.bay b with state := .spinningUp, opTimer := 0, idleTicks := 0, readyLow := 0 }).send b (.control .start)

/-- A STANDBY of the bay is outstanding or waits to be sent. -/
def Bay.hasStandby (v : Bay) : Bool := v.outstanding.any (fun c => c.kind == .standby) || v.sendList.any (fun c => c.kind == .standby)

/-- The completion test of a RETIRING bay: when all its loans are FREE and it has no work, its final STANDBY is sent (R135). -/
def State.completionTest (s : State) (b : Nat) : State :=
  if (s.bay b).state == .retiring && !s.anyLoan b && !s.hasWork b && !(s.bay b).hasStandby then
    s.send b (.control .standby)
  else s

/-- The completion test of several bays, in their order. -/
def State.completionTests (s : State) (bs : List Nat) : State := bs.foldl (fun s b => s.completionTest b) s

/-- An edge of the presence line is offered to capture (R141). -/
def State.capturePresence (s : State) (b : Nat) (edge : EdgeSelect) : State :=
  let v := s.bay b
  if v.captureEnable && !v.captured && (v.edgeSelect == .both || v.edgeSelect == edge) then
    let s := s.putBay b { v with captured := true }
    if v.noticeOn then s.noticeBay else s
  else s

/-- The ready line is watched: ONLINE, or RETIRING with no final STANDBY outstanding (R136). -/
def Bay.watched (v : Bay) : Bool :=
  v.state == .online || (v.state == .retiring && !v.outstanding.any (fun c => c.kind == .standby))

/-- A command is the one that was sent under a tag, or under no tag, with a number. -/
def Command.isSend (c : Command) (tag : Option Nat) (number : Nat) : Bool := c.tag == tag && c.number == number

/-- The outstanding command of a bay that was sent under a tag with a number (R123). A command that a fault has ended is not
outstanding, and the next one under its tag has another number (R73). -/
def Bay.command? (v : Bay) (tag : Option Nat) (number : Nat) : Option Command :=
  v.outstanding.find? (fun c => c.isSend tag number)

/-- The outstanding command sent under a tag with a number has ended. -/
def Bay.endCommand (v : Bay) (tag : Option Nat) (number : Nat) : Bay :=
  { v with outstanding := v.outstanding.filter (fun c => !c.isSend tag number) }

end Sys2Proof.Machine
end

