-- ==== Sys2Proof/Machine/StagingOps.lean ====
section
/-! DEFINITION. What the Staging Controller does: joins (R81 to R83), allocation and offers (R88 to R90), the snoop and the
refetch (R92 to R95), and slots that leave service (R98, R103). -/
namespace Sys2Proof.Machine

/-- The numbers of the slots that satisfy p, rising. -/
def State.slotsWhere (s : State) (p : Slot → Bool) : List Nat :=
  (Table.keys s.staging.slots).filter (fun k => p (s.slot k))

/-- A slot stages a range of bay b that overlaps the given one. -/
def Slot.overlapsOn (v : Slot) (b first count : Nat) : Bool :=
  match v.place with
  | none => false
  | some p => p.bay == b && overlaps p.first p.count first count

/-- A slot stages a range of bay b that wholly contains the given one. -/
def Slot.containsOn (v : Slot) (b first count : Nat) : Bool :=
  match v.place with
  | none => false
  | some p => p.bay == b && liesWithin first count p.first p.count

/-- A slot is a candidate for a read of a range of bay b (R81). -/
def Slot.isCandidate (v : Slot) (b first count : Nat) : Bool :=
  v.containsOn b first count
    && (v.state == .resident || (v.state == .filling && v.joiners.length < Config.maxJoiners && !v.staleRetry))

/-- A range of bay b overlaps one of its DRAINING slots (R67 condition 6). -/
def State.overDrain (s : State) (b first count : Nat) : Bool :=
  s.staging.slots.any (fun e => e.2.state == .draining && e.2.overlapsOn b first count)

/-- A RESIDENT slot holds blocks that a drain of its bay is about to change. R81 says that none ever does; within a dispatch one may, from
the moment the write has its slot to the snoop that ends it (R71 steps 2 to 7), and no read joins it then (R43, R81; log entry 10). -/
def State.outdated (s : State) (v : Slot) : Bool :=
  v.state == .resident &&
    match v.place with
    | none => false
    | some p => s.overDrain p.bay p.first p.count

/-- The join check: the lowest-numbered candidate (R81). -/
def State.candidate (s : State) (b first count : Nat) : Option Nat :=
  (List.range Config.numSlots).find? (fun k => (s.slot k).isCandidate b first count && !s.outdated (s.slot k))

/-- The residency list takes a new value. -/
def State.setResidency (s : State) (l : List Nat) : State := { s with staging := { s.staging with residency := l } }

/-- A slot moves to, or enters at, the most-recently-used end of the residency list (R80). -/
def State.touch (s : State) (k : Nat) : State := s.setResidency (s.staging.residency.filter (fun j => j != k) ++ [k])

/-- A slot leaves the residency list (R80). -/
def State.leaveResidency (s : State) (k : Nat) : State := s.setResidency (s.staging.residency.filter (fun j => j != k))

/-- An item is started: it is appended to the tail of the Delivery Queue (R85). -/
def State.startItem (s : State) (it : Item) : State := { s with engine := { items := s.engine.items ++ [it] } }

/-- The read in cell c joins slot k: a FILLING slot lists it (R82), a RESIDENT slot starts its delivery (R83). -/
def State.joinSlot (s : State) (k c : Nat) (t : Transfer) : State :=
  let v := s.slot k
  if v.state = .resident then
    (((s.setSlot k { v with deliveries := v.deliveries + 1 }).touch k).startItem
      { cell := c, slot := k, fetch := false, led := false, channel := none }).meterStaged t.group t.count
  else s.setSlot k { v with joiners := v.joiners ++ [c] }

/-! ## Slots that become free, and the Slot Wait arbiter -/

/-- A slot becomes FREE with every field at its default. -/
def State.freeSlot (s : State) (k : Nat) : State := (s.setSlot k .free).leaveResidency k

/-- A slot becomes BAD: it leaves the residency list and its bay and range are discarded (R100, R102). -/
def State.spoilSlot (s : State) (k : Nat) : State := (s.setSlot k { Slot.free with state := .bad }).leaveResidency k

/-- A RESIDENT slot is discarded: FREE, or STALE while it is being delivered from (R92, R98, R99, R103). -/
def State.dropResident (s : State) (k : Nat) : State :=
  let v := s.slot k
  if v.deliveries = 0 then s.freeSlot k else (s.setSlot k { v with state := .stale }).leaveResidency k

/-- A slot is available to the Slot Wait arbiter (R89). -/
def Slot.available (v : Slot) : Bool :=
  (v.state == .free && v.reservedFor.isNone) || (v.state == .resident && v.deliveries == 0)

/-- An available slot is offered to the bay at the head of the Slot Wait list: the bay leaves the list, a RESIDENT slot is
reclaimed, and the slot is FREE and reserved for that bay (R89, R90). No offer is made in RESTARTING or HALTED. -/
def State.offerSlot (s : State) (k : Nat) : State :=
  match s.staging.slotWait with
  | [] => s
  | b :: rest =>
    if s.serving && (s.slot k).available then
      let s := (s.leaveResidency k).setSlot k { Slot.free with reservedFor := some b }
      { s with staging := { s.staging with slotWait := rest } }
    else s

/-- Several slots that became available in one event, the lowest-numbered first (R89). -/
def State.offerSlots (s : State) (ks : List Nat) : State := ks.foldl (fun s k => s.offerSlot k) s

/-- RESIDENT slots are discarded together, and those that became FREE are offered. -/
def State.discardResident (s : State) (ks : List Nat) : State :=
  (ks.foldl (fun s k => s.dropResident k) s).offerSlots ks

/-- Bay b leaves service, or a new disk comes into it: its RESIDENT slots are discarded (R103). -/
def State.clearStaged (s : State) (b : Nat) : State :=
  s.discardResident (s.slotsWhere (fun v => v.state == .resident && v.onBay b))

/-! ## Refetch -/

/-- The disk read of slot k is sent on the command tag its lead holds (R71, R95). -/
def State.sendRead (s : State) (k : Nat) : State :=
  let v := s.slot k
  match v.place, v.lead with
  | some p, some c =>
    match s.tagOf p.bay c with
    | some t => s.send p.bay (.transfer .read (some t) p)
    | none => s
  | _, _ => s

/-- The lead of slot k holds a command tag. -/
def State.leadHasTag (s : State) (k : Nat) : Bool :=
  match (s.slot k).place, (s.slot k).lead with
  | some p, some c => (s.tagOf p.bay c).isSome
  | _, _ => false

/-- The fill of slot k is reissued on the command tag its lead holds (R95); where a bay fault has just released that tag the
fill is about to fail and is not reissued (R103). -/
def State.reissue (s : State) (k : Nat) : State :=
  let v := s.slot k
  if s.leadHasTag k then
    (s.setSlot k { v with refetch := false, refetchCount := v.refetchCount + 1, readEnded := false }).sendRead k
  else s

/-- A write that ends its drain leaves the blocking writes of slot k, and the refetch that waited for it alone is reissued
(R94). -/
def State.unblockSlot (s : State) (c k : Nat) : State :=
  let v := s.slot k
  let left := v.blocking.filter (fun w => w != c)
  let s := s.setSlot k { v with blocking := left }
  if left.isEmpty && v.refetch && v.readEnded then s.reissue k else s

/-- A write ends its drain: it leaves the blocking writes of every FILLING slot that names it (R91, R94). -/
def State.unblock (s : State) (c : Nat) : State :=
  (s.slotsWhere (fun v => v.state == .filling && v.blocking.contains c)).foldl (fun s k => s.unblockSlot c k) s

/-- A drain ends with its slot FREE (R91). -/
def State.endDrain (s : State) (k c : Nat) : State := ((s.freeSlot k).unblock c).offerSlot k

/-! ## Snoop -/

/-- A snoop finds the FILLING slot k overlapping the write in cell w (R93). -/
def State.invalidate (s : State) (k w : Nat) : State :=
  let v := s.slot k
  if v.staleRetry then s
  else if v.refetch then s.setSlot k { v with blocking := v.blocking ++ [w] }
  else if v.refetchCount < Config.maxRefetches then s.setSlot k { v with refetch := true, blocking := [w] }
  else s.setSlot k { v with staleRetry := true, blocking := [] }

/-- The snoop of the write in cell w, whose slot is k, over the other slots of its bay (R92). -/
def State.snoop (s : State) (k w b first count : Nat) : State :=
  let hit (st : SlotState) : List Nat :=
    (s.slotsWhere (fun v => v.state == st && v.overlapsOn b first count)).filter (fun j => j != k)
  ((hit .filling).foldl (fun s j => s.invalidate j w) s).discardResident (hit .resident)

/-! ## Allocation -/

/-- The slot that a dispatch of bay b is given (R88): one reserved for the bay, else the lowest-numbered FREE slot that is
not reserved, else the least recently used RESIDENT slot that nothing is being delivered from. -/
def State.allocate (s : State) (b : Nat) : Option Nat :=
  ((List.range Config.numSlots).find? (fun k => (s.slot k).state == .free && (s.slot k).reservedFor == some b))
    <|> ((List.range Config.numSlots).find? (fun k => (s.slot k).state == .free && (s.slot k).reservedFor.isNone))
    <|> (s.staging.residency.find? (fun k => (s.slot k).state == .resident && (s.slot k).deliveries == 0))

/-- A slot is given to the order in cell c (R88): FILLING for a read; DRAINING in phase FETCH for a write. -/
def State.giveSlot (s : State) (k c : Nat) (t : Transfer) : State :=
  let v := { Slot.free with
    state := if t.kind.isRead then .filling else .draining,
    place := some { bay := t.bay, first := t.first, count := t.count }, lead := some c,
    phase := if t.kind.isRead then none else some .fetch }
  (s.leaveResidency k).setSlot k v

/-! ## Staged bytes and host buffers -/

/-- The bytes of count blocks, cut off beyond them. -/
def cutData (data count : Nat) : Nat := data % 2 ^ (8 * Config.blockBytes * count)

/-- The bytes of a read's range out of the slot that holds it (R43, R85). -/
def Slot.bytesFor (v : Slot) (t : Transfer) : Option Nat :=
  match v.place, v.data with
  | some p, some d => some (cutData (d >>> (8 * Config.blockBytes * (t.first - p.first))) t.count)
  | _, _ => none

/-- The bytes of a number of 512-byte pieces, of which every segment holds a whole number (R33). -/
def pieces (count n : Nat) : List Byte :=
  match count with
  | 0 => []
  | k + 1 => leBytes 512 (n % 2 ^ 4096) ++ pieces k (n >>> 4096)

/-- Bytes written into segments in list order (R33); where the bytes are not known, the segments are smudged. -/
def State.scatter (s : State) (segs : List (Nat × Nat)) (data : Option Nat) : State :=
  match segs with
  | [] => s
  | (a, n) :: rest =>
    let s' := match data with
      | some d => s.poke a (pieces (n / 512) d)
      | none => s.smudge a n
    s'.scatter rest (data.map (fun d => d >>> (8 * n)))

/-- The leading bytes of segments, cut off beyond n bytes (R46). -/
def leadingSegments (segs : List (Nat × Nat)) (n : Nat) : List (Nat × Nat) :=
  match segs with
  | [] => []
  | (a, len) :: rest => (a, min len n) :: leadingSegments rest (n - len)

/-- The segments beyond their first n bytes. -/
def trailingSegments (segs : List (Nat × Nat)) (n : Nat) : List (Nat × Nat) :=
  match segs with
  | [] => []
  | (a, len) :: rest => (a + min len n, len - min len n) :: trailingSegments rest (n - len)

/-- The bytes of the block behind n whole blocks, in the segments that are given. -/
def nextBlock (segs : List (Nat × Nat)) (n : Nat) : List (Nat × Nat) :=
  leadingSegments (trailingSegments segs (n * Config.blockBytes)) Config.blockBytes

/-- Where a delivery was stopped: the whole blocks it had copied, and how many leading segments it had begun to write. -/
structure Stop where
  blocks : Nat
  segments : Nat
  deriving DecidableEq, Repr

/-- What a delivery that copied its whole range, or was stopped, leaves in the host buffer: the segments hold the bytes, those of a
later segment where two overlap; a stopped delivery wrote the whole leading blocks and may have written bytes of the one block
behind them in the segments it had begun, so of those nothing is known, also where they overlap a leading block (log entry 29);
every byte behind them stays as it was (R33, R43, R46, R48). -/
def State.deliverBytes (s : State) (slot c : Nat) (stop : Option Stop) : State :=
  match s.order? c with
  | none => s
  | some o =>
    match o.transfer with
    | none => s
    | some t =>
      let data := (s.slot slot).bytesFor t
      let segs := Copy.segments o.copy
      match stop with
      | none => s.scatter segs data
      | some p =>
        (s.scatter (leadingSegments segs (p.blocks * Config.blockBytes)) data).scatter (nextBlock (segs.take p.segments) p.blocks) none

end Sys2Proof.Machine
end

