-- ==== Sys2Proof/Machine/SchedulerOps.lean ====
section
/-! DEFINITION. The Share Scheduler's arithmetic and its FIFOs: cost (R62), tags (R63), V and H (R64, R65), becoming head (R58),
removal (R59), eligibility (R67) and spin-up requests (R68). -/
namespace Sys2Proof.Machine

/-! ## Cost and tags -/

/-- A quotient rounded up. -/
def ceilDiv (a b : Nat) : Nat := (a + b - 1) / b

/-- The distance between two block numbers. -/
def distance (a b : Nat) : Nat := (a - b) + (b - a)

/-- The seek cost S of R62. -/
def seekCost (a : Arbiter) (first : Nat) : Nat :=
  let d := distance first a.h
  if d = 0 then 0 else min a.seekMax (a.seekMin + d / 2 ^ a.seekShift)

/-- The transfer cost T of R62. -/
def transferCost (a : Arbiter) (count : Nat) : Nat := ceilDiv (count * 1024) a.rate

/-- The cost C of R62, in microseconds. -/
def costOf (a : Arbiter) (first count : Nat) : Nat := min Config.maxCost (seekCost a first + transferCost a count)

/-- The tag increment of R63. -/
def tagStep (cost weight : Nat) : Nat := ceilDiv (cost * 256) weight

/-- The tags of R63. -/
def tagsFor (cost weight lastFinish v : Nat) : Tags :=
  let start := max lastFinish v
  { start := start, finish := start + tagStep cost weight }

/-- The head of the FIFO of group g on bay b is tagged, when it has a cost and no tags and the group is open (R58, R63). -/
def State.tagHead (s : State) (b g : Nat) : State :=
  let q := s.fifo b g
  match q.cost, q.tags with
  | some c, none =>
    if 1 ≤ (s.group g).weight then
      let t := tagsFor c (s.group g).weight q.lastFinish (s.arbiter b).v
      s.setFifo b g { q with tags := some t, lastFinish := t.finish }
    else s
  | _, _ => s

/-! ## Eligibility -/

/-- Group g is held (R165). -/
def State.groupHeld (s : State) (g : Nat) : Bool := s.capture.triggered && s.capture.holdMask.getLsbD g

/-- The head of group g on bay b when it is tagged and meets conditions 1, 2, 3, 5 and 6 of R67: its cell and its tags. -/
def State.readyHead (s : State) (b g : Nat) : Option (Nat × Tags) :=
  let q := s.fifo b g
  match q.orders, q.tags with
  | c :: _, some t =>
    match s.transfer? c with
    | none => none
    | some x =>
      if 1 ≤ (s.group g).weight && !s.groupHeld g && !(s.group g).capReached && (s.freeTag b).isSome
          && !s.overDrain b x.first x.count then some (c, t)
      else none
  | _, _ => none

/-- Bay b takes transfer commands: ONLINE or RETIRING with its ready line high (R67 condition 4). -/
def State.bayServes (s : State) (b : Nat) : Bool :=
  ((s.bay b).state == .online || (s.bay b).state == .retiring) && s.readyHigh b

/-- The eligible head of group g on bay b (R67). -/
def State.eligibleHead (s : State) (b g : Nat) : Option (Nat × Tags) :=
  if s.bayServes b then s.readyHead b g else none

/-- The scheduler asks for a spin-up of bay b when a head meets all conditions but the bay's (R68), and the Bay Controller
takes the request by the bay's state (R132). -/
def State.requestSpinUp (s : State) (b : Nat) : State :=
  if s.working && allGroups.any (fun g => (s.readyHead b g).isSome) then
    match (s.bay b).state with
    | .spunDown => s.startSpinUp b
    | .spinningDown => s.setBay b { s.bay b with spinUpPending := true }
    | _ => s
  else s

/-- An event that may make heads of any bay eligible has happened (R67's table). -/
def State.requestSpinUps (s : State) : State := allBays.foldl (fun s b => s.requestSpinUp b) s

/-! ## The FIFOs -/

/-- The FIFO of group g on bay b holds these orders, and its head, if any, is new: no cost and no tags yet. -/
def State.setOrders (s : State) (b g : Nat) (orders : List Nat) : State :=
  s.setFifo b g { s.fifo b g with orders := orders, cost := none, tags := none }

/-- The head that has just become head goes through the steps of R58; a head that joins leaves and the next becomes head.
The first argument bounds the number of heads. -/
def State.settleHead (s : State) (fuel b g : Nat) : State :=
  match fuel with
  | 0 => s
  | k + 1 =>
    match (s.fifo b g).orders with
    | [] => s
    | c :: rest =>
      match s.transfer? c with
      | none => s
      | some t =>
        match (if t.kind.isRead then s.candidate b t.first t.count else none) with
        | some slot => ((s.setOrders b g rest).joinSlot slot c t).settleHead k b g
        | none =>
          (s.setFifo b g { s.fifo b g with cost := some (costOf (s.arbiter b) t.first t.count) }).tagHead b g

/-- The oldest order of a FIFO becomes head (R58), and a spin-up is asked for if it needs one (R68). -/
def State.becomeHead (s : State) (b g : Nat) : State :=
  (s.settleHead ((s.fifo b g).orders.length) b g).requestSpinUp b

/-- An order is appended to the FIFO of group g on bay b (R57); into an empty FIFO it becomes head (R58). -/
def State.enqueue (s : State) (b g c : Nat) : State :=
  let q := s.fifo b g
  if q.orders.isEmpty then (s.setOrders b g [c]).becomeHead b g
  else s.setFifo b g { q with orders := q.orders ++ [c] }

/-- The FIFO after its orders were removed: if a tagged head is among them, F returns to its start tag (R59). -/
def Fifo.giveBack (q : Fifo) : Fifo :=
  match q.tags with
  | some t => { q with lastFinish := t.start, tags := none, cost := none }
  | none => { q with cost := none }

/-- The orders for which p holds are removed before dispatch from the FIFO of group g on bay b, and the oldest that remains
becomes head if the head was among them (R59). -/
def State.removeQueued (s : State) (b g : Nat) (p : Nat → Bool) : State :=
  let q := s.fifo b g
  let left := q.orders.filter (fun c => !p c)
  match q.orders with
  | [] => s
  | c :: _ =>
    if p c then (s.setFifo b g { q.giveBack with orders := left }).becomeHead b g
    else s.setFifo b g { q with orders := left }

/-! ## Dispatch -/

/-- V and H after the dispatch of a range with a start tag (R64). -/
def Arbiter.advance (a : Arbiter) (start first count : Nat) : Arbiter :=
  { a with v := max a.v start, h := min Config.maxBlock (first + count) }

/-- A tag or F lowered by a rebase; below 0 it becomes 0 (R65). -/
def rebased (n : Nat) : Nat := n - Config.rebaseBy

/-- The FIFO of one group after a rebase of its bay (R65). -/
def Fifo.rebase (q : Fifo) : Fifo :=
  { q with lastFinish := rebased q.lastFinish,
           tags := q.tags.map (fun t => { start := rebased t.start, finish := rebased t.finish }) }

/-- The rebase test and the rebase of bay b (R65). -/
def State.rebase (s : State) (b : Nat) : State :=
  if Config.rebaseAt ≤ (s.arbiter b).v then
    allGroups.foldl (fun s g => s.setFifo b g (s.fifo b g).rebase)
      (s.setArbiter b { s.arbiter b with v := rebased (s.arbiter b).v })
  else s

/-- Of two choices the one with the smaller finish tag; at equal tags the first, whose group is lower (R70). -/
def betterHead (x y : Nat × Nat × Tags) : Nat × Nat × Tags := if y.2.2.finish < x.2.2.finish then y else x

/-- The arbiter's choice on bay b: group, cell and tags of the eligible head with the smallest finish tag (R70). -/
def State.choice (s : State) (b : Nat) : Option (Nat × Nat × Tags) :=
  (allGroups.filterMap (fun g => (s.eligibleHead b g).map (fun h => (g, h)))).foldl
    (fun best x => match best with
      | none => some x
      | some y => some (betterHead y x)) none

end Sys2Proof.Machine
end

