-- ==== Sys2Proof/Machine/LoanOps.lean ====
section
/-! DEFINITION. What the Loan Manager does to loans: conflicts (R3), freeing (R2), grants and examinations (R9), expiry (R10), lapse
(R14), the loan check (R25), and the end of a transfer (R26, R112, R114). -/
namespace Sys2Proof.Machine

/-! ## Conflicts -/

/-- Two loans conflict: same bay, ranges that overlap, not both READ_SHARED (R3). -/
def conflicts (a b : Loan) : Bool :=
  a.bay == b.bay && overlaps a.first a.count b.first b.count && !(a.mode == .readShared && b.mode == .readShared)

/-- The states of the conflict set (R3). -/
def LoanState.inConflictSet (l : LoanState) : Bool :=
  match l with
  | .held | .returning | .lapsing => true
  | .free | .waiting | .lapsed | .faulted => false

/-- The numbers of the listed loans that satisfy p, rising. -/
def State.loansWhere (s : State) (p : Loan → Bool) : List Nat :=
  (Table.keys s.loans.table).filter (fun n => p (s.loan n))

/-- The loans of the conflict set that conflict with l. -/
def State.rivals (s : State) (l : Loan) : List Nat :=
  s.loansWhere (fun m => m.state.inConflictSet && conflicts m l)

/-- The lowest-numbered FREE entry (R2). -/
def State.freeEntry (s : State) : Option Nat :=
  (List.range Config.numLoans).find? (fun n => (s.loan n).state == .free)

/-! ## Freeing, granting, examining -/

/-- An entry is freed: every field returns to its default, it leaves the waiting list of its bay, and its Lapse Queue entry is
removed (R2). -/
def State.freeLoan (s : State) (n : Nat) : State :=
  let b := (s.loan n).bay
  ((s.setLoan n .free).setWaiting b ((s.waiting b).filter (fun m => m != n))).dropLapse n

/-- A waiting loan is granted, and its opening cell is answered (R7, R9). -/
def State.grant (s : State) (n : Nat) : State :=
  let l := s.loan n
  (s.setLoan n { l with state := .held, wait := 0, openingCell := none }).replyOpt l.openingCell .ok n

/-- A waiting loan conflicts with another loan of the conflict set or with one still waiting ahead of it (R9). -/
def State.blocked (s : State) (n : Nat) (ahead : List Nat) : Bool :=
  (s.rivals (s.loan n)).any (fun m => m != n) || ahead.any (fun m => conflicts (s.loan m) (s.loan n))

/-- The walk of an examination: the loans passed that still wait, and the loans not yet visited (R9). -/
def State.examineFrom (s : State) (b : Nat) (ahead todo : List Nat) : State :=
  match todo with
  | [] => s.setWaiting b ahead
  | n :: rest =>
    if s.blocked n ahead then s.examineFrom b (ahead ++ [n]) rest
    else (s.grant n).examineFrom b ahead rest

/-- An examination of the waiting list of bay b (R9). -/
def State.examine (s : State) (b : Nat) : State := s.examineFrom b [] (s.waiting b)

/-- Examinations of several bays, in their order. -/
def State.examineAll (s : State) (bs : List Nat) : State := bs.foldl (fun s b => s.examine b) s

/-! ## The tick -/

/-- The wait of a WAITING loan counts down (R10). -/
def Loan.countWait (l : Loan) : Loan := if l.state = .waiting then { l with wait := l.wait - 1 } else l

/-- The term of a HELD loan counts down unless its bay is SPINNING_UP (R12 step 2). -/
def State.countTerm (s : State) (l : Loan) : Loan :=
  if l.state = .held ∧ (s.bay l.bay).state ≠ .spinningUp then { l with term := l.term - 1 } else l

/-- The entries of the Loan Table change by f. -/
def State.mapLoans (s : State) (f : Loan → Loan) : State :=
  { s with loans := { s.loans with table := s.loans.table.map (fun e => (e.1, f e.2)) } }

/-- The wait of loan n reaches 0 at the next tick taken (R10). -/
def Loan.expiresNext (l : Loan) : Bool := l.state == .waiting && l.wait ≤ 1

/-- The term of a loan reaches 0 at the next tick taken (R12). -/
def State.lapsesNext (s : State) (l : Loan) : Bool :=
  l.state == .held && l.term ≤ 1 && (s.bay l.bay).state != .spinningUp

/-- A waiting loan whose wait has reached 0 is freed and its opening cell answered WAIT_EXPIRED (R10). -/
def State.expire (s : State) (n : Nat) : State := (s.freeLoan n).replyOpt (s.loan n).openingCell .waitExpired n

/-- The held order in cell c is a transfer of loan n. -/
def State.isTransferOf (s : State) (n c : Nat) : Bool :=
  match s.transfer? c with
  | some t => t.loan == some n
  | none => false

/-- A HELD loan lapses (R14): its queued transfers are answered LAPSED oldest first and removed, its state becomes LAPSED or
LAPSING, and its number is pushed onto the Lapse Queue. -/
def State.lapseLoan (s : State) (n : Nat) : State :=
  let l := s.loan n
  let gone := (s.fifo l.bay l.group).orders.filter (s.isTransferOf n)
  ((((s.replyAll gone .lapsed n).removeQueued l.bay l.group (s.isTransferOf n)).setLoan n
      { l with state := if l.inFlight = 0 then .lapsed else .lapsing, term := 0 }).pushLapse n)

/-- The waiting loans that expire at this tick, bay 0 first and each list head first (R10, log entry 9). -/
def State.expiring (s : State) : List Nat :=
  allBays.flatMap (fun b => (s.waiting b).filter (fun n => (s.loan n).expiresNext))

/-- The loans that lapse at this tick, lowest number first (R12, log entry 9). -/
def State.lapsing (s : State) : List Nat := s.loansWhere s.lapsesNext

/-- The Loan Manager's handling of a tick it takes (R12). -/
def State.loanTick (s : State) : State :=
  let expired := s.expiring
  let expiredBays := expired.map (fun n => (s.loan n).bay)
  let s := expired.foldl (fun s n => s.expire n) (s.mapLoans Loan.countWait)
  let lapsed := s.lapsing
  let s := lapsed.foldl (fun s n => s.lapseLoan n) (s.mapLoans s.countTerm)
  let leftSet := (lapsed.filter (fun n => (s.loan n).state == .lapsed)).map (fun n => (s.loan n).bay)
  let s := s.examineAll (allBays.filter (fun b => expiredBays.contains b || leftSet.contains b))
  s.completionTests (allBays.filter (fun b => expiredBays.contains b))

/-! ## The loan check -/

/-- Entry n when it is in use and its holder is the node (R17, R19, R25). -/
def State.loanOf (s : State) (n node : Nat) : Option Loan :=
  if n < Config.numLoans ∧ (s.loan n).state ≠ .free ∧ (s.loan n).node = node then some (s.loan n) else none

/-- The transfer kinds a mode permits (R3). -/
def LoanMode.permits (m : LoanMode) (k : OrderKind) : Bool :=
  match m, k with
  | .readShared, .read => true
  | .writeSole, .read => true
  | .writeSole, .write => true
  | .append, .appendWrite => true
  | _, _ => false

/-- The loan check of a READ, WRITE or APPEND_WRITE (R25): the result and detail of the first step that fails, or the loan. -/
def State.loanCheck (s : State) (k : OrderKind) (copy : Copy) : Except (Result × Nat) Loan :=
  match s.loanOf copy.loan copy.node with
  | none => .error (.noLoan, copy.loan)
  | some l =>
    match l.state with
    | .waiting | .returning | .free => .error (.noLoan, copy.loan)
    | .lapsing | .lapsed => .error (.lapsed, copy.loan)
    | .faulted => .error (.diskFault, l.faultCause.code)
    | .held =>
      if !l.mode.permits k then .error (.mode, copy.loan)
      else if k != .appendWrite && !liesWithin copy.first copy.count l.first l.count then .error (.outOfLoan, copy.loan)
      else .ok l

/-! ## Append records -/

/-- Committed blocks are added (R112 step 2). -/
def AppendRecord.addBlocks (a : AppendRecord) (n : Nat) : AppendRecord :=
  { a with framesDone := a.framesDone + (a.blocksIntoFrame + n) / a.frameBlocks,
           blocksIntoFrame := (a.blocksIntoFrame + n) % a.frameBlocks }

/-- The committed position (R107). -/
def AppendRecord.committed (a : AppendRecord) : Nat := a.framesDone * a.frameBlocks + a.blocksIntoFrame

/-- The commit of R112 step 2 over a reservation list: the leading GOOD entries below the break point are committed, and the
rest are the list that stays. -/
def AppendRecord.commit (a : AppendRecord) (list : List Reservation) : AppendRecord :=
  match list with
  | [] => { a with reservations := [] }
  | e :: rest =>
    if e.good && a.breakPoint.all (fun p => e.offset < p) then (a.addBlocks e.n).commit rest
    else { a with reservations := e :: rest }

/-- GOOD entries at or above the break point leave the list (R112 step 3, R114 step 5). -/
def AppendRecord.discard (a : AppendRecord) : AppendRecord :=
  match a.breakPoint with
  | none => a
  | some p => { a with reservations := a.reservations.filter (fun e => !(e.good && p ≤ e.offset)) }

/-- The append reserved at an offset was answered OK or OK_TRUNCATED (R112). The offset names its entry: no two entries of a list
have the same, while a cell posted again may stand in it twice (log entry 30). -/
def AppendRecord.succeed (a : AppendRecord) (offset : Nat) : AppendRecord :=
  (a.commit (a.reservations.map (fun e => if e.offset = offset then { e with good := true } else e))).discard

/-- The append reserved at an offset was answered otherwise: a failed append (R114). -/
def AppendRecord.fail (a : AppendRecord) (offset : Nat) : AppendRecord :=
  let broken := { a with broken := true, breakPoint := some ((a.breakPoint.map (fun p => min p offset)).getD offset) }
  (broken.commit (a.reservations.filter (fun e => e.offset != offset))).discard

/-- An answered append is reported to its loan's record with the offset it was reserved at; one that was given no reservation
changes nothing (R109, R112, R114). -/
def AppendRecord.reported (a : AppendRecord) (reserved : Option Nat) (r : Result) : AppendRecord :=
  match reserved with
  | none => a
  | some offset => if r = .ok ∨ r = .okTruncated then a.succeed offset else a.fail offset

/-! ## The end of a transfer -/

/-- The loan's return cell is answered OK after the entry was freed (R15, R20, R23). -/
def State.finishReturn (s : State) (n : Nat) : State := (s.freeLoan n).replyOpt (s.loan n).returnCell .ok n

/-- What follows when the in-flight count of loan n has reached 0 (R26, R15). -/
def State.inFlightOver (s : State) (n : Nat) : State :=
  let l := s.loan n
  match l.state, l.returnCell with
  | .returning, _ => ((s.finishReturn n).examine l.bay).completionTest l.bay
  | .lapsing, some _ => ((s.finishReturn n).examine l.bay).completionTest l.bay
  | .lapsing, none => (s.setLoan n { l with state := .lapsed }).examine l.bay
  | .faulted, some _ => (s.finishReturn n).completionTest l.bay
  | _, _ => s

/-- The answer of a transfer of loan n with result r has been written, of an append with the offset it was reserved at (R26,
R112). -/
def State.transferEnded (s : State) (n : Nat) (reserved : Option Nat) (r : Result) : State :=
  let l := s.loan n
  let s := s.setLoan n { l with inFlight := l.inFlight - 1, append := l.append.map (fun a => a.reported reserved r) }
  if l.inFlight - 1 = 0 then s.inFlightOver n else s

/-! ## Bay faults -/

/-- A waiting loan of a faulted bay is answered DISK_FAULT and freed (R27 step 1). -/
def State.faultWaiting (s : State) (n : Nat) : State := (s.replyOpt (s.loan n).openingCell .diskFault n).freeLoan n

/-- The loans of bay b that a fault makes FAULTED (R27 step 2). -/
def State.toFault (s : State) (b : Nat) : List Nat :=
  s.loansWhere (fun l => l.bay == b && (l.state.inConflictSet || l.state == .lapsed))

/-- A loan becomes FAULTED (R27 step 2). -/
def State.faultLoan (s : State) (cause : Cause) (n : Nat) : State :=
  (s.setLoan n { s.loan n with state := .faulted, faultCause := cause }).dropLapse n

/-- The Loan Manager's handling of a fault on bay b (R27). -/
def State.faultLoans (s : State) (b : Nat) (cause : Cause) : State :=
  (s.toFault b).foldl (fun s n => s.faultLoan cause n) ((s.waiting b).foldl (fun s n => s.faultWaiting n) s)

/-- The count of loans that a fault on bay b changes (R27 step 3). -/
def State.loansFaultedBy (s : State) (b : Nat) : Nat := (s.waiting b).length + (s.toFault b).length

end Sys2Proof.Machine
end

