-- ==== Sys2Proof/Machine/FaultOps.lean ====
section
/-! DEFINITION. Fault offers (R158 to R164) and bay faults (R138, R139, R74, R103, R143). -/
namespace Sys2Proof.Machine

/-- The record that the capture of an offer forms (R162). -/
def State.recordFor (s : State) (cause : Cause) (location loansFaulted ordersFailed : Nat) : FaultRecord :=
  { cause := cause, location := location, loansFaulted := loansFaulted, ordersFailed := ordersFailed,
    stamp := s.clock.tickCount, suppressedBefore := s.capture.suppressed, holdMask := s.capture.holdMask,
    autoRearm := s.capture.autoRearm, sequence := s.capture.sequence + 1 }

/-- A fault is offered to the Fault Capture Unit: captured while TRIGGERED is clear and the part is STOPPED, RUNNING or STOPPING
(R160), else only counted (R161, R164). -/
def State.offer (s : State) (cause : Cause) (location loansFaulted ordersFailed : Nat) : State :=
  if s.serving && !s.capture.triggered then
    { s with capture := { s.capture with
        triggered := true, sequence := s.capture.sequence + 1, suppressed := 0,
        record := some (s.recordFor cause location loansFaulted ordersFailed) } }
  else
    { s with capture := { s.capture with
        sequence := s.capture.sequence + 1, suppressed := min 255 (s.capture.suppressed + 1) } }

/-! ## The scheduler at a bay fault -/

/-- The queued orders of group g on bay b are removed and answered DISK_FAULT, oldest first (R74 step 1, R59). -/
def State.faultFifo (s : State) (b : Nat) (cause : Cause) (g : Nat) : State :=
  let q := s.fifo b g
  (s.setFifo b g { q.giveBack with orders := [] }).replyAll q.orders .diskFault cause.code

/-- Bay b leaves the Slot Wait list (R74 step 3). -/
def State.leaveSlotWait (s : State) (b : Nat) : State :=
  { s with staging := { s.staging with slotWait := s.staging.slotWait.filter (fun x => x != b) } }

/-- The scheduler's handling of a fault on bay b (R74). -/
def State.faultShares (s : State) (b : Nat) (cause : Cause) : State :=
  let s := allGroups.foldl (fun s g => s.faultFifo b cause g) s
  (s.setArbiter b { s.arbiter b with tags := [] }).leaveSlotWait b

/-! ## The staging memory at a bay fault -/

/-- The orders of a slot that end together: the lead and then each joiner in join order. -/
def Slot.orders (v : Slot) : List Nat := v.lead.toList ++ v.joiners

/-- A fault of its bay acts on slot k (R103). The fetch failure of a drain takes the cause also where an earlier fault has left one there
(log entry 36). -/
def State.faultSlot (s : State) (cause : Cause) (k : Nat) : State :=
  let v := s.slot k
  match v.state, v.phase with
  | .filling, _ => (((s.replyAll v.orders .diskFault cause.code).freeSlot k).offerSlot k)
  | .draining, some .fetch => s.setSlot k { v with fetchFailure := some cause }
  | .draining, _ =>
    (s.replyAll v.orders .diskFault cause.code).endDrain k (v.lead.getD 0)
  | .resident, _ => (s.dropResident k).offerSlot k
  | _, _ => s

/-- The Staging Controller's handling of a fault on bay b, slot 0 first (R103). -/
def State.faultStaging (s : State) (b : Nat) (cause : Cause) : State :=
  (s.slotsWhere (fun v => v.onBay b)).foldl (fun s k => s.faultSlot cause k) s

/-! ## The bay record -/

/-- Steps 1 to 3 of R138: what a fault leaves in the bay record. -/
def Bay.faulted (v : Bay) (cause : Cause) : Bay :=
  { v with
    state := if cause = .removed then .empty else .faulted, lastFault := cause,
    capacity := if cause = .admitFailed ∨ cause = .removed then 0 else v.capacity,
    outstanding := [], sendList := [], spinUpPending := false, retirePending := false,
    opTimer := 0, readyLow := 0, idleTicks := 0 }

/-- Command tags of commands that have ended with their bay's fault while the part is HALTED are released (R76). -/
def State.releaseEnded (s : State) (b : Nat) (ended : List Command) : State :=
  if s.exchange.part = .halted then
    ended.foldl (fun s c => match c.tag with
      | some t => s.setTag b t none
      | none => s) s
  else s

/-- An admit cell is answered and becomes absent (R129, R138 step 4); in RESTARTING and HALTED it stays (R143). -/
def State.answerAdmit (s : State) (b : Nat) (r : Result) (detail : Nat) : State :=
  if s.serving then (s.setBay b { s.bay b with admitCell := none }).replyOpt (s.bay b).admitCell r detail else s

/-- Steps 1 to 4 of R139: the fault reaches loans, scheduler, staging and the Fault Capture Unit. -/
def State.spreadFault (s : State) (b : Nat) (cause : Cause) : State :=
  let loans := s.loansFaultedBy b
  let s := s.faultLoans b cause
  let before := s.exchange.answerList.length
  let s := (s.faultShares b cause).faultStaging b cause
  s.offer cause b loans (s.exchange.answerList.length - before)

/-- A bay fault (R138, R139). While the part is RESTARTING or HALTED only the bay record changes (R143). -/
def State.bayFault (s : State) (b : Nat) (cause : Cause) : State :=
  let v := s.bay b
  let s := (s.putBay b (v.faulted cause)).releaseEnded b v.outstanding
  let s := s.answerAdmit b .diskFault Cause.admitFailed.code
  if s.serving then s.spreadFault b cause else s

/-- An admission or a spin-up fails (R129, R133). -/
def State.operationFails (s : State) (b : Nat) : State :=
  match (s.bay b).state with
  | .admitting => s.bayFault b .admitFailed
  | .spinningUp => s.bayFault b .spinupFailed
  | _ => s

/-! ## Leaving service without a fault -/

/-- The RESIDENT slots of bay b are discarded while the Staging Controller acts by its rules (R103, R104). -/
def State.discardBay (s : State) (b : Nat) : State := if s.serving then s.clearStaged b else s

/-- The bay becomes PRESENT at the end of its retirement (R134, R135). -/
def State.retired (s : State) (b : Nat) : State :=
  (s.putBay b { s.bay b with state := .present, capacity := 0, idleTicks := 0, readyLow := 0 }).discardBay b

/-- A retirement taken on a SPUN_DOWN bay (R134). -/
def State.retireSpunDown (s : State) (b : Nat) : State :=
  if s.holdsLoans b || s.hasWork b then (s.setBay b { s.bay b with retirePending := true }).startSpinUp b
  else s.retired b

end Sys2Proof.Machine
end

