-- ==== Sys2Proof/Machine/PartOps.lean ====
section
/-! DEFINITION. The part state machine and the intake: sweep and sweep timer (R175), writes of CONTROL (R182), entry to RUNNING
(R184), STOPPING (R185), RESTARTING (R187) and HALTED (R186), and the restart effects (R188). -/
namespace Sys2Proof.Machine

/-- The part enters a state. -/
def State.setPart (s : State) (p : PartState) : State := { s with exchange := { s.exchange with part := p } }

/-! ## Sweep -/

/-- The sweep timer takes a value and counts, or stands (R175). -/
def State.setSweepTimer (s : State) (on : Bool) : State :=
  { s with exchange := { s.exchange with sweepTimer := 0, sweepTimerOn := on } }

/-- The state of the sweep. -/
def State.setSweep (s : State) (w : Sweep) : State := { s with exchange := { s.exchange with sweep := w } }

/-- A sweep in progress ends early and the timer stops at 0 (R175). A visit's read already begun runs to its end. -/
def State.stopSweep (s : State) : State :=
  let w := s.exchange.sweep
  (s.setSweep { active := false, reading := w.reading, leftover := w.reading.isSome, waiting := none }).setSweepTimer false

/-- The timer starts from 0 when INTAKE_MODE is SWEPT or BOTH (R184, R185). -/
def State.startSweepTimer (s : State) : State :=
  if s.exchange.control.intake = .notified then s else s.setSweepTimer true

/-- The sweep goes on at cell n: the next cell that is not held is read, or the sweep ends and the timer starts again (R175). -/
def State.sweepOn (s : State) (n : Nat) : State :=
  match (List.range' n (Config.numCells - n)).find? (fun c => !s.isHeld c) with
  | some c => s.setSweep { active := true, reading := some c }
  | none => (s.setSweep { active := false, reading := none }).setSweepTimer true

/-- A take in progress, or its end. -/
def State.setTake (s : State) (t : Option Take) : State := { s with exchange := { s.exchange with take := t } }

/-- A stray post is counted (R174). -/
def State.strayPost (s : State) : State :=
  { s with exchange := { s.exchange with strayPosts := min 255 (s.exchange.strayPosts + 1) } }

/-! ## Part states -/

/-- The part enters RUNNING (R184, R185). -/
def State.enterRunning (s : State) : State := (s.setPart .running).startSweepTimer

/-- RUN is 1 and the base is not 0: a STOPPED part enters RUNNING (R184). -/
def State.tryStart (s : State) : State :=
  if s.exchange.part = .stopped ∧ s.exchange.control.run = true ∧ s.exchange.base ≠ 0 then s.enterRunning else s

/-- What stays on a send list at entry to RESTARTING or HALTED: the STANDBY of a spin-down already begun (R143). -/
def Bay.keepsSending (v : Bay) (c : Command) : Bool := v.state == .spinningDown && c.kind == .standby

/-- The send list of bay b is emptied at entry to RESTARTING or HALTED (R143). -/
def State.stopSends (s : State) (b : Nat) : State :=
  let v := s.bay b
  (s.setBay b { v with sendList := v.sendList.filter v.keepsSending }).releaseEnded b
    (v.sendList.filter (fun c => !v.keepsSending c))

/-- What leaving STOPPED, RUNNING and STOPPING for RESTARTING or HALTED stops at once (R143, R175). -/
def State.quiesce (s : State) : State := allBays.foldl (fun s b => s.stopSends b) s.stopSweep

/-- A restart is requested (R187): from STOPPED, RUNNING, STOPPING or HALTED the part enters RESTARTING; else it is ignored. -/
def State.requestRestart (s : State) (cause : ResetCause) : State :=
  match s.exchange.part with
  | .bringup | .restarting => s
  | .stopped | .running | .stopping | .halted =>
    { s with exchange := { s.exchange with part := .restarting, resetCause := cause, errorInRestart := false } }.quiesce

/-- An Exchange Area access ended with a host memory error (R186): the part halts; the first such error of a RESTARTING sets the
halt cause; in HALTED nothing changes. -/
def State.areaError (s : State) (cause : HaltCause) : State :=
  match s.exchange.part with
  | .stopped | .running | .stopping =>
    { s with exchange := { s.exchange with part := .halted, haltCause := cause } }.quiesce
  | .restarting =>
    if s.exchange.errorInRestart then s
    else { s with exchange := { s.exchange with haltCause := cause, errorInRestart := true } }
  | .bringup | .halted => s

/-! ## CONTROL -/

/-- INTAKE_MODE in bits 2-1 of a word; 3 is stored as BOTH (R196). -/
def IntakeMode.ofWord (w : Word) : IntakeMode :=
  match w.getLsbD 2, w.getLsbD 1 with
  | false, false => .notified
  | false, true => .swept
  | true, _ => .both

/-- The fields of a word written to CONTROL (R196). -/
def Control.ofWord (w : Word) : Control :=
  { run := w.getLsbD 0, intake := .ofWord w, answerMode := if w.getLsbD 3 then .first else .each,
    sweepMs := w.extractLsb' 8 8 }

/-- A change of ANSWER_MODE acts on the ANSWER flag (R192). -/
def State.changeAnswerMode (s : State) (old : AnswerMode) : State :=
  let x := s.exchange
  if x.control.answerMode = old then s
  else s.setFlags { s.notices.flags with answer := answerLevel x.control.answerMode x.answerQueue s.notices.flags.answer }

/-- A change of SWEEP_MS sets the sweep timer to 0 (R175). -/
def State.changeSweepMs (s : State) (old : BitVec 8) : State :=
  if s.exchange.control.sweepMs = old then s else s.setSweepTimer s.exchange.sweepTimerOn

/-- A change of INTAKE_MODE to NOTIFIED ends the sweep and stops the timer; from NOTIFIED, while RUNNING, it starts the timer
(R175). -/
def State.changeIntake (s : State) (old : IntakeMode) : State :=
  let new := s.exchange.control.intake
  if new = old then s
  else if new = .notified then s.stopSweep
  else if old = .notified ∧ s.exchange.part = .running then s.setSweepTimer true
  else s

/-- RUN acts on the part state (R184, R185). -/
def State.actOnRun (s : State) : State :=
  match s.exchange.part, s.exchange.control.run with
  | .stopped, true => s.tryStart
  | .stopping, true => s.enterRunning
  | .running, false => (s.setPart .stopping).stopSweep.tryStop
  | _, _ => s

/-- The fields of CONTROL are stored together and act at once (R182). -/
def State.storeControl (s : State) (c : Control) : State :=
  let old := s.exchange.control
  ((({ s with exchange := { s.exchange with control := c } }.changeAnswerMode old.answerMode).changeSweepMs
      old.sweepMs).changeIntake old.intake).actOnRun

/-- A write of CONTROL (R182): the fields are stored, and bit 31 then requests a restart. -/
def State.writeControl (s : State) (w : Word) : State :=
  if s.writable then
    let s := s.storeControl (.ofWord w)
    (if w.getLsbD 31 then s.requestRestart .restartWrite else s).beginRecords
  else s

/-! ## The end of RESTARTING -/

/-- No bay has a command outstanding or a spin operation in progress (R143). -/
def Bay.quiet (v : Bay) : Bool :=
  v.outstanding.isEmpty && v.state != .admitting && v.state != .spinningUp && v.state != .spinningDown

/-- No access of the Exchange Port to the Exchange Area is in flight (R187). -/
def State.accessesOver (s : State) : Bool :=
  !s.exchange.answerBusy && s.exchange.take.isNone && s.exchange.sweep.reading.isNone
    && s.exchange.meterPort.inFlight.isNone && s.exchange.summaryPort.inFlight.isNone && s.capture.writing.isNone

/-- Every condition for the end of RESTARTING holds (R187). -/
def State.mayEndRestart (s : State) : Bool :=
  s.exchange.part == .restarting && s.accessesOver && s.engine.items.all (fun it => it.channel.isNone)
    && allBays.all (fun b => (s.bay b).quiet)

/-- The restart effects on the Exchange Port (R188). -/
def Exchange.restarted (x : Exchange) : Exchange :=
  { x with
    part := if x.errorInRestart then .halted else .stopped,
    haltCause := if x.errorInRestart then x.haltCause else .none,
    errorInRestart := false,
    control := { x.control with run := false },
    postFifo := [], strayPosts := 0, sweepTimer := 0, sweepTimerOn := false,
    sweep := { active := false, reading := none }, take := none,
    held := [], awaiting := [], answerList := [], answerBusy := false, answerQueue := [], lapseQueue := [] }

/-- The restart effects on the scheduler's record of a bay (R78). -/
def Arbiter.restarted (a : Arbiter) : Arbiter := { a with v := 0, h := 0, tags := [] }

/-- The restart effects on a bay record (R145). -/
def Bay.restarted (v : Bay) : Bay :=
  { v with
    state := if v.state = .retiring then .present else v.state,
    capacity := if v.state = .retiring then 0 else v.capacity,
    spinUpPending := false, retirePending := false, admitCell := none, idleTicks := 0, readyLow := 0,
    outstanding := [], sendList := [] }

/-- The restart effects on the Fault Capture Unit (R169). -/
def FaultCapture.restarted (c : FaultCapture) : FaultCapture :=
  { c with triggered := false, suppressed := 0, record := none, writing := none }

/-- Every record of a numbered kind changes by its own step, in rising order. -/
def overBays (s : State) (f : State → Nat → State) : State := allBays.foldl f s

/-- What the restart effects leave, but for the records of the bays. -/
def State.cleared (s : State) : State :=
  { s with
    exchange := s.exchange.restarted, loans := { table := [], waiting := [] }, shares := { s.shares with fifos := [] },
    staging := { slots := s.staging.slots.filter (fun e => e.2.state == .bad), residency := [], slotWait := [] },
    engine := { items := [] }, capture := s.capture.restarted, notices := s.notices.renew .clear .clear }

/-- The restart effects, applied by every block in one event (R188). -/
def State.restartEffects (s : State) : State :=
  let s := overBays s.cleared (fun s b => s.setArbiter b (s.arbiter b).restarted)
  let s := overBays s (fun s b => s.setBay b (s.bay b).restarted)
  if s.exchange.part = .stopped then s.requestSummary.beginRecords else s

end Sys2Proof.Machine
end

