-- ==== Sys2Proof/Machine/Intake.lean ====
section
/-! DEFINITION. The intake: entries of the Post FIFO (R174), sweeps (R175) and takes (R176, R177). -/
namespace Sys2Proof.Machine

/-- The oldest Post FIFO entry is removed: a stray, or the cell whose read begins (R174). -/
def State.takePosted (s : State) : State :=
  if s.exchange.part = .running ∧ s.exchange.take = none then
    match s.exchange.postFifo with
    | [] => s
    | c :: rest =>
      let s := { s with exchange := { s.exchange with postFifo := rest } }
      if Config.numCells ≤ c ∨ s.isHeld c then s.strayPost else s.setTake (some { cell := c, bySweep := false })
  else s

/-- The intake takes from the Post FIFO (R174). -/
def execPostFifoIntake (s : State) : Host.Outcome State Fault Refusal := .next s.takePosted

/-- The sweep that has begun visits its first cell; where the read of a sweep that has ended is still in flight, once that has
ended (R175). -/
def State.firstVisit (s : State) : State :=
  if s.exchange.sweep.reading.isSome then s.setSweep { s.exchange.sweep with active := true, leftover := true } else s.sweepOn 0

/-- A sweep begins and the timer stops at 0 (R175). -/
def State.beginSweep (s : State) : State :=
  if s.exchange.part = .running ∧ s.exchange.control.intake ≠ .notified ∧ s.exchange.sweep.active = false then
    (s.setSweepTimer false).firstVisit
  else s

/-- The sweep timer reaches SWEEP_MS (R175). -/
def execSweep (s : State) : Host.Outcome State Fault Refusal := .next s.beginSweep

/-- The sweep has found cell c POSTED: its take begins, or waits for the take in progress to end (R175, R176). -/
def State.foundPosted (s : State) (c : Nat) : State :=
  match s.exchange.take with
  | none => (s.setSweep { active := true, reading := none }).setTake (some { cell := c, bySweep := true })
  | some _ => s.setSweep { active := true, reading := none, waiting := some c }

/-- The read that a sweep left behind has ended: a sweep that has begun since then visits its first cell. -/
def State.leftoverEnds (s : State) : State :=
  let active := s.exchange.sweep.active
  let s := s.setSweep { active := active, reading := none }
  if active then s.sweepOn 0 else s

/-- The read of the visited cell's leading 8 bytes ends: a POSTED hand leads to a take, any other is passed over (R175). -/
def State.visited (s : State) (lead : BitVec 64) : State :=
  match s.exchange.sweep.reading with
  | none => s
  | some c =>
    if s.exchange.sweep.leftover || !s.exchange.sweep.active then s.leftoverEnds
    else if s.isHeld c || lead.toNat % 256 != handPosted then s.sweepOn (c + 1)
    else s.foundPosted c

/-- The end of a sweep's visit (R175). -/
def execSweepVisit (lead : BitVec 64) (s : State) : Host.Outcome State Fault Refusal := .next (s.visited lead)

/-- A reposted cell's entry leaves the Answer Queue at its take (R176); in RESTARTING the queue keeps its entries (R195, log
entry 11). -/
def State.dropAnswered (s : State) (c : Nat) : State :=
  if c ∈ s.exchange.answerQueue ∧ s.exchange.part ≠ .restarting then
    s.shrinkAnswers (s.exchange.answerQueue.filter (fun x => x != c))
  else s

/-- Step 2 of R176: the cell's entry leaves the Answer Queue if it is there, and TAKEN is written into the hand. -/
def State.markTaken (s : State) (c : Nat) : State := (s.dropAnswered c).poke (s.cellAddress c 0) [BitVec.ofNat 8 handTaken]

/-- Steps 3 and 4 of R176 and the common format check (R177): the cell is held and its order awaits validation, or is answered
FORMAT, without a snapshot also for a LOAN_QUERY (log entry 32). -/
def State.hold (s : State) (c : Nat) (copy : Copy) : State :=
  let order : HeldOrder := { cell := c, copy := copy, transfer := none }
  let s := { s with exchange := { s.exchange with held := s.exchange.held ++ [order] } }
  match copy.commonFailure with
  | some d => s.reply c .format d
  | none => { s with exchange := { s.exchange with awaiting := s.exchange.awaiting ++ [c] } }

/-- A take has ended (R175): the sweep goes on behind the cell that it took; a cell that it found POSTED meanwhile is taken, or
passed over where it is held by now. -/
def State.resumeSweep (s : State) (t : Take) : State :=
  match s.exchange.sweep.waiting with
  | some c => if s.isHeld c then s.sweepOn (c + 1) else s.foundPosted c
  | none => if t.bySweep && s.exchange.sweep.active && s.exchange.sweep.reading.isNone then s.sweepOn (t.cell + 1) else s

/-- A take ends (R174, R175, R176): a POSTED copy becomes a held order; any other hand is a stray of the Post FIFO, or is passed
over by the sweep. -/
def State.endTake (s : State) (copy : Copy) : State :=
  match s.exchange.take with
  | none => s
  | some t =>
    let s := s.setTake none
    let s := if copy.hand = handPosted then (s.markTaken t.cell).hold t.cell copy
      else if t.bySweep then s else s.strayPost
    (s.resumeSweep t).tryStop

/-- The whole-cell read, and for a POSTED cell the TAKEN write, have ended without error (R176). -/
def execTake (copy : BitVec 1024) (s : State) : Host.Outcome State Fault Refusal := .next (s.endTake copy)

end Sys2Proof.Machine
end

