-- ==== Sys2Proof/Machine/AreaEvents.lean ====
section
/-! DEFINITION. The ends of accesses to the Exchange Area: answers and interim writes (R178, R7), the three records (R162, R155, R142)
and host memory errors (R171, R186). -/
namespace Sys2Proof.Machine

/-! ## Answers -/

/-- The host tag of the held order in cell c. -/
def State.hostTagOf (s : State) (c : Nat) : Nat := ((s.order? c).map (fun o => Copy.hostTag o.copy)).getD 0

/-- Step 1 of R178: the answer fields, and the snapshot of a LOAN_QUERY. -/
def State.pokeAnswer (s : State) (a : Answer) : State :=
  let s := match a.snapshot with
    | some bytes => s.poke (s.cellAddress a.cell 32) (bytes.take 48)
    | none => s
  s.poke (s.cellAddress a.cell 112) (answerImage a s.clock.tickCount (s.hostTagOf a.cell))

/-- Step 2 of R178: ANSWERED in the hand. -/
def State.pokeHand (s : State) (c : Nat) : State := s.poke (s.cellAddress c 0) [BitVec.ofNat 8 handAnswered]

/-- The Answer Write list goes on to its next entry (R178). -/
def State.nextAnswer (s : State) (rest : List AnswerWrite) : State :=
  { s with exchange := { s.exchange with answerList := rest, answerBusy := !rest.isEmpty } }

/-- No write of the Answer Write list is in flight; its entries stay. -/
def State.idleAnswers (s : State) : State := { s with exchange := { s.exchange with answerBusy := false } }

/-- The reports of step 3 of R178: to the Meter Unit (R153) and, for a transfer under a loan, to the Loan Manager (R26). -/
def State.reportAnswer (s : State) (a : Answer) (t : Option Transfer) : State :=
  let s := s.meterAnswered (t.map (fun t => t.group))
  match t with
  | some { loan := some n, reserved := reserved, .. } => s.transferEnded n reserved a.result
  | _ => s

/-- Step 3 of R178: the cell enters the Answer Queue and leaves the Held Cell set, and the reports are made. R178 makes them in the same
step and gives them no order. Here the Notice Unit takes its report first, then the Meter Unit, then the Loan Manager: where the loan
is freed and the Lapse Queue empties, ANSWER is pending before LAPSE falls, and no further message is signalled (the model's choice,
log entry 33). -/
def State.finishAnswer (s : State) (a : Answer) (rest : List AnswerWrite) : State :=
  let t := s.transfer? a.cell
  ((((s.nextAnswer rest).growAnswers a.cell).unhold a.cell).reportAnswer a t).tryStop

/-- The fields and the hand of the first answer have been written without error (R178). In RESTARTING and HALTED step 3 is not
made. -/
def State.answerWritten (s : State) : State :=
  match s.exchange.answerBusy, s.exchange.answerList with
  | true, .answer a :: rest =>
    let s := (s.pokeAnswer a).pokeHand a.cell
    if s.serving then (s.finishAnswer a rest).beginRecords else s.idleAnswers
  | _, _ => s

/-- An answer has been written (R178). -/
def execAnswerWritten (s : State) : Host.Outcome State Fault Refusal := .next s.answerWritten

/-- The interim write of a waiting loan's number (R7, R199). -/
def State.interimWritten (s : State) : State :=
  match s.exchange.answerBusy, s.exchange.answerList with
  | true, .interim c n :: rest =>
    let s := s.poke (s.cellAddress c 116) (leBytes 4 n)
    if s.serving then (s.nextAnswer rest).tryStop else s.idleAnswers
  | _, _ => s

/-- An interim write has ended (R178). -/
def execInterimWriteEnd (s : State) : Host.Outcome State Fault Refusal := .next s.interimWritten

/-! ## Records -/

/-- The FAULT notice is requested unless the part is RESTARTING or HALTED (R163, R190). -/
def State.faultNotice (s : State) : State := if s.serving then s.noticeFault else s

/-- Where AUTO_REARM is set the end of the record write has cleared TRIGGERED, and the Share Scheduler is told (R162 step 3, R165). -/
def State.rearmed (s : State) : State := if s.capture.autoRearm then s.requestSpinUps else s

/-- The Fault Record write ends without error (R162, R163). -/
def State.faultRecordWritten (s : State) : State :=
  match s.capture.writing, s.capture.record with
  | some base, some r =>
    let s := s.pokeParts (base.toNat + Config.faultRecordOffset) r.image faultRecordParts
    let s := { s with capture := { s.capture with
      record := none, writing := none, triggered := s.capture.triggered && !s.capture.autoRearm } }
    (s.faultNotice.rearmed).beginRecords
  | _, _ => s

/-- The Fault Record write ends (R162). -/
def execFaultRecordWriteEnd (s : State) : Host.Outcome State Fault Refusal := .next s.faultRecordWritten

/-- The METER notice is requested unless the part is RESTARTING (R155, R190). -/
def State.meterNotice (s : State) : State := if s.exchange.part = .restarting then s else s.noticeMeter

/-- The write of the Meter Block is no longer in flight. -/
def State.endMeterWrite (s : State) : State :=
  { s with exchange := { s.exchange with meterPort := { s.exchange.meterPort with inFlight := none } } }

/-- The write of the Bay Summary is no longer in flight. -/
def State.endSummaryWrite (s : State) : State :=
  { s with exchange := { s.exchange with summaryPort := { s.exchange.summaryPort with inFlight := none } } }

/-- The Meter Block write ends without error (R155). -/
def State.meterBlockWritten (s : State) : State :=
  match s.exchange.meterPort.inFlight with
  | none => s
  | some w =>
    (((s.pokeParts (w.base.toNat + Config.meterBlockOffset) w.image meterBlockParts).endMeterWrite).meterNotice).beginRecords

/-- The Meter Block write ends (R155). -/
def execMeterBlockWriteEnd (s : State) : Host.Outcome State Fault Refusal := .next s.meterBlockWritten

/-- The Bay Summary write ends without error (R142). -/
def State.baySummaryWritten (s : State) : State :=
  match s.exchange.summaryPort.inFlight with
  | none => s
  | some w =>
    ((s.pokeParts (w.base.toNat + Config.baySummaryOffset) w.image baySummaryParts).endSummaryWrite).beginRecords

/-- The Bay Summary write ends (R142). -/
def execBaySummaryWriteEnd (s : State) : Host.Outcome State Fault Refusal := .next s.baySummaryWritten

/-! ## Host memory errors -/

/-- The read of a sweep's visit fails (R171). -/
def State.visitFails (s : State) : State :=
  match s.exchange.sweep.reading with
  | some _ => (s.setSweep { s.exchange.sweep with reading := none, leftover := false }).areaError .cell
  | none => s

/-- The whole-cell read of a take fails (R176). -/
def State.takeReadFails (s : State) : State :=
  match s.exchange.take with
  | some _ => (s.setTake none).areaError .cell
  | none => s

/-- The TAKEN write of a take fails: the cell's Answer Queue entry has been removed before it, and the hand is TAKEN (R176). -/
def State.takenWriteFails (s : State) : State :=
  match s.exchange.take with
  | some t => ((s.setTake none).markTaken t.cell).areaError .cell
  | none => s

/-- A write of the answer fields fails (R178 step 1, R199). -/
def State.fieldsFail (s : State) (a : Answer) : State :=
  let s := match a.snapshot with
    | some _ => s.smudge (s.cellAddress a.cell 32) 48
    | none => s
  ((s.smudge (s.cellAddress a.cell 112) 16).idleAnswers).areaError .answer

/-- The ANSWERED write fails (R178 step 2). -/
def State.handFails (s : State) (a : Answer) : State :=
  (((s.pokeAnswer a).smudge (s.cellAddress a.cell 0) 1).idleAnswers).areaError .answer

/-- A write of the Answer Write list in flight ends with an error (R178, R186). -/
def State.answerFails (s : State) (access : AreaAccess) : State :=
  match s.exchange.answerBusy, s.exchange.answerList, access with
  | true, .answer a :: _, .answerFields => s.fieldsFail a
  | true, .answer a :: _, .answerHand => s.handFails a
  | true, .interim c _ :: _, .interim => ((s.smudge (s.cellAddress c 116) 4).idleAnswers).areaError .answer
  | _, _, _ => s

/-- The Fault Record write fails in a part (R163, R200). -/
def State.faultRecordFails (s : State) (part : Nat) : State :=
  match s.capture.writing, s.capture.record with
  | some base, some r =>
    let s := s.failParts (base.toNat + Config.faultRecordOffset) r.image faultRecordParts part
    { s with capture := { s.capture with record := none, writing := none } }.areaError .faultRecord
  | _, _ => s

/-- The Meter Block write fails in a part (R155, R200). -/
def State.meterBlockFails (s : State) (part : Nat) : State :=
  match s.exchange.meterPort.inFlight with
  | none => s
  | some w =>
    ((s.failParts (w.base.toNat + Config.meterBlockOffset) w.image meterBlockParts part).endMeterWrite).areaError .meterBlock

/-- The Bay Summary write fails in a part (R142, R200). -/
def State.baySummaryFails (s : State) (part : Nat) : State :=
  match s.exchange.summaryPort.inFlight with
  | none => s
  | some w =>
    ((s.failParts (w.base.toNat + Config.baySummaryOffset) w.image baySummaryParts part).endSummaryWrite).areaError .baySummary

/-- A host memory error ends an access to the Exchange Area that is in flight (R171). -/
def State.accessFails (s : State) (access : AreaAccess) : State :=
  match access with
  | .visitRead => s.visitFails
  | .takeRead => s.takeReadFails
  | .takenWrite => s.takenWriteFails
  | .answerFields | .answerHand | .interim => s.answerFails access
  | .faultRecord part => s.faultRecordFails part
  | .meterBlock part => s.meterBlockFails part
  | .baySummary part => s.baySummaryFails part

/-- A host memory error on the Exchange Area (R186). -/
def execExchangeAreaError (access : AreaAccess) (s : State) : Host.Outcome State Fault Refusal := .next (s.accessFails access)

end Sys2Proof.Machine
end

