-- ==== Sys2Proof/Machine/DeliveryEvents.lean ====
section
/-! DEFINITION. The Delivery Engine: items given to channels (R85), the ends of deliveries (R87) and of write fetches (R91, R101), and
staging errors (R100, R104). -/
namespace Sys2Proof.Machine

/-! ## Items -/

/-- The item on a channel. -/
def State.itemOn (s : State) (ch : Nat) : Option Item := s.engine.items.find? (fun it => it.channel == some ch)

/-- The items after the oldest that has no channel was given one. -/
def giveChannel (items : List Item) (ch : Nat) : List Item :=
  match items with
  | [] => []
  | it :: rest => if it.channel.isNone then { it with channel := some ch } :: rest else it :: giveChannel rest ch

/-- The items take a new value. -/
def State.setItems (s : State) (l : List Item) : State := { s with engine := { items := l } }

/-- An idle channel takes the oldest item of the Delivery Queue (R85, R104). -/
def State.startChannel (s : State) (ch : Nat) : State :=
  if s.working && (s.itemOn ch).isNone then s.setItems (giveChannel s.engine.items ch) else s

/-- A channel begins an item (R85). -/
def execDeliveryItemStart (channel : Fin 8) (s : State) : Host.Outcome State Fault Refusal := .next (s.startChannel channel)

/-- The channel's item has ended. -/
def State.endItem (s : State) (ch : Nat) : State := s.setItems (s.engine.items.filter (fun it => it.channel != some ch))

/-! ## Deliveries -/

/-- The source field of a read (R46). -/
def readSource (led : Bool) (done : Nat) : Source := if done = 0 then .none else if led then .disk else .staged

/-- The count of the transfer in cell c. -/
def State.countOf (s : State) (c : Nat) : Nat := ((s.transfer? c).map (fun t => t.count)).getD 0

/-- A read is answered by the end of its delivery (R40, R41, R48). -/
def State.answerDelivery (s : State) (it : Item) (r : DeliveryResult) : State :=
  let count := s.countOf it.cell
  match r with
  | .complete => s.answerWith it.cell .ok 0 count (readSource it.led count)
  | .bufferError sg n => s.answerWith it.cell .bufferFault sg (min n count) (readSource it.led (min n count))

/-- Where a delivery was stopped: the segment of the failing access is the last it had begun, segments being written in list order
(R33, R48). -/
def stoppedAt (r : DeliveryResult) (count : Nat) : Option Stop :=
  match r with
  | .complete => none
  | .bufferError sg n => some { blocks := min n count, segments := sg + 1 }

/-- The deliveries outstanding of slot k fall by 1: a STALE slot that reaches 0 becomes FREE (R87). -/
def State.lowerDeliveries (s : State) (k : Nat) : State :=
  let v := s.slot k
  if v.state = .stale ∧ v.deliveries ≤ 1 then s.freeSlot k else s.setSlot k { v with deliveries := v.deliveries - 1 }

/-- A delivery on a channel ends (R87); in RESTARTING and HALTED without an answer and without an offer (R104). Its bytes are put
into the host buffer at its end, so that of two deliveries to the same bytes those of the later end stand (the model's choice, log
entry 29). -/
def State.deliveryEnd (s : State) (ch : Nat) (r : DeliveryResult) : State :=
  match s.itemOn ch with
  | none => s
  | some it =>
    if it.fetch then s
    else
      let s := (s.deliverBytes it.slot it.cell (stoppedAt r (s.countOf it.cell))).endItem ch
      if s.serving then ((s.answerDelivery it r).lowerDeliveries it.slot).offerSlot it.slot else s.lowerDeliveries it.slot

/-- A read delivery ends (R87). -/
def execDeliveryEnd (channel : Fin 8) (result : DeliveryResult) (s : State) : Host.Outcome State Fault Refusal :=
  .next (s.deliveryEnd channel result)

/-! ## Write fetches -/

/-- The bay of a slot. -/
def Slot.bayOf (v : Slot) : Nat := (v.place.map (fun p => p.bay)).getD 0

/-- The disk write of slot k is sent on the tag its lead holds (R42, R91). -/
def State.sendWrite (s : State) (k : Nat) : State :=
  let v := s.slot k
  match v.place, v.lead with
  | some p, some c =>
    s.send p.bay (.transfer .write (s.tagOf p.bay c) p)
  | _, _ => s

/-- The drain of slot k enters phase DISK with its bytes. -/
def State.toDisk (s : State) (k : Nat) (data : Option Nat) : State :=
  let v := s.slot k
  s.setSlot k { v with phase := some .disk, data := data.map (fun d => cutData d ((v.place.map (fun p => p.count)).getD 0)) }

/-- What follows an event that ended work of bay b: its heads may ask for a spin-up (R68), and the completion test is made
(R135). -/
def State.workEnded (s : State) (b : Nat) : State := ((s.requestSpinUp b).completionTest b).beginRecords

/-- A fetch that served a doomed write ends: no disk write follows (R91, R103). -/
def State.endDoomed (s : State) (k c : Nat) (cause : Cause) : State := (s.reply c .diskFault cause.code).endDrain k c

/-- A write fetch ends while the part serves orders (R91, R48, R101). -/
def State.fetchServed (s : State) (k c : Nat) (r : FetchResult) : State :=
  let v := s.slot k
  match v.fetchFailure, r with
  | some cause, _ => s.endDoomed k c cause
  | none, .complete d => (s.toDisk k (some d)).sendWrite k
  | none, .bufferError sg => ((s.reply c .bufferFault sg).releaseTag v.bayOf c).endDrain k c
  | none, .stagingError =>
    ((((s.reply c .stagingError k).releaseTag v.bayOf c).spoilSlot k).unblock c).offer .stagingError k 0 1

/-- In HALTED the command tag of a write whose drain can send no disk write is released (R73, R76); in RESTARTING it stays. -/
def State.releaseHalted (s : State) (b c : Nat) : State := if s.exchange.part = .halted then s.releaseTag b c else s

/-- A write fetch ends in RESTARTING or HALTED: the phase becomes DISK and nothing is sent; a staging error makes the slot BAD and
is offered (R104, R164). A fetch that failed leaves its command tag to R73. -/
def State.fetchUnserved (s : State) (k c : Nat) (r : FetchResult) : State :=
  match r with
  | .complete d => s.toDisk k (some d)
  | .bufferError _ => (s.toDisk k none).releaseHalted (s.slot k).bayOf c
  | .stagingError => ((s.spoilSlot k).releaseHalted (s.slot k).bayOf c).offer .stagingError k 0 0

/-- A write fetch on a channel ends (R91). -/
def State.fetchEnd (s : State) (ch : Nat) (r : FetchResult) : State :=
  match s.itemOn ch with
  | none => s
  | some it =>
    if it.fetch then
      let b := (s.slot it.slot).bayOf
      if s.serving then ((s.endItem ch).fetchServed it.slot it.cell r).workEnded b
      else (s.endItem ch).fetchUnserved it.slot it.cell r
    else s

/-- A write fetch ends (R91). -/
def execFetchEnd (channel : Fin 8) (result : FetchResult) (s : State) : Host.Outcome State Fault Refusal :=
  .next (s.fetchEnd channel result)

/-! ## Staging errors -/

/-- The whole blocks a delivery had copied when a staging error ended it: what its channel reports, or 0 for one removed from the
queue (R100, R46). -/
def copiedBy (s : State) (copied : List Nat) (it : Item) : Nat :=
  match it.channel with
  | some ch => min (copied.getD ch 0) (s.countOf it.cell)
  | none => 0

/-- What a delivery ended by a staging error left in its host buffer: it may have begun any segment. -/
def State.leaveCopied (s : State) (copied : List Nat) (it : Item) : State :=
  if it.channel.isSome then
    s.deliverBytes it.slot it.cell (some { blocks := copiedBy s copied it, segments := Config.maxSegments })
  else s

/-- A delivery ended by a staging error is answered (R100 step 1). -/
def State.answerSpoiled (s : State) (copied : List Nat) (it : Item) : State :=
  let n := copiedBy s copied it
  s.answerWith it.cell .stagingError it.slot n (readSource it.led n)

/-- An uncorrectable staging error found by a delivery of slot k (R100); in RESTARTING and HALTED no order is answered (R104). -/
def State.spoiled (s : State) (k : Nat) (copied : List Nat) : State :=
  let ended := s.engine.items.filter (fun it => !it.fetch && it.slot == k)
  let s := ended.foldl (fun s it => s.leaveCopied copied it) s
  let s := if s.serving then ended.foldl (fun s it => s.answerSpoiled copied it) s else s
  let s := (s.setItems (s.engine.items.filter (fun it => it.fetch || it.slot != k))).spoilSlot k
  (s.offer .stagingError k 0 (if s.serving then ended.length else 0)).beginRecords

/-- A read delivery on a channel finds an uncorrectable staging error (R100). -/
def State.stagingErrorOn (s : State) (ch : Nat) (copied : List Nat) : State :=
  match s.itemOn ch with
  | none => s
  | some it => if it.fetch then s else s.spoiled it.slot copied

/-- An uncorrectable staging error (R100). -/
def execStagingError (channel : Fin 8) (copied : List Nat) (s : State) : Host.Outcome State Fault Refusal :=
  .next (s.stagingErrorOn channel copied)

end Sys2Proof.Machine
end

