-- ==== Sys2Proof/Machine/DiskEvents.lean ====
section
/-! DEFINITION. The ends of disk commands (R123): reads (R86, R95, R96), writes (R91), media errors (R126, R47, R97), link errors
(R124), timeouts (R125), and the control commands STANDBY (R131, R135), START (R128, R133) and IDENTIFY (R128). -/
namespace Sys2Proof.Machine

/-! ## Matching a report -/

/-- The outstanding command of bay b that a report under a tag with a number names (R123). -/
def State.command (s : State) (b : Nat) (tag : Option (Fin 4)) (number : Nat) : Option Command :=
  (s.bay b).command? (tag.map (fun t => t.val)) number

/-- The outstanding command sent under a tag with a number leaves the list. -/
def State.endCommand (s : State) (b : Nat) (tag : Option (Fin 4)) (number : Nat) : State :=
  s.setBay b ((s.bay b).endCommand (tag.map (fun t => t.val)) number)

/-- A command of the kind is outstanding on bay b under the tag with the number. -/
def State.outstanding (s : State) (b : Nat) (tag : Option (Fin 4)) (number : Nat) (k : CommandKind) : Bool :=
  (s.command b tag number).any (fun c => c.kind == k)

/-- A READ or WRITE ended while the part is RESTARTING or HALTED: its report is discarded, and in HALTED the tag is released
(R143, R76). -/
def State.discardReport (s : State) (b t : Nat) : State := if s.exchange.part = .halted then s.setTag b t none else s

/-- The slot in a state whose lead holds tag t of bay b. -/
def State.slotOf (s : State) (b t : Nat) (st : SlotState) : Option Nat :=
  match s.tagHolder b t with
  | none => none
  | some c => (s.slotsWhere (fun v => v.state == st && v.onBay b && v.lead == some c)).head?

/-! ## Reads -/

/-- The read of a joiner is delivered from the slot that has become RESIDENT (R86 steps 2 and 3). -/
def State.deliverJoiner (s : State) (k c : Nat) : State :=
  let s := s.startItem { cell := c, slot := k, fetch := false, led := false, channel := none }
  match s.transfer? c with
  | some t => s.meterStaged t.group t.count
  | none => s

/-- A fill ends good with neither REFETCH nor the STALE_RETRY mark (R86). -/
def State.fillGood (s : State) (k b t data : Nat) : State :=
  let v := s.slot k
  let count := (v.place.map (fun p => p.count)).getD 0
  let s := (s.setSlot k { Slot.free with state := .resident, place := v.place, deliveries := 1 + v.joiners.length,
                                         data := some (cutData data count) }).touch k
  let s := match v.lead with
    | some c => s.startItem { cell := c, slot := k, fetch := false, led := true, channel := none }
    | none => s
  (v.joiners.foldl (fun s c => s.deliverJoiner k c) s).setTag b t none

/-- A fill ends without data: its orders are answered, the slot is FREE, the tag is released, the slot is offered (R96, R97). -/
def State.fillFails (s : State) (k b t : Nat) (r : Result) (detail : Nat) : State :=
  (((s.replyAll (s.slot k).orders r detail).freeSlot k).setTag b t none).offerSlot k

/-- The data of a fill that is due to refetch is discarded; the fill is reissued when nothing blocks it (R95). -/
def State.fillAgain (s : State) (k : Nat) : State :=
  let v := s.slot k
  let s := s.setSlot k { v with readEnded := true }
  if v.blocking.isEmpty then s.reissue k else s

/-- The disk read of slot k ends with good status (R86, R95, R96). -/
def State.fillEnds (s : State) (k b t data : Nat) : State :=
  let v := s.slot k
  if v.staleRetry then s.fillFails k b t .staleRetry k
  else if v.refetch then s.fillAgain k
  else s.fillGood k b t data

/-- A READ ends with good status (R123). -/
def State.diskReadEnd (s : State) (b : Nat) (tag : Fin 4) (number data : Nat) : State :=
  if s.outstanding b (some tag) number .read then
    let s := s.endCommand b (some tag) number
    if s.serving then
      match s.slotOf b tag .filling with
      | some k => (s.fillEnds k b tag data).workEnded b
      | none => s
    else s.discardReport b tag
  else s

/-- A READ ends with good status (R86). -/
def execDiskReadEnd (bay : Fin 24) (tag : TagSend) (data : Nat) (s : State) : Host.Outcome State Fault Refusal :=
  .next (s.diskReadEnd bay tag.tag tag.number data)

/-! ## Writes -/

/-- The answer of a write whose disk write ended good: OK, or OK_TRUNCATED for a truncated append (R42, R113). -/
def State.answerWrite (s : State) (c : Nat) : State :=
  match s.transfer? c with
  | none => s
  | some t =>
    if t.residue = 0 then s.answerWith c .ok (t.reserved.getD 0) t.count .disk
    else s.answerWith c .okTruncated t.residue t.count .disk

/-- The disk write of slot k ends with good status (R91 phase DISK). -/
def State.drainGood (s : State) (k b t : Nat) : State :=
  let v := s.slot k
  let s := (s.setSlot k { Slot.free with state := .resident, place := v.place, data := v.data }).touch k
  match v.lead with
  | some c => (((s.setTag b t none).answerWrite c).unblock c).offerSlot k
  | none => s.setTag b t none

/-- A WRITE ends with good status (R123). -/
def State.diskWriteEnd (s : State) (b : Nat) (tag : Fin 4) (number : Nat) : State :=
  if s.outstanding b (some tag) number .write then
    let s := s.endCommand b (some tag) number
    if s.serving then
      match s.slotOf b tag .draining with
      | some k => (s.drainGood k b tag).workEnded b
      | none => s
    else s.discardReport b tag
  else s

/-- A WRITE ends with good status (R91). -/
def execDiskWriteEnd (bay : Fin 24) (tag : TagSend) (s : State) : Host.Outcome State Fault Refusal :=
  .next (s.diskWriteEnd bay tag.tag tag.number)

/-! ## Link errors -/

/-- A resend: sent at once if the line allows it, else it waits in the send list (R124); in RESTARTING and HALTED a READ or WRITE
that cannot be sent is dropped (R143). -/
def State.resend (s : State) (b : Nat) (c : Command) : State :=
  if !s.serving && c.kind.isTransfer && !s.readyHigh b then s.releaseEnded b [c]
  else s.send b { c with linkErrors := c.linkErrors + 1 }

/-- The third link error on a command (R124). -/
def State.linkFails (s : State) (b : Nat) (c : Command) : State :=
  match c.kind with
  | .read | .write | .standby => s.bayFault b .linkFailed
  | .start | .identify => s.operationFails b

/-- A send of a command ends in a link error (R124). -/
def State.linkError (s : State) (b : Nat) (tag : Option (Fin 4)) (number : Nat) : State :=
  match s.command b tag number with
  | none => s
  | some c =>
    if c.linkErrors + 1 < Config.linkErrorLimit then (s.endCommand b tag number).resend b c
    else (s.linkFails b c).beginRecords

/-- A command ends in a failure other than a media error (R124). -/
def execLinkError (bay : Fin 24) (tag : AnySend) (s : State) : Host.Outcome State Fault Refusal :=
  .next (s.linkError bay tag.tag tag.number)

/-! ## Media errors -/

/-- The media error count of a bay rises by 1, up to 65535, where it stays and asks for no rewrite of the Bay Summary (R126). -/
def State.countMediaError (s : State) (b : Nat) : State :=
  if (s.bay b).mediaErrors = 65535 then s else s.putBay b { s.bay b with mediaErrors := min 65535 ((s.bay b).mediaErrors + 1) }

/-- The answer of a write that ended with a media error (R47). -/
def State.answerMediaWrite (s : State) (c firstBad : Nat) : State :=
  match s.transfer? c with
  | none => s
  | some t =>
    let done := min (firstBad - t.first) t.count
    s.answerWith c .mediaError firstBad done (if done = 0 then .none else .disk)

/-- A drain ends with a media error (R47, R91). -/
def State.drainFails (s : State) (k b t firstBad : Nat) : State :=
  match (s.slot k).lead with
  | some c => (((s.answerMediaWrite c firstBad).setTag b t none).endDrain k c)
  | none => s

/-- A READ or WRITE under tag t ends with a media error (R47, R97, R126). -/
def State.mediaOn (s : State) (b : Nat) (tag : Fin 4) (number : Nat) (k : CommandKind) (firstBad : Nat) : State :=
  let s := (s.endCommand b (some tag) number).countMediaError b
  match (if k = .read then s.slotOf b tag .filling else s.slotOf b tag .draining) with
  | none => s.beginRecords
  | some j =>
    (if k = .read then s.fillFails j b tag .mediaError firstBad else s.drainFails j b tag firstBad).workEnded b

/-- A command ends with a media error; on a control command it is taken as a link error (R123). -/
def State.mediaError (s : State) (b : Nat) (tag : Option (Fin 4)) (number firstBad : Nat) : State :=
  match s.command b tag number, tag with
  | none, _ => s
  | some c, some t =>
    if c.kind.isTransfer then
      if s.serving then s.mediaOn b t number c.kind firstBad else (s.endCommand b (some t) number).discardReport b t
    else s.linkError b tag number
  | some _, none => s.linkError b tag number

/-- A command ends with a media error (R123). -/
def execMediaError (bay : Fin 24) (tag : AnySend) (firstBad : Word) (s : State) : Host.Outcome State Fault Refusal :=
  .next (s.mediaError bay tag.tag tag.number firstBad.toNat)

/-! ## Timeouts -/

/-- READ, WRITE and STANDBY carry a timeout timer (R125). -/
def CommandKind.timed (k : CommandKind) : Bool := k.waitsForReady

/-- The timer of an outstanding command reaches 8 s (R125). -/
def State.cmdTimeout (s : State) (b : Nat) (tag : Option (Fin 4)) (number : Nat) : State :=
  if (s.command b tag number).any (fun c => c.kind.timed) then (s.bayFault b .cmdTimeout).beginRecords else s

/-- A command times out (R125). -/
def execCmdTimeout (bay : Fin 24) (tag : AnySend) (s : State) : Host.Outcome State Fault Refusal :=
  .next (s.cmdTimeout bay tag.tag tag.number)

/-- The operation timer of an admission or a spin-up reaches 20 s (R129, R133). -/
def execOperationTimeout (bay : Fin 24) (s : State) : Host.Outcome State Fault Refusal :=
  .next (s.operationFails bay).beginRecords

/-! ## Control commands -/

/-- A spin-down ends (R131): SPUN_DOWN, then a pending spin-up, else a pending retirement. -/
def State.spunDown (s : State) (b : Nat) : State :=
  let v := s.bay b
  let s := s.putBay b { v with state := .spunDown }
  if v.spinUpPending then (s.setBay b { s.bay b with spinUpPending := false }).startSpinUp b
  else if v.retirePending then (s.setBay b { s.bay b with retirePending := false }).retireSpunDown b
  else s

/-- STANDBY ends with good status (R131, R135). -/
def State.standbyEnd (s : State) (b number : Nat) : State :=
  if s.outstanding b none number .standby then
    let s := s.endCommand b none number
    match (s.bay b).state with
    | .spinningDown => (s.spunDown b).beginRecords
    | .retiring => (s.retired b).beginRecords
    | _ => s
  else s

/-- STANDBY ends with good status (R131). -/
def execStandbyEnd (bay : ControlSend) (s : State) : Host.Outcome State Fault Refusal :=
  .next (s.standbyEnd bay.bay bay.number)

/-- A spin-up succeeds (R133). Its rule says that the operation timer stops; it stops at 0, the model's choice (log entry 39). -/
def State.spunUp (s : State) (b : Nat) : State :=
  let v := s.bay b
  let w := { v with opTimer := 0, idleTicks := 0, readyLow := 0, retirePending := false }
  if v.retirePending then (s.putBay b { w with state := .retiring }).completionTest b
  else s.putBay b { w with state := .online }

/-- START has ended and the ready line is high: the admission goes on with IDENTIFY (R128), the spin-up succeeds (R133). -/
def State.startDone (s : State) (b : Nat) : State :=
  match (s.bay b).state with
  | .admitting => s.send b (.control .identify)
  | .spinningUp => s.spunUp b
  | _ => s

/-- START ends with good status (R128, R133). -/
def State.startEnd (s : State) (b number : Nat) : State :=
  if s.outstanding b none number .start then
    let s := s.endCommand b none number
    if s.readyHigh b then (s.startDone b).beginRecords else s
  else s

/-- START ends with good status (R133). -/
def execStartEnd (bay : ControlSend) (s : State) : Host.Outcome State Fault Refusal := .next (s.startEnd bay.bay bay.number)

/-- The scheduler's values of a bay after an admission (R75). -/
def State.resetShares (s : State) (b : Nat) : State :=
  allGroups.foldl (fun s g => s.setFifo b g { s.fifo b g with lastFinish := 0 })
    (s.setArbiter b { s.arbiter b with v := 0, h := 0 })

/-- An admission succeeds with a capacity (R128). Its rule says that the operation timer stops; it stops at 0, the model's choice (log
entry 39). -/
def State.admitted (s : State) (b capacity : Nat) : State :=
  let s := s.putBay b { s.bay b with capacity := capacity, mediaErrors := 0, idleTicks := 0, readyLow := 0, opTimer := 0 }
  let s := (s.discardBay b).resetShares b
  (s.putBay b { s.bay b with state := .online }).answerAdmit b .ok capacity

/-- IDENTIFY ends with good status and the disk's size in blocks (R128, R129). -/
def State.identifyEnd (s : State) (b number : Nat) (size : BitVec 64) : State :=
  if s.outstanding b none number .identify && (s.bay b).state == .admitting then
    let s := s.endCommand b none number
    (if size = 0 then s.operationFails b else s.admitted b (min Config.maxBlock size.toNat)).beginRecords
  else s

/-- IDENTIFY ends with good status (R128). -/
def execIdentifyEnd (bay : ControlSend) (size : BitVec 64) (s : State) : Host.Outcome State Fault Refusal :=
  .next (s.identifyEnd bay.bay bay.number size)

end Sys2Proof.Machine
end

