-- ==== Sys2Proof/Machine/LineEvents.lean ====
section
/-! DEFINITION. The two lines of a bay: rise and fall of ready (R122, R136), its loss (R136), rise and fall of presence (R121, R137,
R141). -/
namespace Sys2Proof.Machine

/-- The part watches the lines: from the presence sample on (R144). -/
def State.watchesLines (s : State) : Bool := s.exchange.part != .bringup

/-! ## Ready -/

/-- The ready-low timer of bay b returns to 0 (R136). -/
def State.clearReadyLow (s : State) (b : Nat) : State := s.setBay b { s.bay b with readyLow := 0 }

/-- The ready line of bay b takes a level. -/
def State.setReady (s : State) (b : Nat) (level : Bool) : State := s.setLines b { s.lines b with ready := level }

/-- The send list of bay b is sent in list order and emptied (R122). -/
def State.sendAll (s : State) (b : Nat) : State :=
  (s.bay b).sendList.foldl (fun s c => s.send b c) (s.setBay b { s.bay b with sendList := [] })

/-- An admission or a spin-up whose START has ended awaits the ready line (R128, R133). -/
def Bay.awaitsReady (v : Bay) : Bool :=
  (v.state == .admitting || v.state == .spinningUp) && v.outstanding.isEmpty && v.sendList.isEmpty

/-- The ready line rises (R136). -/
def State.readyRise (s : State) (b : Nat) : State :=
  if s.readyHigh b then s
  else
    let s := s.setReady b true
    if s.watchesLines then
      let waits := (s.bay b).awaitsReady
      let s := (s.clearReadyLow b).sendAll b
      (if waits then s.startDone b else s).beginRecords
    else s

/-- The ready line rises (R136). -/
def execReadyRise (bay : Fin 24) (s : State) : Host.Outcome State Fault Refusal := .next (s.readyRise bay)

/-- The ready line falls: no READ, WRITE or STANDBY is sent, and the timer of a watched line starts from 0 (R136). -/
def State.readyFall (s : State) (b : Nat) : State :=
  if s.readyHigh b then
    let s := s.setReady b false
    if s.watchesLines then s.clearReadyLow b else s
  else s

/-- The ready line falls (R136). -/
def execReadyFall (bay : Fin 24) (s : State) : Host.Outcome State Fault Refusal := .next (s.readyFall bay)

/-- The ready-low timer reaches 2000 ms (R136). -/
def State.readyLost (s : State) (b : Nat) : State :=
  if (s.bay b).watched && !s.readyHigh b then (s.bayFault b .readyLost).beginRecords else s

/-- The ready line is lost (R136). -/
def execReadyLost (bay : Fin 24) (s : State) : Host.Outcome State Fault Refusal := .next (s.readyLost bay)

/-! ## Presence -/

/-- The presence line of bay b takes a level. -/
def State.setPresence (s : State) (b : Nat) (level : Bool) : State := s.setLines b { s.lines b with presence := level }

/-- An EMPTY bay becomes PRESENT (R121). -/
def State.inserted (s : State) (b : Nat) : State :=
  if (s.bay b).state = .empty then s.putBay b { s.bay b with state := .present } else s

/-- The presence line rises (R121, R141). -/
def State.presenceRise (s : State) (b : Nat) : State :=
  if (s.lines b).presence then s
  else
    let s := s.setPresence b true
    if s.watchesLines then ((s.capturePresence b .insert).inserted b).beginRecords else s

/-- The presence line rises (R121). -/
def execPresenceRise (bay : Fin 24) (s : State) : Host.Outcome State Fault Refusal := .next (s.presenceRise bay)

/-- What a removal that is no fault leaves in the bay record (R137). -/
def Bay.emptied (v : Bay) : Bay :=
  { v with
    state := .empty, capacity := 0, spinUpPending := false, retirePending := false, idleTicks := 0, readyLow := 0, opTimer := 0,
    outstanding := [], sendList := [] }

/-- A removal is a bay fault: the bay is not FAULTED, and holds loans or has work (R137), also where the work is a doomed write fetch
that an ADMITTING bay still has from before its last fault (log entry 28). -/
def State.removalFaults (s : State) (b : Nat) : Bool := (s.bay b).state != .faulted && (s.holdsLoans b || s.hasWork b)

/-- A disk is removed from a bay that is not EMPTY (R137). -/
def State.removed (s : State) (b : Nat) : State :=
  if (s.bay b).state = .empty then s
  else if s.removalFaults b then s.bayFault b .removed
  else ((s.putBay b (s.bay b).emptied).answerAdmit b .diskUnavailable BayState.empty.code).discardBay b

/-- The presence line falls (R137, R141). -/
def State.presenceFall (s : State) (b : Nat) : State :=
  if (s.lines b).presence then
    let s := s.setPresence b false
    if s.watchesLines then ((s.capturePresence b .remove).removed b).beginRecords else s
  else s

/-- The presence line falls (R137). -/
def execRemoval (bay : Fin 24) (s : State) : Host.Outcome State Fault Refusal := .next (s.presenceFall bay)

end Sys2Proof.Machine
end

