-- ==== Sys2Proof/Machine/LoanOrders.lean ====
section
/-! DEFINITION. The four loan orders: LOAN_OPEN (R4 to R7), LOAN_RENEW (R17), LOAN_RETURN (R19 to R23), LOAN_QUERY (R29). -/
namespace Sys2Proof.Machine

/-- An order of kind k in cell c, handed to its owner, leaves 'awaiting validation' and is acted on; where no such order is
handed over the command has no effect (R177, log entry 13). -/
def State.handling (s : State) (k : OrderKind) (c : Nat) (act : State → Copy → State) : Host.Outcome State Fault Refusal :=
  match s.handed k c with
  | some o => .next (act (s.validated c) o.copy).beginRecords
  | none => .next s

/-! ## LOAN_OPEN -/

/-- Steps 1 and 2 of R5. -/
def Copy.openFormatOk (c : Copy) : Bool :=
  1 ≤ c.node && c.node ≤ 250 && c.group < Config.numGroups && c.bay < Config.numBays && c.loanMode.isSome && c.count != 0
    && (c.loanMode != some .append || (1 ≤ c.frameBlocks && c.frameBlocks ≤ 256))

/-- A bay in an accepting state (R5 step 3). -/
def BayState.accepts (b : BayState) : Bool :=
  match b with
  | .online | .spunDown | .spinningDown | .spinningUp => true
  | .empty | .present | .admitting | .retiring | .faulted => false

/-- The checks of R5: the result and detail of the first that fails, or the entry to assign. -/
def State.openCheck (s : State) (c : Copy) : Except (Result × Nat) Nat :=
  let v := s.bay c.bay
  if !c.openFormatOk then .error (.format, 0)
  else if v.state = .faulted then .error (.diskFault, 0)
  else if !v.state.accepts then .error (.diskUnavailable, v.state.code)
  else if v.capacity < c.first + c.count then .error (.range, 0)
  else match s.freeEntry with
    | none => .error (.tableFull, 0)
    | some n => .ok n

/-- The append record of a new loan (R106). -/
def AppendRecord.created (frameBlocks : Nat) : AppendRecord :=
  { frameBlocks := frameBlocks, framesDone := 0, blocksIntoFrame := 0, reserved := 0, broken := false, breakPoint := none,
    reservations := [] }

/-- The entry that a LOAN_OPEN fills, once HELD (R6). -/
def Copy.newLoan (c : Copy) : Loan :=
  { state := .held, node := c.node, group := c.group, bay := c.bay, first := c.first, count := c.count,
    mode := c.loanMode.getD .readShared, term := c.term, wait := 0, openingCell := none, returnCell := none, inFlight := 0,
    faultCause := .none,
    append := if c.loanMode = some .append then some (.created c.frameBlocks) else none }

/-- The loans a new loan conflicts with, in the conflict set and on the waiting list together (R6). -/
def State.inTheWay (s : State) (l : Loan) : List Nat :=
  s.rivals l ++ (s.waiting l.bay).filter (fun m => conflicts (s.loan m) l)

/-- The least number of a list. -/
def least (ns : List Nat) : Nat := (ns.min?).getD 0

/-- A LOAN_OPEN is answered, granted or made to wait (R5, R6, R7). -/
def State.openLoan (s : State) (cell : Nat) (c : Copy) : State :=
  match s.openCheck c with
  | .error (r, d) => s.reply cell r d
  | .ok n =>
    let l := c.newLoan
    match s.inTheWay l with
    | [] => (s.setLoan n l).reply cell .ok n
    | m :: ms =>
      if c.waitLimit = 0 then s.reply cell .conflict (least (m :: ms))
      else
        ((s.setLoan n { l with state := .waiting, wait := c.waitLimit, openingCell := some cell }).setWaiting l.bay
          (s.waiting l.bay ++ [n])).putAnswer (.interim cell n)

/-- A LOAN_OPEN is handled (R6). -/
def execLoanOpen (cell : Fin 1024) (s : State) : Host.Outcome State Fault Refusal :=
  s.handling .loanOpen cell (fun s c => s.openLoan cell c)

/-! ## LOAN_RENEW -/

/-- A LOAN_RENEW is answered by the loan's entry (R17). The detail of its DISK_FAULT is the term remaining, as R17 gives it, and not the
cause code of R120 (log entry 35). -/
def State.renewLoan (s : State) (cell : Nat) (c : Copy) : State :=
  match s.loanOf c.loan c.node with
  | none => s.reply cell .noLoan c.loan
  | some l =>
    match l.state with
    | .held => (s.setLoan c.loan { l with term := c.term }).reply cell .ok c.term
    | .lapsing | .lapsed => s.reply cell .tooLate l.term
    | .faulted => s.reply cell .diskFault l.term
    | .waiting | .returning | .free => s.reply cell .noLoan c.loan

/-- A LOAN_RENEW is handled (R17). -/
def execLoanRenew (cell : Fin 1024) (s : State) : Host.Outcome State Fault Refusal :=
  s.handling .loanRenew cell (fun s c => s.renewLoan cell c)

/-! ## LOAN_RETURN -/

/-- The return cell takes the RETURN, which is held (R20, R22, R23). -/
def State.holdReturn (s : State) (n cell : Nat) (st : LoanState) : State :=
  s.setLoan n { s.loan n with state := st, returnCell := some cell }

/-- A LOAN_RETURN acts by the loan's state (R19 to R23). -/
def State.returnLoan (s : State) (cell : Nat) (c : Copy) : State :=
  let n := c.loan
  match s.loanOf n c.node with
  | none => s.reply cell .noLoan n
  | some l =>
    if l.returnCell.isSome then s.reply cell .noLoan n
    else match l.state, l.inFlight with
      | .held, 0 => (((s.freeLoan n).reply cell .ok n).examine l.bay).completionTest l.bay
      | .held, _ => s.holdReturn n cell .returning
      | .waiting, _ =>
        ((((s.freeLoan n).replyOpt l.openingCell .cancelled n).reply cell .ok n).examine l.bay).completionTest l.bay
      | .lapsed, _ => ((s.freeLoan n).reply cell .ok n).completionTest l.bay
      | .lapsing, _ => s.holdReturn n cell .lapsing
      | .faulted, 0 => ((s.freeLoan n).reply cell .ok n).completionTest l.bay
      | .faulted, _ => s.holdReturn n cell .faulted
      | .returning, _ => s.reply cell .noLoan n
      | .free, _ => s.reply cell .noLoan n

/-- A LOAN_RETURN is handled (R19). -/
def execLoanReturn (cell : Fin 1024) (s : State) : Host.Outcome State Fault Refusal :=
  s.handling .loanReturn cell (fun s c => s.returnLoan cell c)

/-! ## LOAN_QUERY -/

/-- A LOAN_QUERY is answered with a snapshot of the entry, whatever node asks (R29). R201 answers NO_LOAN to an order that names a loan
not granted to its node; the model follows R29, which is the rule of this kind (log entry 34). -/
def State.queryLoan (s : State) (cell : Nat) (c : Copy) : State :=
  let n := c.loan
  let known := n < Config.numLoans && (s.loan n).state != .free
  s.putAnswer (.answer
    { cell := cell, result := if known then .ok else .noLoan, detail := n, blocksDone := 0, source := .none,
      snapshot := some (if known then (s.loan n).snapshot else noSnapshot) })

/-- A LOAN_QUERY is handled (R29). -/
def execLoanQuery (cell : Fin 1024) (s : State) : Host.Outcome State Fault Refusal :=
  s.handling .loanQuery cell (fun s c => s.queryLoan cell c)

end Sys2Proof.Machine
end

