-- ==== Sys2Proof/Machine/PartEvents.lean ====
section
/-! DEFINITION. Resets and the link: POWER_ON and BRINGUP_END (R184), LINK_RESET (R187), LINK_UP (R181), RESTART_EFFECTS (R188). -/
namespace Sys2Proof.Machine

/-- Power-on puts every block at its power-on values; the lines are inputs and host memory is outside, so both stay (R184). -/
def State.powerOn (s : State) : State :=
  { State.reset with bays := { records := [], lines := s.bays.lines }, hostMem := s.hostMem, pending := s.pending }

/-- Power-on (R184). -/
def execPowerOn (s : State) : Host.Outcome State Fault Refusal := .next s.powerOn

/-- The slot records after the bring-up test: those found bad are BAD, every other is FREE (R102). -/
def testedSlots (badSlots : BitVec 256) : Table Slot :=
  ((List.range Config.numSlots).filter badSlots.getLsbD).map (fun k => (k, { Slot.free with state := .bad }))

/-- The presence line of bay b is sampled (R144). -/
def State.samplePresence (s : State) (b : Nat) : State :=
  if (s.lines b).presence then s.putBay b { s.bay b with state := .present } else s

/-- The end of BRINGUP: the staging test's result, then the presence sample, then STOPPED (R184). -/
def State.bringupEnd (s : State) (badSlots : BitVec 256) : State :=
  if s.exchange.part = .bringup then
    ((overBays { s with staging := { s.staging with slots := testedSlots badSlots } }
      (fun s b => s.samplePresence b)).setPart .stopped).beginRecords
  else s

/-- BRINGUP ends (R184). -/
def execBringupEnd (badSlots : BitVec 256) (s : State) : Host.Outcome State Fault Refusal := .next (s.bringupEnd badSlots)

/-- A link reset: the window becomes unreachable, the interrupt is deasserted as the host sees it, a restart is requested
(R181, R187, R194). -/
def State.linkReset (s : State) : State :=
  ({ s with link := { s.link with up := false }, notices := { s.notices with interrupt := false } }).requestRestart .linkReset

/-- A PCI Express link reset (R187). -/
def execLinkReset (s : State) : Host.Outcome State Fault Refusal := .next s.linkReset

/-- The link is up again (R181). The interrupt that the reset deasserted stays so until its condition becomes true anew (the
model's choice, log entry 31). -/
def execLinkUp (s : State) : Host.Outcome State Fault Refusal := .next { s with link := { s.link with up := true } }

/-- The last condition for the end of RESTARTING holds, and the restart effects are applied (R187, R188). -/
def execRestartEffects (s : State) : Host.Outcome State Fault Refusal :=
  .next (if s.mayEndRestart then s.restartEffects else s)

end Sys2Proof.Machine
end

