-- ==== Sys2Proof/Machine/PolicyOrders.lean ====
section
/-! DEFINITION. The nine policy orders: GROUP_SET (R54, R55), DISK_SET (R61), CLOCK_SET (R148, R149), BAY_ADMIT (R127, R128),
BAY_RETIRE (R134), BAY_WATCH (R140), SLOT_FLUSH (R99), HOLD_SET (R167), FAULT_CLEAR (R168). -/
namespace Sys2Proof.Machine

/-- A policy order whose format checks are given: FORMAT at the first that fails, else acted on. Step 2, node is 0, is common to
all. -/
def State.policy (s : State) (cell : Nat) (c : Copy) (checks : List (Nat × Bool)) (act : State → State) : State :=
  match firstFailure ((2, c.node == 0) :: checks) with
  | some d => s.reply cell .format d
  | none => act s

/-! ## GROUP_SET -/

/-- A group's weight and pending cap are set; a head left untagged by the closed group is tagged on each bay (R54, R55). -/
def State.setShare (s : State) (g weight cap : Nat) : State :=
  let s := s.setGroup g { s.group g with weight := weight, pendingCap := some cap }
  (allBays.foldl (fun s b => s.tagHead b g) s).requestSpinUps

/-- A GROUP_SET is handled (R54). -/
def execGroupSet (cell : Fin 1024) (s : State) : Host.Outcome State Fault Refusal :=
  s.handling .groupSet cell (fun s c =>
    s.policy cell c [(3, c.group < Config.numGroups)] (fun s => (s.setShare c.group c.weight c.cap).reply cell .ok 0))

/-! ## DISK_SET -/

/-- A bay's cost parameters and SPIN_IDLE are stored with their clamps (R60, R61, R130). -/
def State.setDisk (s : State) (c : Copy) : State :=
  let s := s.setArbiter c.bay { s.arbiter c.bay with
    seekMin := c.seekMin, seekShift := c.seekShift, seekMax := c.seekMax, rate := c.rate }
  s.setBay c.bay { s.bay c.bay with spinIdle := c.spinIdle }

/-- A DISK_SET is handled (R61). -/
def execDiskSet (cell : Fin 1024) (s : State) : Host.Outcome State Fault Refusal :=
  s.handling .diskSet cell (fun s c =>
    s.policy cell c [(3, c.bay < Config.numBays), (4, c.seekShift ≤ 31)] (fun s => (s.setDisk c).reply cell .ok 0))

/-! ## CLOCK_SET -/

/-- The Loan Clock takes new settings and starts its interval again (R149). -/
def LoanClock.install (k : LoanClock) (prescaleCode period meterTicks : Nat) : LoanClock :=
  { k with prescaleCode := prescaleCode, period := period, meterTicks := meterTicks, prescaler := 0, periodCounter := 0 }

/-- A CLOCK_SET that passes (R148, R149). -/
def State.setClock (s : State) (cell : Nat) (c : Copy) : State :=
  let k := s.clock.install c.prescaleCode c.period c.meterTicks
  { s with clock := k }.reply cell .ok k.interval

/-- A CLOCK_SET is handled (R148). -/
def execClockSet (cell : Fin 1024) (s : State) : Host.Outcome State Fault Refusal :=
  s.handling .clockSet cell (fun s c => s.policy cell c [(3, c.prescaleCode ≤ 3)] (fun s => s.setClock cell c))

/-! ## BAY_ADMIT -/

/-- An admission begins: the operation timer starts, the capacity becomes 0, START is sent (R128 step 1). -/
def State.beginAdmission (s : State) (b cell : Nat) : State :=
  (s.putBay b { s.bay b with state := .admitting, opTimer := 0, capacity := 0, admitCell := some cell }).send b (.control .start)

/-- A BAY_ADMIT that passes its format check (R127). -/
def State.admitBay (s : State) (cell b : Nat) : State :=
  match (s.bay b).state with
  | .present | .faulted => s.beginAdmission b cell
  | st => s.reply cell .wrongState st.code

/-- A BAY_ADMIT is handled (R127). -/
def execBayAdmit (cell : Fin 1024) (s : State) : Host.Outcome State Fault Refusal :=
  s.handling .bayAdmit cell (fun s c => s.policy cell c [(3, c.bay < Config.numBays)] (fun s => s.admitBay cell c.bay))

/-! ## BAY_RETIRE -/

/-- What a BAY_RETIRE does by the bay's state, or nothing where it is refused WRONG_STATE (R134). -/
def State.retireBay (s : State) (b : Nat) : Option State :=
  let v := s.bay b
  match v.state with
  | .online => some ((s.putBay b { v with state := .retiring, idleTicks := 0, readyLow := 0 }).completionTest b)
  | .spunDown => some (s.retireSpunDown b)
  | .spinningDown | .spinningUp => some (s.setBay b { v with retirePending := true })
  | .empty | .present | .admitting | .retiring | .faulted => none

/-- A BAY_RETIRE that passes its format check is answered with the bay's state code after it (R134). -/
def State.answerRetire (s : State) (cell b : Nat) : State :=
  match s.retireBay b with
  | some t => t.reply cell .ok (t.bay b).state.code
  | none => s.reply cell .wrongState (s.bay b).state.code

/-- A BAY_RETIRE is handled (R134). -/
def execBayRetire (cell : Fin 1024) (s : State) : Host.Outcome State Fault Refusal :=
  s.handling .bayRetire cell (fun s c => s.policy cell c [(3, c.bay < Config.numBays)] (fun s => s.answerRetire cell c.bay))

/-! ## BAY_WATCH -/

/-- The capture fields of a bay after a BAY_WATCH (R140). -/
def Bay.watch (v : Bay) (enable : Bool) (edge : EdgeSelect) (notice : Bool) : Bay :=
  if enable then { v with captureEnable := true, edgeSelect := edge, noticeOn := notice }
  else { v with captureEnable := false, captured := false }

/-- The bays of a mask. -/
def baysIn (mask : Nat) : List Nat := allBays.filter (fun b => mask.testBit b)

/-- One bay of a BAY_WATCH; a Bay Summary rewrite is requested when a capture field changed (R140). -/
def State.watchBay (s : State) (c : Copy) (b : Nat) : State :=
  let v := (s.bay b).watch (c.watchEnable.getD false) (c.edgeSelect.getD .both) c.noticeOn
  if v = s.bay b then s else s.putBay b v

/-- A BAY_WATCH that passes its format check (R140). -/
def State.watchBays (s : State) (cell : Nat) (c : Copy) : State :=
  ((baysIn c.bayMask).foldl (fun s b => s.watchBay c b) s).reply cell .ok (baysIn c.bayMask).length

/-- A BAY_WATCH is handled (R140). -/
def execBayWatch (cell : Fin 1024) (s : State) : Host.Outcome State Fault Refusal :=
  s.handling .bayWatch cell (fun s c =>
    s.policy cell c
      [(3, c.watchEnable.isSome), (4, c.bayMask < 16777216), (5, c.watchEnable != some true || c.edgeSelect.isSome)]
      (fun s => s.watchBays cell c))

/-! ## SLOT_FLUSH -/

/-- The slots that a SLOT_FLUSH changes (R99). -/
def State.flushed (s : State) (b first count : Nat) : List Nat :=
  s.slotsWhere (fun v => v.state == .resident && v.overlapsOn b first count)

/-- A SLOT_FLUSH that passes its format check (R99). -/
def State.flush (s : State) (cell b first count : Nat) : State :=
  (s.discardResident (s.flushed b first count)).reply cell .ok (s.flushed b first count).length

/-- A SLOT_FLUSH is handled (R99). -/
def execSlotFlush (cell : Fin 1024) (s : State) : Host.Outcome State Fault Refusal :=
  s.handling .slotFlush cell (fun s c =>
    s.policy cell c [(3, c.bay < Config.numBays), (4, c.count != 0), (5, c.first + c.count ≤ 4294967296)]
      (fun s => s.flush cell c.bay c.first c.count))

/-! ## HOLD_SET and FAULT_CLEAR -/

/-- A HOLD_SET that passes its format check (R167). The Share Scheduler is told of one that changes the mask or is taken while TRIGGERED
is set (R165). -/
def State.setHold (s : State) (cell : Nat) (mask : BitVec 16) (rearm : Bool) : State :=
  let t := { s with capture := { s.capture with holdMask := mask, autoRearm := rearm } }
  (if s.capture.triggered || mask != s.capture.holdMask then t.requestSpinUps else t).reply cell .ok (flagNat s.capture.triggered)

/-- A HOLD_SET is handled (R167). -/
def execHoldSet (cell : Fin 1024) (s : State) : Host.Outcome State Fault Refusal :=
  s.handling .holdSet cell (fun s c => s.policy cell c [] (fun s => s.setHold cell c.holdMask c.autoRearm))

/-- A FAULT_CLEAR that passes its format check (R168). -/
def State.clearFault (s : State) (cell : Nat) : State :=
  let n := s.capture.suppressed
  if s.capture.triggered && s.capture.record.isSome then s.reply cell .wrongState n
  else if s.capture.triggered then
    ({ s with capture := { s.capture with triggered := false } }.requestSpinUps).reply cell .ok n
  else s.reply cell .ok n

/-- A FAULT_CLEAR is handled (R168). -/
def execFaultClear (cell : Fin 1024) (s : State) : Host.Outcome State Fault Refusal :=
  s.handling .faultClear cell (fun s c => s.policy cell c [] (fun s => s.clearFault cell))

end Sys2Proof.Machine
end

