-- ==== Sys2Proof/Machine/Registers.lean ====
section
/-! DEFINITION. The commands that are register accesses of the host (R170, R173, R179 to R182, R193). Six of them are writes of
CONTROL and carry the word written. -/
namespace Sys2Proof.Machine

/-- CONTROL written with RUN 1 (R182, R184, R185). -/
def execRun (w : Word) (s : State) : Host.Outcome State Fault Refusal := .next (s.writeControl w)

/-- CONTROL written with RUN 0 (R182, R185). -/
def execRunStop (w : Word) (s : State) : Host.Outcome State Fault Refusal := .next (s.writeControl w)

/-- CONTROL written with another INTAKE_MODE (R182, R175). -/
def execIntakeMode (w : Word) (s : State) : Host.Outcome State Fault Refusal := .next (s.writeControl w)

/-- CONTROL written with another ANSWER_MODE (R182, R192). -/
def execAnswerMode (w : Word) (s : State) : Host.Outcome State Fault Refusal := .next (s.writeControl w)

/-- CONTROL written with another SWEEP_MS (R182, R175). -/
def execSweepMs (w : Word) (s : State) : Host.Outcome State Fault Refusal := .next (s.writeControl w)

/-- CONTROL written with RESTART 1 (R182, R187). -/
def execRestart (w : Word) (s : State) : Host.Outcome State Fault Refusal := .next (s.writeControl w)

/-- The base after a write of one of its words; the low 12 bits of the address are taken as 0 (R170). -/
def baseWith (base : BitVec 64) (high : Bool) (w : Word) : BitVec 64 :=
  if high then w ++ base.extractLsb' 0 32 else base.extractLsb' 32 32 ++ (w &&& 0xFFFFF000#32)

/-- A base word stored in STOPPED; it may start the part, and held record requests may begin (R170, R184). -/
def State.writeBase (s : State) (high : Bool) (w : Word) : State :=
  if s.writable && s.exchange.part == .stopped then
    { s with exchange := { s.exchange with base := baseWith s.exchange.base high w } }.tryStart.beginRecords
  else s

/-- EXCHANGE_BASE, low or high word, written (R170). -/
def execExchangeBase (high : Bool) (w : Word) (s : State) : Host.Outcome State Fault Refusal := .next (s.writeBase high w)

/-- A write of POST (R173). -/
def State.writePost (s : State) (w : Word) : State :=
  if s.link.up && s.serving && s.exchange.control.intake != .swept then
    if s.exchange.postFifo.length < Config.postFifoDepth then
      { s with exchange := { s.exchange with postFifo := s.exchange.postFifo ++ [w.toNat % 65536] } }
    else s.noticeOverflow
  else s

/-- POST written (R173). -/
def execPost (w : Word) (s : State) : Host.Outcome State Fault Refusal := .next (s.writePost w)

/-- What a register read returned. -/
def State.returned (s : State) (w : Option Word) : State := { s with link := { s.link with lastRead := w } }

/-- The word that an empty queue gives (R179, R180). -/
abbrev emptyRead : Word := 0xFFFF#32

/-- A read of ANSWER (R179). -/
def State.readAnswer (s : State) : State :=
  if !s.link.up then s.returned none
  else if s.pops then
    match s.exchange.answerQueue with
    | [] => s.returned (some emptyRead)
    | c :: rest => (s.shrinkAnswers rest).returned (some (BitVec.ofNat 32 c))
  else s.returned (some emptyRead)

/-- ANSWER read (R179). -/
def execAnswer (s : State) : Host.Outcome State Fault Refusal := .next s.readAnswer

/-- A read of LAPSE (R180). -/
def State.readLapse (s : State) : State :=
  if !s.link.up then s.returned none
  else if s.pops then
    match s.exchange.lapseQueue with
    | [] => s.returned (some emptyRead)
    | n :: rest => (s.setLapseQueue rest).returned (some (BitVec.ofNat 32 n))
  else s.returned (some emptyRead)

/-- LAPSE read (R180). -/
def execLapse (s : State) : Host.Outcome State Fault Refusal := .next s.readLapse

/-- A write of NOTICE (R193). -/
def State.writeNotice (s : State) (w : Word) : State :=
  if s.writable then s.setFlags (s.notices.flags.clearedBy (.ofWord w) s.exchange.control.answerMode) else s

/-- NOTICE written (R193). -/
def execNotice (w : Word) (s : State) : Host.Outcome State Fault Refusal := .next (s.writeNotice w)

/-- A write of NOTICE_ENABLE (R193, R194). -/
def State.writeEnable (s : State) (w : Word) : State :=
  if s.writable then { s with notices := s.notices.renew s.notices.flags (.ofWord w) } else s

/-- NOTICE_ENABLE written (R193). -/
def execNoticeEnable (w : Word) (s : State) : Host.Outcome State Fault Refusal := .next (s.writeEnable w)

/-- A write that is ignored: STATUS, ANSWER, LAPSE, an unassigned word, or any register during BRINGUP (R181). -/
def execRegisterWriteIgnored (_offset : BitVec 12) (_w : Word) (s : State) : Host.Outcome State Fault Refusal := .next s

end Sys2Proof.Machine
end

