-- ==== Sys2Proof/Machine/ShareDispatch.lean ====
section
/-! DEFINITION. The dispatch arbiter of a bay: its choice, and a dispatch step by step (R70 to R72, R88, R90). -/
namespace Sys2Proof.Machine

/-- A slot reserved for bay b, if one is held for its choice (R90). -/
def State.reservedSlots (s : State) (b : Nat) : List Nat := s.slotsWhere (fun v => v.reservedFor == some b)

/-- A reserved slot is returned: it stays FREE, and is offered to the next bay waiting (R72, R90). -/
def State.returnSlot (s : State) (k : Nat) : State := (s.setSlot k { s.slot k with reservedFor := none }).offerSlot k

/-- No head of bay b is eligible: what slot it was offered is returned (R72). -/
def State.returnSlots (s : State) (b : Nat) : State := (s.reservedSlots b).foldl (fun s k => s.returnSlot k) s

/-- The bay goes on the Slot Wait list (R72, R88 step 4). -/
def State.waitForSlot (s : State) (b : Nat) : State :=
  { s with staging := { s.staging with slotWait := s.staging.slotWait ++ [b] } }

/-- Steps 1 and 2 of R71: the order in cell c holds tag t and slot k (R88). -/
def State.giveBoth (s : State) (c tag k : Nat) (x : Transfer) : State := (s.setTag x.bay tag (some c)).giveSlot k c x

/-- Steps 3 to 6 of R71: the order leaves its FIFO, V and H move, the tags are rebased if they must be, the blocks are metered,
the cap is applied, and the next order becomes head. -/
def State.leaveFifo (s : State) (g : Nat) (x : Transfer) (start : Nat) : State :=
  let s := s.setOrders x.bay g ((s.fifo x.bay g).orders.drop 1)
  let s := (s.setArbiter x.bay ((s.arbiter x.bay).advance start x.first x.count)).rebase x.bay
  ((s.meterDisk g x.kind.isRead x.count).applyCap g).becomeHead x.bay g

/-- Step 7 of R71: the disk read is sent; a write makes its snoop, and its fetch is started directly after (R91, R92). R88 has the snoop
follow at once; it does so within the dispatch, which is one act (log entry 10). -/
def State.beginWork (s : State) (c k : Nat) (x : Transfer) : State :=
  if x.kind.isRead then s.sendRead k
  else (s.snoop k c x.bay x.first x.count).startItem { cell := c, slot := k, fetch := true, led := false, channel := none }

/-- The dispatch of the head in cell c of group g (R71). -/
def State.dispatchHead (s : State) (g c : Nat) (tags : Tags) (x : Transfer) : State :=
  match s.freeTag x.bay with
  | none => s
  | some t =>
    match s.allocate x.bay with
    | none => s.waitForSlot x.bay
    | some k => ((s.giveBoth c t k x).leaveFifo g x tags.start).beginWork c k x

/-- The arbiter of bay b makes a choice (R70). -/
def State.dispatch (s : State) (b : Nat) : State :=
  if s.working && !s.staging.slotWait.contains b then
    match s.choice b with
    | none => s.returnSlots b
    | some (g, c, tags) =>
      match s.transfer? c with
      | none => s
      | some x => s.dispatchHead g c tags x
  else s

/-- A dispatch (R71). -/
def execDispatch (bay : Fin 24) (s : State) : Host.Outcome State Fault Refusal := .next (s.dispatch bay).beginRecords

end Sys2Proof.Machine
end

