-- ==== Sys2Proof/Machine/TickEvents.lean ====
section
/-! DEFINITION. The tick (R146, R147) and the four things it may bring about: expiry (R10), lapse (R14), spin-down (R131), the end of
a meter period (R154). Each of the last four commands is the tick at which that thing happens (log entry 8). -/
namespace Sys2Proof.Machine

/-! ## The Bay Controller's tick -/

/-- The idle ticks of a bay after a tick taken (R130). -/
def State.idleAfter (s : State) (b : Nat) : Nat :=
  if (s.bay b).state = .online ∧ s.hasWork b = false then min 65535 ((s.bay b).idleTicks + 1) else 0

/-- Bay b spins down at the tick now taken (R131). -/
def State.spinsDown (s : State) (b : Nat) : Bool :=
  (s.bay b).state == .online && 1 ≤ (s.bay b).spinIdle && (s.bay b).spinIdle ≤ s.idleAfter b && !s.hasWork b && s.readyHigh b

/-- The Bay Controller's handling of a tick for bay b (R130, R131). -/
def State.idleTick (s : State) (b : Nat) : State :=
  if s.spinsDown b then (s.putBay b { s.bay b with state := .spinningDown, idleTicks := 0, readyLow := 0 }).send b (.control .standby)
  else s.setBay b { s.bay b with idleTicks := s.idleAfter b }

/-! ## Meter periods -/

/-- A group record at a period end: the pending cap comes into force and the cap-reached flag is cleared (R56). -/
def Group.periodEnd (g : Group) : Group := { g with cap := g.pendingCap.getD g.cap, pendingCap := none, capReached := false }

/-- The end of a meter period (R154). -/
def State.periodEnd (s : State) : State :=
  let s := allGroups.foldl (fun s g => (s.setMeter g (s.meter g).latch).setGroup g (s.group g).periodEnd) s
  ({ s with meters := { s.meters with
      noGroup := s.meters.noGroup.latch, periodSeq := s.meters.periodSeq + 1,
      endStamp := s.clock.tickCount } }.requestSpinUps).requestMeter

/-- The next tick taken ends the meter period (R147). -/
def State.periodEndsNext (s : State) : Bool := s.clock.meterTicks ≤ s.clock.meterTickCount + 1

/-- The meter tick count takes a tick (R147). -/
def State.meterTick (s : State) : State :=
  if s.periodEndsNext then { s with clock := { s.clock with meterTickCount := 0 } }.periodEnd
  else { s with clock := { s.clock with meterTickCount := s.clock.meterTickCount + 1 } }

/-! ## The tick -/

/-- The Loan Clock produces a tick: both counters return to 0 and the tick count rises by 1 (R146). -/
def LoanClock.produce (k : LoanClock) : LoanClock := { k with prescaler := 0, periodCounter := 0, tickCount := k.tickCount + 1 }

/-- What a tick that is taken does (R147). -/
def State.takeTick (s : State) : State := ((allBays.foldl (fun s b => s.idleTick b) s.loanTick).meterTick).beginRecords

/-- A tick (R146, R147). -/
def State.tick (s : State) : State :=
  let s := { s with clock := s.clock.produce }
  if s.serving then s.takeTick else s

/-- The Loan Clock produces a tick (R147). -/
def execTick (s : State) : Host.Outcome State Fault Refusal := .next s.tick

/-- The tick at which the wait of a waiting loan reaches 0 (R10). -/
def execWaitExpired (loan : Fin 512) (s : State) : Host.Outcome State Fault Refusal :=
  .next (if s.serving && (s.loan loan).expiresNext then s.tick else s)

/-- The tick at which the term of a HELD loan reaches 0 (R14). -/
def execTermLapse (loan : Fin 512) (s : State) : Host.Outcome State Fault Refusal :=
  .next (if s.serving && s.lapsesNext (s.loan loan) then s.tick else s)

/-- The tick at which an idle bay reaches its SPIN_IDLE (R131). -/
def execSpinDown (bay : Fin 24) (s : State) : Host.Outcome State Fault Refusal :=
  .next (if s.serving && s.loanTick.spinsDown bay then s.tick else s)

/-- The tick at which the meter tick count reaches METER_TICKS (R154). -/
def execMeterPeriodEnd (s : State) : Host.Outcome State Fault Refusal :=
  .next (if s.serving && s.periodEndsNext then s.tick else s)

end Sys2Proof.Machine
end

