-- ==== Sys2Proof/Machine/TransferOrders.lean ====
section
/-! DEFINITION. The five transfer orders: READ and WRITE (R34, R35, R39), SERVICE_READ and SERVICE_WRITE (R36), APPEND_WRITE (R108,
R109). -/
namespace Sys2Proof.Machine

/-- A transfer that passed its checks goes on its path: a read may join a staged slot, else the order is queued in the FIFO of its
group on its bay (R39). -/
def State.path (s : State) (cell : Nat) (t : Transfer) : State :=
  match (if t.kind.isRead then s.candidate t.bay t.first t.count else none) with
  | some k => s.joinSlot k cell t
  | none => s.enqueue t.bay t.group cell

/-- A transfer order that is taken up: its held order makes transfer t (R38). -/
def State.takeUp (s : State) (cell : Nat) (t : Transfer) : State := (s.setTransfer cell t).path cell t

/-- The loan's in-flight count rises by 1 (R24, R25). -/
def State.raiseInFlight (s : State) (n : Nat) : State := s.setLoan n { s.loan n with inFlight := (s.loan n).inFlight + 1 }

/-- A READ or WRITE under a loan (R34, R35, R39). -/
def State.loanTransfer (s : State) (k : OrderKind) (cell : Nat) (c : Copy) : State :=
  match c.transferFailure k with
  | some d => s.reply cell .format d
  | none =>
    match s.loanCheck k c with
    | .error (r, d) => s.reply cell r d
    | .ok l =>
      (s.raiseInFlight c.loan).takeUp cell
        { kind := k, group := l.group, bay := l.bay, first := c.first, count := c.count, loan := some c.loan,
          reserved := none, residue := 0 }

/-- A READ is handled (R39). -/
def execRead (cell : Fin 1024) (s : State) : Host.Outcome State Fault Refusal :=
  s.handling .read cell (fun s c => s.loanTransfer .read cell c)

/-- A WRITE is handled (R39). -/
def execWrite (cell : Fin 1024) (s : State) : Host.Outcome State Fault Refusal :=
  s.handling .write cell (fun s c => s.loanTransfer .write cell c)

/-- The bay check of a service transfer (R36): the result and detail of the first condition that applies. -/
def State.bayCheck (s : State) (c : Copy) : Option (Result × Nat) :=
  let v := s.bay c.bay
  if v.state = .faulted then some (.diskFault, v.lastFault.code)
  else if !v.state.accepts then some (.diskUnavailable, v.state.code)
  else if v.capacity < c.first + c.count then some (.range, v.capacity)
  else none

/-- A SERVICE_READ or SERVICE_WRITE (R34, R36, R39). -/
def State.serviceTransfer (s : State) (k : OrderKind) (cell : Nat) (c : Copy) : State :=
  match c.transferFailure k with
  | some d => s.reply cell .format d
  | none =>
    match s.bayCheck c with
    | some (r, d) => s.reply cell r d
    | none =>
      s.takeUp cell
        { kind := k, group := c.group, bay := c.bay, first := c.first, count := c.count, loan := none, reserved := none,
          residue := 0 }

/-- A SERVICE_READ is handled (R36). -/
def execServiceRead (cell : Fin 1024) (s : State) : Host.Outcome State Fault Refusal :=
  s.handling .serviceRead cell (fun s c => s.serviceTransfer .serviceRead cell c)

/-- A SERVICE_WRITE is handled (R36). -/
def execServiceWrite (cell : Fin 1024) (s : State) : Host.Outcome State Fault Refusal :=
  s.handling .serviceWrite cell (fun s c => s.serviceTransfer .serviceWrite cell c)

/-- The reservation of n blocks at the reserved position (R109 steps 3 and 4). A cell that was answered and posted again while its
GOOD entry waits gets a second entry (the model's choice, log entry 30). -/
def AppendRecord.reserve (a : AppendRecord) (cell n : Nat) : AppendRecord :=
  { a with reserved := a.reserved + n,
           reservations := a.reservations ++ [{ cell := cell, offset := a.reserved, n := n, good := false }] }

/-- The append record of loan n takes a value. -/
def State.setAppend (s : State) (n : Nat) (a : AppendRecord) : State := s.setLoan n { s.loan n with append := some a }

/-- The transfer of an append: its disk position and its n blocks, or nothing when it has no reservation. -/
def appendTransfer (l : Loan) (loan count n : Nat) (reserved : Option Nat) : Transfer :=
  { kind := .appendWrite, group := l.group, bay := l.bay, first := l.first + reserved.getD 0, count := n, loan := some loan,
    reserved := reserved, residue := count - n }

/-- Placement (R109): APPEND_BROKEN, EXTENT_FULL, or a reservation and a place in the FIFO. -/
def State.placeAppend (s : State) (cell : Nat) (l : Loan) (a : AppendRecord) (loan count : Nat) : State :=
  let n := min count (l.count - a.reserved)
  if a.broken then
    (s.setTransfer cell (appendTransfer l loan 0 0 none)).reply cell .appendBroken (a.breakPoint.getD 0)
  else if n = 0 then
    (s.setTransfer cell (appendTransfer l loan 0 0 none)).reply cell .extentFull a.reserved
  else
    (s.setAppend loan (a.reserve cell n)).takeUp cell (appendTransfer l loan count n (some a.reserved))

/-- An APPEND_WRITE (R108, R109). -/
def State.appendOrder (s : State) (cell : Nat) (c : Copy) : State :=
  match c.transferFailure .appendWrite with
  | some d => s.reply cell .format d
  | none =>
    match s.loanCheck .appendWrite c with
    | .error (r, d) => s.reply cell r d
    | .ok l => (s.raiseInFlight c.loan).placeAppend cell l (l.append.getD (.created 1)) c.loan c.count

/-- An APPEND_WRITE is handled (R109). -/
def execAppendWrite (cell : Fin 1024) (s : State) : Host.Outcome State Fault Refusal :=
  s.handling .appendWrite cell (fun s c => s.appendOrder cell c)

end Sys2Proof.Machine
end

