-- ==== Sys2Proof/Machine/Dispatch.lean ====
section
/-! DEFINITION. The command dispatch: one arm for each constructor of Instr. -/
namespace Sys2Proof.Machine

/-- The effect of a command on everything but the queue. -/
def exec (i : Instr) (s : State) : Host.Outcome State Fault Refusal :=
  match i with
  | .powerOn => Sys2Proof.Machine.execPowerOn s
  | .bringupEnd badSlots => Sys2Proof.Machine.execBringupEnd badSlots s
  | .linkReset => Sys2Proof.Machine.execLinkReset s
  | .restart w => Sys2Proof.Machine.execRestart w s
  | .restartEffects => Sys2Proof.Machine.execRestartEffects s
  | .run w => Sys2Proof.Machine.execRun w s
  | .runStop w => Sys2Proof.Machine.execRunStop w s
  | .intakeMode w => Sys2Proof.Machine.execIntakeMode w s
  | .answerMode w => Sys2Proof.Machine.execAnswerMode w s
  | .sweepMs w => Sys2Proof.Machine.execSweepMs w s
  | .exchangeBase high w => Sys2Proof.Machine.execExchangeBase high w s
  | .post w => Sys2Proof.Machine.execPost w s
  | .answer => Sys2Proof.Machine.execAnswer s
  | .lapse => Sys2Proof.Machine.execLapse s
  | .notice w => Sys2Proof.Machine.execNotice w s
  | .noticeEnable w => Sys2Proof.Machine.execNoticeEnable w s
  | .registerWriteIgnored offset w => Sys2Proof.Machine.execRegisterWriteIgnored offset w s
  | .postFifoIntake => Sys2Proof.Machine.execPostFifoIntake s
  | .sweep => Sys2Proof.Machine.execSweep s
  | .sweepVisit lead => Sys2Proof.Machine.execSweepVisit lead s
  | .take copy => Sys2Proof.Machine.execTake copy s
  | .loanOpen cell => Sys2Proof.Machine.execLoanOpen cell s
  | .loanRenew cell => Sys2Proof.Machine.execLoanRenew cell s
  | .loanReturn cell => Sys2Proof.Machine.execLoanReturn cell s
  | .loanQuery cell => Sys2Proof.Machine.execLoanQuery cell s
  | .read cell => Sys2Proof.Machine.execRead cell s
  | .write cell => Sys2Proof.Machine.execWrite cell s
  | .appendWrite cell => Sys2Proof.Machine.execAppendWrite cell s
  | .serviceRead cell => Sys2Proof.Machine.execServiceRead cell s
  | .serviceWrite cell => Sys2Proof.Machine.execServiceWrite cell s
  | .groupSet cell => Sys2Proof.Machine.execGroupSet cell s
  | .diskSet cell => Sys2Proof.Machine.execDiskSet cell s
  | .clockSet cell => Sys2Proof.Machine.execClockSet cell s
  | .bayAdmit cell => Sys2Proof.Machine.execBayAdmit cell s
  | .bayRetire cell => Sys2Proof.Machine.execBayRetire cell s
  | .bayWatch cell => Sys2Proof.Machine.execBayWatch cell s
  | .slotFlush cell => Sys2Proof.Machine.execSlotFlush cell s
  | .holdSet cell => Sys2Proof.Machine.execHoldSet cell s
  | .faultClear cell => Sys2Proof.Machine.execFaultClear cell s
  | .tick => Sys2Proof.Machine.execTick s
  | .waitExpired loan => Sys2Proof.Machine.execWaitExpired loan s
  | .termLapse loan => Sys2Proof.Machine.execTermLapse loan s
  | .spinDown bay => Sys2Proof.Machine.execSpinDown bay s
  | .meterPeriodEnd => Sys2Proof.Machine.execMeterPeriodEnd s
  | .dispatch bay => Sys2Proof.Machine.execDispatch bay s
  | .deliveryItemStart channel => Sys2Proof.Machine.execDeliveryItemStart channel s
  | .deliveryEnd channel result => Sys2Proof.Machine.execDeliveryEnd channel result s
  | .fetchEnd channel result => Sys2Proof.Machine.execFetchEnd channel result s
  | .stagingError channel copied => Sys2Proof.Machine.execStagingError channel copied s
  | .diskReadEnd bay tag data => Sys2Proof.Machine.execDiskReadEnd bay tag data s
  | .diskWriteEnd bay tag => Sys2Proof.Machine.execDiskWriteEnd bay tag s
  | .mediaError bay tag firstBad => Sys2Proof.Machine.execMediaError bay tag firstBad s
  | .linkError bay tag => Sys2Proof.Machine.execLinkError bay tag s
  | .cmdTimeout bay tag => Sys2Proof.Machine.execCmdTimeout bay tag s
  | .standbyEnd bay => Sys2Proof.Machine.execStandbyEnd bay s
  | .startEnd bay => Sys2Proof.Machine.execStartEnd bay s
  | .identifyEnd bay size => Sys2Proof.Machine.execIdentifyEnd bay size s
  | .operationTimeout bay => Sys2Proof.Machine.execOperationTimeout bay s
  | .readyRise bay => Sys2Proof.Machine.execReadyRise bay s
  | .readyFall bay => Sys2Proof.Machine.execReadyFall bay s
  | .readyLost bay => Sys2Proof.Machine.execReadyLost bay s
  | .presenceRise bay => Sys2Proof.Machine.execPresenceRise bay s
  | .removal bay => Sys2Proof.Machine.execRemoval bay s
  | .faultRecordWriteEnd => Sys2Proof.Machine.execFaultRecordWriteEnd s
  | .meterBlockWriteEnd => Sys2Proof.Machine.execMeterBlockWriteEnd s
  | .baySummaryWriteEnd => Sys2Proof.Machine.execBaySummaryWriteEnd s
  | .answerWritten => Sys2Proof.Machine.execAnswerWritten s
  | .exchangeAreaError access => Sys2Proof.Machine.execExchangeAreaError access s
  | .linkUp => Sys2Proof.Machine.execLinkUp s
  | .interimWriteEnd => Sys2Proof.Machine.execInterimWriteEnd s

end Sys2Proof.Machine
end

