-- ==== Sys2Proof/Machine/Reference.lean ====
section
/-! DEFINITION. One cycle of the part's 1 MHz reference, which passes when no command waits (log entry 2): the Loan Clock (R146), the
sweep timer (R175), the ready-low and operation timers (R136, R128, R132) and the command timers (R125) count, and the events
that come due enter the queue. -/
namespace Sys2Proof.Machine

/-- Commands enter the queue. -/
def State.queue (s : State) (cs : List Instr) : State := { s with pending := s.pending ++ cs }

/-! ## Loan Clock -/

/-- The Loan Clock after one cycle, and whether a tick is produced (R146). -/
def LoanClock.cycle (k : LoanClock) : LoanClock × Bool :=
  if k.prescaler + 1 < prescaleOf k.prescaleCode then ({ k with prescaler := k.prescaler + 1 }, false)
  else if k.periodCounter + 1 < k.period + 1 then ({ k with prescaler := 0, periodCounter := k.periodCounter + 1 }, false)
  else ({ k with prescaler := 0, periodCounter := 0 }, true)

/-- The Loan Clock counts a cycle; a tick it produces is the command TICK. -/
def State.cycleClock (s : State) : State :=
  { s with clock := s.clock.cycle.1 }.queue (if s.clock.cycle.2 then [.tick] else [])

/-! ## Command timers -/

/-- An outstanding command after one microsecond (R125). -/
def Command.cycle (c : Command) : Command := if c.kind.waitsForReady then { c with timer := c.timer + 1 } else c

/-- The timer of a command has just reached its limit. -/
def Command.due (c : Command) : Bool := c.kind.waitsForReady && c.timer == Config.commandTimeoutUs

/-- A command tag as an operand. -/
def tagOperand (t : Option Nat) : Option (Fin 4) :=
  match t with
  | some n => if h : n < 4 then some ⟨n, h⟩ else none
  | none => none

/-- The command timers of bay b count a microsecond. -/
def State.cycleBay (s : State) (b : Fin 24) : State :=
  let v := s.bay b
  let after := v.outstanding.map Command.cycle
  (s.setBay b { v with outstanding := after }).queue
    ((after.filter Command.due).map (fun c => .cmdTimeout b ⟨tagOperand c.tag, c.number⟩))

/-! ## Millisecond timers -/

/-- The sweep timer counts a millisecond (R175). -/
def State.milliSweep (s : State) : State :=
  let x := s.exchange
  if x.sweepTimerOn then
    { s with exchange := { x with sweepTimer := x.sweepTimer + 1 } }.queue
      (if max 1 x.control.sweepMs.toNat ≤ x.sweepTimer + 1 then [.sweep] else [])
  else s

/-- The ready-low timer of bay b counts a millisecond (R136). -/
def State.milliReady (s : State) (b : Fin 24) : State :=
  let v := s.bay b
  if v.watched && !s.readyHigh b then
    (s.setBay b { v with readyLow := v.readyLow + 1 }).queue
      (if v.readyLow + 1 = Config.readyLowLimitMs then [.readyLost b] else [])
  else s

/-- An admission or a spin-up is under way. -/
def Bay.operating (v : Bay) : Bool := v.state == .admitting || v.state == .spinningUp

/-- The operation timer of bay b counts a millisecond (R128, R132). -/
def State.milliOperation (s : State) (b : Fin 24) : State :=
  let v := s.bay b
  if v.operating then
    (s.setBay b { v with opTimer := v.opTimer + 1 }).queue
      (if v.opTimer + 1 = Config.operationLimitMs then [.operationTimeout b] else [])
  else s

/-- A millisecond passes. -/
def State.millisecond (s : State) : State :=
  (List.finRange 24).foldl (fun s b => (s.milliReady b).milliOperation b) s.milliSweep

/-- The divider of the reference for the timers counted in milliseconds. -/
def State.divide (s : State) : State :=
  if s.clock.microseconds + 1 < 1000 then { s with clock := { s.clock with microseconds := s.clock.microseconds + 1 } }
  else { s with clock := { s.clock with microseconds := 0 } }.millisecond

/-- One cycle of the reference. During BRINGUP only the Loan Clock counts: no command is sent, no line is watched, no sweep is
made (R144, R150, R184). Events that come due in the same cycle queue in an order of the model's own: TICK, the command timeouts bay 0
first, SWEEP, then the ready-low and the operation timer of each bay, bay 0 first (log entry 37). -/
def State.microsecond (s : State) : State :=
  let s := s.cycleClock
  if s.exchange.part = .bringup then s
  else ((List.finRange 24).foldl (fun s b => s.cycleBay b) s).divide

end Sys2Proof.Machine
end

