-- ==== Sys2Proof/Safety.lean ====
section
/-! DEFINITION. The laws of the spec that every step keeps, as predicates of a state, and what it means that a step left
the rest of the state as it was. -/
namespace Sys2Proof.Machine

/-- The law of R3: no two loans of a conflict set conflict. -/
def State.conflictFree (s : State) : Prop :=
  ∀ m n : Nat, m ≠ n → (s.loan m).state.inConflictSet = true → (s.loan n).state.inConflictSet = true →
    conflicts (s.loan m) (s.loan n) = false

/-- The waiting list of a bay holds each loan at most once, and only WAITING loans of the bay (R8). -/
def State.waitingListed (s : State) : Prop :=
  ∀ b, (s.waiting b).Nodup ∧ ∀ n ∈ s.waiting b, (s.loan n).state = .waiting ∧ (s.loan n).bay = b

/-- A held order that makes a transfer has passed its format check, and makes it with its own count, but for an append, which may
be given less (R34, R109). -/
def State.ordersChecked (s : State) : Prop :=
  ∀ o ∈ s.exchange.held, ∀ x, o.transfer = some x →
    Copy.transferFailure o.copy x.kind = none ∧ (x.kind ≠ .appendWrite → x.count = Copy.count o.copy)

/-- The Held Cell set holds each cell number at most once, and the cell of a take in progress is not in it (R174 to R176). -/
def State.heldOnce (s : State) : Prop :=
  (s.exchange.held.map (fun o => o.cell)).Nodup ∧ ∀ t, s.exchange.take = some t → s.isHeld t.cell = false

/-- The level flags follow their queues, and the interrupt is asserted only while some flag is pending and enabled (R191, R192,
R194). -/
def State.noticesFollow (s : State) : Prop :=
  s.notices.flags.lapse = !s.exchange.lapseQueue.isEmpty ∧
  (s.exchange.control.answerMode = .each → s.notices.flags.answer = !s.exchange.answerQueue.isEmpty) ∧
  (s.notices.interrupt = true → s.notices.condition = true)

/-- Only loans in LAPSING or LAPSED are in the Lapse Queue (R16). -/
def State.lapseQueued (s : State) : Prop :=
  ∀ n ∈ s.exchange.lapseQueue, (s.loan n).state = .lapsing ∨ (s.loan n).state = .lapsed

/-- What the part knows of host memory is in canonical form (log entry 7). -/
def State.memoryCanonical (s : State) : Prop := Memory.wf s.hostMem = true

/-- The limits of the intake's registers and of the base (R170, R173, R174). -/
def State.intakeLimits (s : State) : Prop :=
  s.exchange.postFifo.length ≤ Config.postFifoDepth ∧ s.exchange.strayPosts ≤ 255 ∧ s.exchange.base.toNat % 4096 = 0

/-- The limits of the Fault Capture Unit, and its law that a record is in flight only while TRIGGERED is set (R159). -/
def State.captureLimits (s : State) : Prop :=
  s.capture.suppressed ≤ 255 ∧ (s.capture.record.isSome = true → s.capture.triggered = true)
    ∧ (s.capture.writing.isSome = true → s.capture.record.isSome = true)

/-- The numbers of a table's entries rise strictly. -/
def Table.ordered {α : Type} (t : Table α) : Prop := (Table.keys t).Pairwise (· < ·)

/-- Every numbered table of the state lists its entries by rising number. -/
def State.tablesOrdered (s : State) : Prop :=
  Table.ordered s.loans.table ∧ Table.ordered s.loans.waiting ∧ Table.ordered s.shares.groups ∧ Table.ordered s.shares.fifos
    ∧ Table.ordered s.shares.arbiters ∧ Table.ordered s.staging.slots ∧ Table.ordered s.bays.records
    ∧ Table.ordered s.bays.lines ∧ Table.ordered s.meters.groups

/-! ## Words that several statements use -/

/-- The command that stands for an order of a kind in a cell. -/
def OrderKind.command (k : OrderKind) (cell : Fin 1024) : Instr :=
  match k with
  | .loanOpen => .loanOpen cell
  | .loanRenew => .loanRenew cell
  | .loanReturn => .loanReturn cell
  | .loanQuery => .loanQuery cell
  | .read => .read cell
  | .write => .write cell
  | .appendWrite => .appendWrite cell
  | .serviceRead => .serviceRead cell
  | .serviceWrite => .serviceWrite cell
  | .groupSet => .groupSet cell
  | .diskSet => .diskSet cell
  | .clockSet => .clockSet cell
  | .bayAdmit => .bayAdmit cell
  | .bayRetire => .bayRetire cell
  | .bayWatch => .bayWatch cell
  | .slotFlush => .slotFlush cell
  | .holdSet => .holdSet cell
  | .faultClear => .faultClear cell

/-- An answer without a snapshot. -/
def reported (cell : Nat) (r : Result) (detail done : Nat) (src : Source) : AnswerWrite :=
  .answer { cell := cell, result := r, detail := detail, blocksDone := done, source := src, snapshot := none }

/-- An answer with blocks done 0 and source NONE. -/
def plain (cell : Nat) (r : Result) (detail : Nat) : AnswerWrite := reported cell r detail 0 .none

/-- The little-endian number in n bytes of a layout, from an offset on. -/
def fieldAt (bytes : List Byte) (offset n : Nat) : Nat := ((bytes.drop offset).take n).foldr (fun b v => b.toNat + 256 * v) 0

/-- A layout that starts at some offset of its area holds each of the fields listed as offset, size and value, as the rows of its table
list them. A field keeps the low bytes of its value. -/
def laidOut (start : Nat) (bytes : List Byte) (fields : List (Nat × Nat × Nat)) : Prop :=
  ∀ e ∈ fields, fieldAt bytes (e.1 - start) e.2.1 = e.2.2 % 256 ^ e.2.1

/-- The source field of a read with some blocks done: DISK for the order that led the fill, STAGED for a joiner, NONE without any
(R46). -/
def sourceOf (led : Bool) (done : Nat) : Source := if done = 0 then .none else if led then .disk else .staged

/-- These answers were decided, in this order, and the writing of the first began where the part serves the list (R178). -/
def State.answered (s t : State) (answers : List AnswerWrite) : Prop :=
  t.exchange.answerList = s.exchange.answerList ++ answers
    ∧ t.exchange.answerBusy = (s.exchange.answerBusy || (s.serving && !answers.isEmpty))

/-- A STOPPING part is STOPPED once its Held Cell set and its Answer Write list are both empty (R185) and no take is in progress (log
entry 14); a part in any other state, or with any of these left, stays in its state. -/
def State.stopsOnceEmpty (s t : State) : Prop :=
  t.exchange.part =
    if s.exchange.part = .stopping ∧ t.exchange.held = [] ∧ t.exchange.answerList = [] ∧ t.exchange.take = none then .stopped
    else s.exchange.part

/-- Every loan but loan n is as it was. -/
def State.otherLoans (s t : State) (n : Nat) : Prop := ∀ m, m ≠ n → t.loan m = s.loan m

/-- Every bay record but that of bay b is as it was. -/
def State.otherBays (s t : State) (b : Nat) : Prop := ∀ c, c ≠ b → t.bay c = s.bay c

/-- Every slot but slot k is as it was. -/
def State.otherSlots (s t : State) (k : Nat) : Prop := ∀ j, j ≠ k → t.slot j = s.slot j

/-- Every group FIFO but that of group g on bay b is as it was. -/
def State.otherFifos (s t : State) (b g : Nat) : Prop :=
  ∀ c h, fifoNumber c h ≠ fifoNumber b g → t.fifo c h = s.fifo c h

/-- The loan that an order names is HELD by its node in a mode that permits the order, and in use (R25). -/
def State.lends (s : State) (k : OrderKind) (c : Copy) (l : Loan) : Prop :=
  c.loan < 512 ∧ s.loan c.loan = l ∧ l.state = .held ∧ l.node = c.node ∧ l.mode.permits k = true

/-- A READ, WRITE, SERVICE_READ or SERVICE_WRITE passes its checks (R34, R25, R36) and makes transfer x. -/
def State.passes (s : State) (k : OrderKind) (c : Copy) (x : Transfer) : Prop :=
  c.transferFailure k = none
    ∧ (((k = .read ∨ k = .write)
          ∧ ∃ l, s.lends k c l ∧ l.first ≤ c.first ∧ c.first + c.count ≤ l.first + l.count
              ∧ x = { kind := k, group := l.group, bay := l.bay, first := c.first, count := c.count, loan := some c.loan,
                      reserved := none, residue := 0 })
      ∨ ((k = .serviceRead ∨ k = .serviceWrite) ∧ (s.bay c.bay).state.accepts = true
          ∧ c.first + c.count ≤ (s.bay c.bay).capacity
          ∧ x = { kind := k, group := c.group, bay := c.bay, first := c.first, count := c.count, loan := none,
                  reserved := none, residue := 0 }))

/-- A transfer was taken up: the held order makes transfer x, its loan counts it in flight, and every other held order and
loan is as it was (R24, R38). -/
def State.takenUp (s t : State) (cell : Nat) (x : Transfer) : Prop :=
  t.transfer? cell = some x ∧ (∀ c, c ≠ cell → t.order? c = s.order? c)
    ∧ ∀ n, t.loan n = if x.loan = some n then { s.loan n with inFlight := (s.loan n).inFlight + 1 } else s.loan n

/-- A bay record after a fault by a cause in STOPPED, RUNNING or STOPPING (R138). -/
def Bay.afterFault (v : Bay) (cause : Cause) : Bay := { v.faulted cause with admitCell := none }

/-- Part of host memory is as it was: every address outside the n bytes from address a, taken modulo 2^64. -/
def State.otherBytes (s t : State) (a n : Nat) : Prop :=
  ∀ x, (∀ i, i < n → x ≠ (a + i) % Config.addressSpace) → Memory.read t.hostMem x = Memory.read s.hostMem x

/-- Loan n of a waiting list is granted at the examination of the list (R9): it conflicts with no other loan of the conflict set
and with none that stands ahead of it. (One ahead that is granted is in the conflict set by then; one that is not, still waits.) -/
def State.grantable (s : State) (ahead : List Nat) (n : Nat) : Prop :=
  (∀ m, m ≠ n → (s.loan m).state.inConflictSet = true → conflicts (s.loan m) (s.loan n) = false)
    ∧ ∀ m ∈ ahead, conflicts (s.loan m) (s.loan n) = false

/-- The examination of the waiting list of bay b as it stands in s has been made, and granted these loans, in list order (R9);
of the others no more than the wait has changed. -/
def State.examined (s t : State) (b : Nat) (granted : List Nat) : Prop :=
  granted.Sublist (s.waiting b)
    ∧ (∀ before n after, s.waiting b = before ++ n :: after → (n ∈ granted ↔ s.grantable before n))
    ∧ t.waiting b = (s.waiting b).filter (fun n => !granted.contains n)
    ∧ ∀ n ∈ s.waiting b, if n ∈ granted then (t.loan n).state = .held ∧ (t.loan n).wait = 0 ∧ (t.loan n).openingCell = none
        else t.loan n = { s.loan n with wait := (t.loan n).wait }

/-- The answers of the loans that an examination grants (R7, R9). -/
def State.grantAnswers (s : State) (granted : List Nat) : List AnswerWrite :=
  granted.filterMap (fun n => (s.loan n).openingCell.map (fun c => plain c .ok n))

/-- An append record after the commit of R112 over a reservation list: the leading GOOD entries below the break point are
committed, GOOD entries at or above it are dropped, and every other entry stays. -/
def AppendRecord.commits (a r : AppendRecord) (list : List Reservation) : Prop :=
  ∃ done left, list = done ++ left
    ∧ (∀ e ∈ done, e.good = true ∧ ∀ p, a.breakPoint = some p → e.offset < p)
    ∧ (∀ e, left.head? = some e → e.good = true → ∃ p, a.breakPoint = some p ∧ p ≤ e.offset)
    ∧ r.committed = a.committed + (done.map (fun e => e.n)).sum ∧ r.blocksIntoFrame < r.frameBlocks
    ∧ r = { a with
        framesDone := r.framesDone, blocksIntoFrame := r.blocksIntoFrame,
        reservations := left.filter (fun e => !(e.good && a.breakPoint.any (fun p => p ≤ e.offset))) }

/-- The host address of byte j of an order's buffer: its segments one after another, in list order (R33). -/
def bufferAddress (segs : List (Nat × Nat)) (j : Nat) : Option Nat :=
  match segs with
  | [] => none
  | (a, len) :: rest => if j < len then some (a + j) else bufferAddress rest (j - len)

/-- Byte j of a transfer's range out of a slot that holds the bytes d from block first (R43). -/
def stagedByte (d first : Nat) (x : Transfer) (j : Nat) : Byte :=
  BitVec.ofNat 8 (d >>> (8 * (4096 * (x.first - first) + j)))

/-- What a delivery of some whole blocks leaves in the buffer of its order, having begun some leading segments (R33, R41, R46, R48):
each byte of these blocks at its place, the later of two in the same place; nothing known of the places of the next block's bytes in
the segments begun (log entry 29); every other byte of the buffer, those of all blocks behind among them, as it was. -/
def State.deliveredWithin (s t : State) (copy : Copy) (x : Transfer) (d first blocks segments : Nat) : Prop :=
  let begun := fun j z : Nat =>
    4096 * blocks ≤ j ∧ j < 4096 * (blocks + 1) ∧ bufferAddress (copy.segments.take segments) j = some z
  (∀ i z, bufferAddress copy.segments i = some z → (∀ j, j < 4096 * blocks → bufferAddress copy.segments j ≠ some z) →
      (∀ j, ¬begun j z) → Memory.read t.hostMem z = Memory.read s.hostMem z)
    ∧ (∀ j z, j < 4096 * blocks → bufferAddress copy.segments j = some z →
        (∀ i, j < i → i < 4096 * blocks → bufferAddress copy.segments i ≠ some z) → (∀ i, ¬begun i z) →
        Memory.read t.hostMem z = some (stagedByte d first x j))
    ∧ ∀ j z, begun j z → Memory.read t.hostMem z = none

/-- What one delivery leaves in host memory: what it leaves in its buffer, and every address outside it as it was. -/
def State.delivered (s t : State) (copy : Copy) (x : Transfer) (d first blocks segments : Nat) : Prop :=
  s.deliveredWithin t copy x d first blocks segments
    ∧ ∀ z, (∀ j, bufferAddress copy.segments j ≠ some z) → Memory.read t.hostMem z = Memory.read s.hostMem z

/-- Slot k became FREE and was offered (R89): it is reserved for the bay at the head of the Slot Wait list, which leaves the list, or
for none where no bay waits. -/
def State.offered (s t : State) (k : Nat) : Prop :=
  t.slot k = { Slot.free with reservedFor := s.staging.slotWait.head? } ∧ t.staging.slotWait = s.staging.slotWait.drop 1
    ∧ k ∉ t.staging.residency

/-- Slot k became RESIDENT with nothing to deliver, as v, and was offered (R89): where a bay waits, it is reclaimed for that bay. -/
def State.offeredResident (s t : State) (k : Nat) (v : Slot) : Prop :=
  (s.staging.slotWait = [] → t.slot k = v ∧ t.staging.slotWait = []) ∧ (s.staging.slotWait ≠ [] → s.offered t k)

/-- A tagged head of group g on bay b that makes transfer x meets conditions 1, 2, 3, 5 and 6 of R67. -/
def State.headReady (s : State) (b g : Nat) (x : Transfer) : Prop :=
  1 ≤ (s.group g).weight ∧ ¬(s.capture.triggered = true ∧ s.capture.holdMask.getLsbD g = true) ∧ (s.group g).capReached = false
    ∧ (∃ i, i < 4 ∧ s.tagHolder b i = none)
    ∧ ∀ e ∈ s.staging.slots, e.2.state = .draining → e.2.overlapsOn b x.first x.count = false

/-- The first send of a control command as the next send of a bay. -/
def Bay.firstSend (v : Bay) (k : CommandKind) : Command :=
  { kind := k, tag := none, first := 0, count := 0, linkErrors := 0, timer := 0, number := v.sends }

/-- The completion test of bay b is passed but for loan n and that its final STANDBY is not yet sent: the bay is RETIRING without work,
and every other loan of the bay is FREE (R135). -/
def State.retiresWithout (s : State) (b n : Nat) : Prop :=
  (s.bay b).state = .retiring ∧ (∀ m, m ≠ n → (s.loan m).bay = b → (s.loan m).state = .free) ∧ s.hasWork b = false
    ∧ ∀ d ∈ (s.bay b).outstanding ++ (s.bay b).sendList, d.kind ≠ .standby

/-- A STANDBY of bay b was sent, or waits for the ready line (R122, R135). -/
def State.standbySent (s t : State) (b : Nat) : Prop :=
  ((s.lines b).ready = true → (s.bay b).firstSend .standby ∈ (t.bay b).outstanding ∧ (t.bay b).sends = (s.bay b).sends + 1)
    ∧ ((s.lines b).ready = false → { (s.bay b).firstSend .standby with number := 0 } ∈ (t.bay b).sendList
        ∧ (t.bay b).sends = (s.bay b).sends)

/-- Of the record at an offset of the Exchange Area these bytes were written, and every other address is as it was (R200). -/
def State.partsWritten (s t : State) (base : BitVec 64) (offset : Nat) (image : List Byte) (written : Nat → Bool) : Prop :=
  (∀ i, i < image.length → written i = true →
      Memory.read t.hostMem ((base.toNat + offset + i) % Config.addressSpace) = image[i]?)
    ∧ ∀ z, (∀ i, i < image.length → written i = true → z ≠ (base.toNat + offset + i) % Config.addressSpace) →
        Memory.read t.hostMem z = Memory.read s.hostMem z

/-- A slot that has changed in nothing but what reads that joined it add (R82, R83). -/
def Slot.joined (v w : Slot) : Prop :=
  ∃ more n, w = { v with joiners := v.joiners ++ more, deliveries := v.deliveries + n }

/-- The write in cell c has ended its drain: it leaves the blocking writes of each FILLING slot that names it, and a fill that
waited for it alone is read again (R94, R95). -/
def State.unblocked (s t : State) (c : Nat) : Prop :=
  ∀ j, (s.slot j).state = .filling → c ∈ (s.slot j).blocking →
    (let left := (s.slot j).blocking.filter (fun w => w != c)
     (left ≠ [] ∨ (s.slot j).refetch = false ∨ (s.slot j).readEnded = false → t.slot j = { s.slot j with blocking := left })
      ∧ (left = [] → (s.slot j).refetch = true → (s.slot j).readEnded = true →
          ∀ p lead, (s.slot j).place = some p → (s.slot j).lead = some lead → lead ≠ c → s.tagOf p.bay lead ≠ none →
          t.slot j = { s.slot j with
              blocking := [], refetch := false, refetchCount := (s.slot j).refetchCount + 1, readEnded := false }
            ∧ ∃ d ∈ (t.bay p.bay).outstanding ++ (t.bay p.bay).sendList,
                d.kind = .read ∧ d.first = p.first ∧ d.count = p.count ∧ d.tag = s.tagOf p.bay lead))

/-- A fault was offered to the Fault Capture Unit of a part that serves orders (R158, R160 to R162): the sequence counts it; with
TRIGGERED clear it is captured, and the write of its record begins where the base is not 0; else it is suppressed. -/
def State.tookOffer (s t : State) (cause : Cause) (location loans orders : Nat) : Prop :=
  t.capture.sequence = s.capture.sequence + 1 ∧ t.capture.triggered = true
    ∧ t.capture.holdMask = s.capture.holdMask ∧ t.capture.autoRearm = s.capture.autoRearm
    ∧ (s.capture.triggered = false → t.capture.suppressed = 0
        ∧ t.capture.record = some { cause := cause, location := location, loansFaulted := loans, ordersFailed := orders,
                                    stamp := s.clock.tickCount, suppressedBefore := s.capture.suppressed,
                                    holdMask := s.capture.holdMask, autoRearm := s.capture.autoRearm,
                                    sequence := s.capture.sequence + 1 }
        ∧ (s.capture.writing = none → t.capture.writing = if s.exchange.base = 0 then none else some s.exchange.base))
    ∧ (s.capture.triggered = true →
        t.capture.suppressed = min 255 (s.capture.suppressed + 1) ∧ t.capture.record = s.capture.record)

/-- The loans of a faulted bay (R27): those in the conflict set and LAPSED ones are FAULTED and leave the Lapse Queue, those that
wait are freed and their opening cells answered, every other loan is as it was. -/
def State.faultsLoans (s t : State) (b : Nat) (cause : Cause) : Prop :=
  (∀ n, (s.loan n).bay = b → n ∉ s.waiting b → ((s.loan n).state.inConflictSet = true ∨ (s.loan n).state = .lapsed) →
      t.loan n = { s.loan n with state := .faulted, faultCause := cause } ∧ n ∉ t.exchange.lapseQueue)
    ∧ (∀ n ∈ s.waiting b, (s.loan n).bay = b → (s.loan n).state = .waiting →
        t.loan n = .free ∧ ∀ c, (s.loan n).openingCell = some c → plain c .diskFault n ∈ t.exchange.answerList)
    ∧ ∀ n, n ∉ s.waiting b → ((s.loan n).bay ≠ b ∨ (s.loan n).state ∈ [.free, .waiting, .faulted]) → t.loan n = s.loan n

/-- The FIFOs, command tags and Slot Wait place of a faulted bay (R59, R74): every queued order is answered and removed, F returns
to the start tag of a tagged head, every tag is released; the FIFOs of other bays are as they were. -/
def State.faultsShares (s t : State) (b : Nat) (cause : Cause) : Prop :=
  (∀ g, g < 16 → t.fifo b g = { orders := [], cost := none, tags := none,
                                lastFinish := ((s.fifo b g).tags.map (fun x => x.start)).getD (s.fifo b g).lastFinish }
      ∧ ∀ c ∈ (s.fifo b g).orders, plain c .diskFault cause.code ∈ t.exchange.answerList)
    ∧ (∀ c g, c ≠ b → g < 16 → t.fifo c g = s.fifo c g)
    ∧ (∀ i, t.tagHolder b i = none) ∧ b ∉ t.staging.slotWait

/-- The slots of a faulted bay (R103): FILLING slots, and DRAINING slots whose fetch has ended, are FREE with their orders
answered; a fetch that runs is doomed, by this cause also where an earlier one doomed it (log entry 36); RESIDENT slots are
FREE, or STALE while they are delivered from. -/
def State.faultsSlots (s t : State) (b : Nat) (cause : Cause) : Prop :=
  (∀ k, (s.slot k).onBay b = true →
      ((s.slot k).state = .filling ∨ ((s.slot k).state = .draining ∧ (s.slot k).phase ≠ some .fetch) →
        (t.slot k).state = .free
          ∧ ∀ c ∈ (s.slot k).lead.toList ++ (s.slot k).joiners, plain c .diskFault cause.code ∈ t.exchange.answerList)
      ∧ ((s.slot k).state = .draining → (s.slot k).phase = some .fetch →
        t.slot k = { s.slot k with fetchFailure := some cause })
      ∧ ((s.slot k).state = .resident → (s.slot k).deliveries = 0 → (t.slot k).state = .free)
      ∧ ((s.slot k).state = .resident → (s.slot k).deliveries ≠ 0 → t.slot k = { s.slot k with state := .stale })
      ∧ ((s.slot k).state ∈ [.stale, .bad] → t.slot k = s.slot k))
    ∧ ∀ k, (s.slot k).onBay b = false → (s.slot k).state ≠ .filling → t.slot k = s.slot k

/-- How many loans a fault on bay b changes (R27). -/
def State.loansHit (s : State) (b : Nat) : Nat :=
  (s.waiting b).length + s.loans.table.countP (fun e => e.2.bay == b && (e.2.state.inConflictSet || e.2.state == .lapsed))

/-- How many orders a fault on bay b answers: those in its FIFOs, and those of its fills and of its drains in phase DISK (R139,
log entry 27). -/
def State.ordersHit (s : State) (b : Nat) : Nat :=
  ((List.range 16).map (fun g => (s.fifo b g).orders.length)).sum
    + ((s.staging.slots.filter (fun e => e.2.onBay b
          && (e.2.state == .filling || (e.2.state == .draining && e.2.phase != some .fetch)))).map
        (fun e => e.2.lead.toList.length + e.2.joiners.length)).sum

/-- A Bay Summary rewrite was asked for (R142): it begins with the entries as they stand then, unless one is in flight, the base is 0 or
the part is in a state that writes no records, and is held otherwise. The sequence number wraps from 4,294,967,295 to 0 (log entry 38). -/
def State.summaryAsked (s t : State) : Prop :=
  if t.exchange.part ∈ [.stopped, .running, .stopping] ∧ s.exchange.summaryPort.inFlight = none ∧ s.exchange.base ≠ 0 then
    t.exchange.summarySeq = s.exchange.summarySeq + 1
      ∧ t.exchange.summaryPort = { held := false, inFlight := some { base := s.exchange.base,
                                                                     image := t.summaryImage (s.exchange.summarySeq + 1) } }
  else t.exchange.summarySeq = s.exchange.summarySeq ∧ t.exchange.summaryPort = { s.exchange.summaryPort with held := true }

/-- No Bay Summary rewrite was asked for: where none was held, none is held or begins. -/
def State.summaryNotAsked (s t : State) : Prop :=
  s.exchange.summaryPort.held = false →
    t.exchange.summaryPort = s.exchange.summaryPort ∧ t.exchange.summarySeq = s.exchange.summarySeq

/-- A fault of bay b has reached loans, scheduler, staging memory, Fault Capture Unit and Bay Summary (R139). -/
def State.faultReached (s t : State) (b : Nat) (cause : Cause) : Prop :=
  s.faultsLoans t b cause ∧ s.faultsShares t b cause ∧ s.faultsSlots t b cause
    ∧ t.capture.sequence = s.capture.sequence + 1
    ∧ (s.tablesOrdered → s.tookOffer t cause b (s.loansHit b) (s.ordersHit b))
    ∧ s.summaryAsked t

/-- The record of a bay that was SPUN_DOWN once its spin-up has started (R132): START is its first and next send. -/
def Bay.startingUp (v : Bay) : Bay :=
  { v with
    state := .spinningUp, opTimer := 0, idleTicks := 0, readyLow := 0,
    outstanding := v.outstanding ++ [v.firstSend .start], sends := v.sends + 1 }

/-- A spin-up of bay b was asked for, and the Bay Controller took the request by the bay's state (R68, R132). -/
def State.spinUpAsked (s t : State) (b : Nat) : Prop :=
  ((s.bay b).state = .spunDown → t.bay b = (s.bay b).startingUp ∧ s.summaryAsked t)
    ∧ ((s.bay b).state = .spinningDown → t.bay b = { s.bay b with spinUpPending := true })
    ∧ ((s.bay b).state ∉ [.spunDown, .spinningDown] → t.bay b = s.bay b)

/-- A tagged head of bay b meets the conditions of R67 but that of the bay, and so needs its disk spun up (R68). -/
def State.wantsSpinUp (s : State) (b : Nat) : Prop :=
  ∃ g c tags x, g < 16 ∧ (s.fifo b g).orders.head? = some c ∧ (s.fifo b g).tags = some tags ∧ s.transfer? c = some x
    ∧ s.headReady b g x

/-- Heads of every bay were looked at again (R67's table): a bay with one that needs its disk spun up is asked to, every other bay
record is as it was. -/
def State.spinUpsAsked (s t : State) : Prop :=
  ∀ b, b < 24 → (t.wantsSpinUp b → s.spinUpAsked t b) ∧ (¬t.wantsSpinUp b → t.bay b = s.bay b)

/-- A Meter Block write was asked for (R155), in the same way. -/
def State.meterAsked (s t : State) : Prop :=
  t.exchange.meterPort =
    if s.exchange.meterPort.inFlight = none ∧ s.exchange.base ≠ 0 then
      { held := false, inFlight := some { base := s.exchange.base, image := t.meterImage } }
    else { s.exchange.meterPort with held := true }

/-! ## What a step leaves as it was -/

/-- The parts of the state between which footprints tell. -/
inductive Part where
  | link | part | base | control | intake | held | awaiting | answers | answerQueue | lapseQueue | ports | loans
  | groups | fifos | arbiters | staging | engine | records | lines | clock | meters | capture | notices | hostMem | pending
  deriving DecidableEq, Repr

/-- A part of the state is the same in both. -/
def Part.same (p : Part) (s t : State) : Prop :=
  match p with
  | .link => t.link = s.link
  | .part => t.exchange.part = s.exchange.part ∧ t.exchange.resetCause = s.exchange.resetCause
      ∧ t.exchange.haltCause = s.exchange.haltCause ∧ t.exchange.errorInRestart = s.exchange.errorInRestart
  | .base => t.exchange.base = s.exchange.base
  | .control => t.exchange.control = s.exchange.control
  | .intake => t.exchange.postFifo = s.exchange.postFifo ∧ t.exchange.strayPosts = s.exchange.strayPosts
      ∧ t.exchange.sweepTimer = s.exchange.sweepTimer ∧ t.exchange.sweepTimerOn = s.exchange.sweepTimerOn
      ∧ t.exchange.sweep = s.exchange.sweep ∧ t.exchange.take = s.exchange.take
  | .held => t.exchange.held = s.exchange.held
  | .awaiting => t.exchange.awaiting = s.exchange.awaiting
  | .answers => t.exchange.answerList = s.exchange.answerList ∧ t.exchange.answerBusy = s.exchange.answerBusy
  | .answerQueue => t.exchange.answerQueue = s.exchange.answerQueue
  | .lapseQueue => t.exchange.lapseQueue = s.exchange.lapseQueue
  | .ports => t.exchange.meterPort = s.exchange.meterPort ∧ t.exchange.summaryPort = s.exchange.summaryPort
      ∧ t.exchange.summarySeq = s.exchange.summarySeq ∧ t.capture.writing = s.capture.writing
  | .loans => t.loans = s.loans
  | .groups => t.shares.groups = s.shares.groups
  | .fifos => t.shares.fifos = s.shares.fifos
  | .arbiters => t.shares.arbiters = s.shares.arbiters
  | .staging => t.staging = s.staging
  | .engine => t.engine = s.engine
  | .records => t.bays.records = s.bays.records
  | .lines => t.bays.lines = s.bays.lines
  | .clock => t.clock = s.clock
  | .meters => t.meters = s.meters
  | .capture => t.capture.triggered = s.capture.triggered ∧ t.capture.autoRearm = s.capture.autoRearm
      ∧ t.capture.holdMask = s.capture.holdMask ∧ t.capture.sequence = s.capture.sequence
      ∧ t.capture.suppressed = s.capture.suppressed ∧ t.capture.record = s.capture.record
  | .notices => t.notices = s.notices
  | .hostMem => t.hostMem = s.hostMem
  | .pending => t.pending = s.pending

/-- Nothing but the listed parts differs between two states. -/
structure Touches (ps : List Part) (s t : State) : Prop where
  same : ∀ p, p ∉ ps → p.same s t


/-- The parts of the state that a command may touch. -/
def footprint (c : Instr) : List Part :=
  match c with
  | .powerOn =>
    [.link, .part, .base, .control, .intake, .held, .awaiting, .answers, .answerQueue, .lapseQueue, .ports, .loans, .groups,
     .fifos, .arbiters, .staging, .engine, .records, .clock, .meters, .capture, .notices]
  | .bringupEnd _ => [.part, .ports, .staging, .records]
  | .linkReset => [.link, .part, .intake, .arbiters, .records, .notices]
  | .linkUp => [.link]
  | .restartEffects =>
    [.part, .control, .intake, .held, .awaiting, .answers, .answerQueue, .lapseQueue, .ports, .loans, .fifos, .arbiters,
     .staging, .engine, .records, .capture, .notices]
  | .restart _ | .run _ | .runStop _ | .intakeMode _ | .answerMode _ | .sweepMs _ =>
    [.part, .control, .intake, .ports, .arbiters, .records, .notices]
  | .exchangeBase _ _ => [.part, .base, .intake, .ports]
  | .post _ => [.intake, .notices]
  | .answer => [.link, .answerQueue, .notices]
  | .lapse => [.link, .lapseQueue, .notices]
  | .notice _ | .noticeEnable _ => [.notices]
  | .registerWriteIgnored _ _ => []
  | .postFifoIntake | .sweep | .sweepVisit _ => [.intake]
  | .take _ => [.part, .intake, .held, .awaiting, .answers, .answerQueue, .notices, .hostMem]
  | .loanOpen _ | .loanRenew _ => [.awaiting, .answers, .ports, .loans]
  | .loanReturn _ => [.awaiting, .answers, .lapseQueue, .ports, .loans, .records, .notices]
  | .loanQuery _ => [.awaiting, .answers, .ports]
  | .read _ | .write _ | .appendWrite _ =>
    [.awaiting, .held, .answers, .ports, .loans, .fifos, .staging, .engine, .records, .meters]
  | .serviceRead _ | .serviceWrite _ => [.awaiting, .held, .answers, .ports, .fifos, .staging, .engine, .records, .meters]
  | .groupSet _ => [.awaiting, .answers, .ports, .groups, .fifos, .records]
  | .diskSet _ => [.awaiting, .answers, .ports, .arbiters, .records]
  | .clockSet _ => [.awaiting, .answers, .ports, .clock]
  | .bayAdmit _ | .bayWatch _ => [.awaiting, .answers, .ports, .records]
  | .bayRetire _ => [.awaiting, .answers, .ports, .arbiters, .staging, .records]
  | .slotFlush _ => [.awaiting, .answers, .ports, .staging]
  | .holdSet _ | .faultClear _ => [.awaiting, .answers, .ports, .records, .capture]
  | .tick | .waitExpired _ | .termLapse _ | .spinDown _ | .meterPeriodEnd =>
    [.answers, .lapseQueue, .ports, .loans, .groups, .fifos, .staging, .engine, .records, .clock, .meters, .notices]
  | .dispatch _ => [.ports, .groups, .fifos, .arbiters, .staging, .engine, .records, .meters]
  | .deliveryItemStart _ => [.engine]
  | .deliveryEnd _ _ => [.answers, .staging, .engine, .hostMem]
  | .fetchEnd _ _ => [.answers, .ports, .arbiters, .staging, .engine, .records, .capture]
  | .stagingError _ _ => [.answers, .ports, .staging, .engine, .capture, .hostMem]
  | .diskReadEnd _ _ _ => [.answers, .ports, .arbiters, .staging, .engine, .records, .meters]
  | .diskWriteEnd _ _ => [.answers, .ports, .arbiters, .staging, .records]
  | .standbyEnd _ => [.ports, .staging, .records]
  | .startEnd _ => [.ports, .records]
  | .readyRise _ => [.ports, .records, .lines]
  | .readyFall _ => [.records, .lines]
  | .presenceRise _ => [.ports, .records, .lines, .notices]
  | .mediaError _ _ _ | .linkError _ _ | .cmdTimeout _ _ | .identifyEnd _ _ | .operationTimeout _ | .readyLost _ =>
    [.answers, .lapseQueue, .ports, .loans, .fifos, .arbiters, .staging, .records, .capture, .notices]
  | .removal _ =>
    [.answers, .lapseQueue, .ports, .loans, .fifos, .arbiters, .staging, .records, .lines, .capture, .notices]
  | .faultRecordWriteEnd => [.ports, .records, .capture, .notices, .hostMem]
  | .meterBlockWriteEnd => [.ports, .notices, .hostMem]
  | .baySummaryWriteEnd => [.ports, .hostMem]
  | .answerWritten =>
    [.part, .held, .answers, .answerQueue, .lapseQueue, .ports, .loans, .records, .meters, .notices, .hostMem]
  | .interimWriteEnd => [.part, .answers, .hostMem]
  | .exchangeAreaError _ =>
    [.part, .intake, .answers, .answerQueue, .ports, .arbiters, .records, .capture, .notices, .hostMem]

end Sys2Proof.Machine
end

