-- ==== Sys2Proof/Certificates/Slice0/Obligations.lean ====
section
/-! DEFINITION. The statements for the provers. An equation `exec c s = .next t` says that command c completes at s with t. -/

section Statements

open Sys2Proof Sys2Proof.Machine

/-! ## Steps, footprints, invariants -/

/-- A step takes the command at the front of the queue and runs it on the state with the queue's rest; on an empty queue one cycle of
the 1 MHz reference passes (the model's choice, log entry 2). -/
def Obligations.StepRunsTheFrontCommand : Prop :=
  (∀ (c : Instr) (rest : List Instr) (s : State), s.pending = c :: rest → step s = exec c { s with pending := rest })
    ∧ ∀ s : State, s.pending = [] → step s = .next s.microsecond

/-- Every command completes in every state, also where the event it names cannot take place and it has no effect (the model's choice, log
entry 13), and leaves the queue as it was (the model's own, log entry 21). -/
def Obligations.EveryCommandAnswersANextState : Prop :=
  ∀ (c : Instr) (s : State), ∃ t, exec c s = .next t ∧ t.pending = s.pending

/-- Every command leaves the parts of the state outside its footprint as they were. -/
def Obligations.CommandsKeepToTheirFootprints : Prop :=
  ∀ (c : Instr) (s t : State), exec c s = .next t → Touches (footprint c) s t

/-- The law of R3 is kept by every step: no two loans of the conflict set conflict. So is the form of the waiting lists: each holds a
loan at most once, and only WAITING loans of its bay (R8). -/
def Obligations.StepsKeepLoansFreeOfConflict : Prop :=
  (∀ s t : State, s.conflictFree → step s = .next t → t.conflictFree)
    ∧ ∀ s t : State, s.waitingListed → step s = .next t → t.waitingListed

/-- Every step keeps each cell at most once in the Held Cell set, and the cell of a take in progress out of it (R174 to R176); a held order
makes a transfer only when it has passed its format check, with the count it carries (R34). -/
def Obligations.StepsHoldACellOnce : Prop :=
  (∀ s t : State, s.heldOnce → step s = .next t → t.heldOnce)
    ∧ ∀ s t : State, s.heldOnce → s.ordersChecked → step s = .next t → t.ordersChecked

/-- Every step keeps the level flags at their queues and the interrupt under its condition (R191, R192, R194), and only LAPSING and LAPSED
loans in the Lapse Queue (R16; the waiting lists keep their form, R8). At every step at which the condition, a flag pending and enabled,
changes from false to true, whatever event it is, the interrupt is asserted and one message is sent; at every other step no message is
sent, and the interrupt stays as it was while the condition stays true (R194). The model counts the messages whether or not the host has
enabled them (log entry 6) and while the link is down too, and a link reset leaves the interrupt deasserted though the condition holds
(log entry 31); POWER_ON sets the count to 0. Within one answer ANSWER is set before LAPSE falls (log entry 33). -/
def Obligations.StepsKeepNoticesFollowing : Prop :=
  (∀ s t : State, s.noticesFollow → step s = .next t → t.noticesFollow)
  ∧ (∀ s t : State, s.waitingListed → s.lapseQueued → step s = .next t → t.lapseQueued)
  ∧ (∀ s t : State, s.noticesFollow → step s = .next t → s.notices.condition = false → t.notices.condition = true →
    t.notices.interrupt = true ∧ t.notices.messages = s.notices.messages + 1)
  ∧ ∀ s t : State, s.noticesFollow → s.lapseQueued → step s = .next t →
    s.notices.condition = true ∨ t.notices.condition = false →
    (s.pending.head? ≠ some .powerOn → t.notices.messages = s.notices.messages)
      ∧ (t.notices.condition = true → s.pending.head? ≠ some .linkReset → t.notices.interrupt = s.notices.interrupt)

/-- Every step keeps the model's data in canonical form: host memory by rising addresses of 64 bits, each table by rising numbers
(log entry 7 and log entry 15). -/
def Obligations.StepsKeepDataCanonical : Prop :=
  ∀ s t : State, s.memoryCanonical ∧ s.tablesOrdered → step s = .next t → t.memoryCanonical ∧ t.tablesOrdered

/-- Every step keeps the limits of the Post FIFO, the stray-post count, the base, the suppressed count and the record in flight
(R159, R170, R173, R174). -/
def Obligations.StepsKeepRegisterLimits : Prop :=
  ∀ s t : State, s.intakeLimits ∧ s.captureLimits → step s = .next t → t.intakeLimits ∧ t.captureLimits

/-! ## Resets and the link -/

/-- The values the spec states for power-on, block by block (R30, R77, R105, R118, R144, R150, R157, R169, R184, R188, R195, R196), read
with the link up (log entry 3); the laws that every step keeps hold there. -/
def Obligations.PowerOnValues : Prop :=
  State.reset.exchange.part = .bringup ∧ State.reset.exchange.base = 0 ∧ State.reset.readWindow 0x00 = some 0x00000A04
    ∧ State.reset.exchange.postFifo = [] ∧ State.reset.exchange.held = [] ∧ State.reset.exchange.answerList = []
    ∧ State.reset.exchange.answerQueue = [] ∧ State.reset.exchange.lapseQueue = [] ∧ State.reset.exchange.strayPosts = 0
    ∧ (∀ n, State.reset.loan n = .free) ∧ (∀ b, State.reset.waiting b = [])
    ∧ (∀ g, (State.reset.group g).weight = 16 ∧ (State.reset.group g).cap = 0 ∧ (State.reset.group g).pendingCap = none
        ∧ (State.reset.group g).capReached = false)
    ∧ (∀ b g, (State.reset.fifo b g).orders = [] ∧ (State.reset.fifo b g).lastFinish = 0)
    ∧ (∀ b, (State.reset.arbiter b).v = 0 ∧ (State.reset.arbiter b).h = 0 ∧ (State.reset.arbiter b).seekMin = 4000
        ∧ (State.reset.arbiter b).seekShift = 16 ∧ (State.reset.arbiter b).seekMax = 15000 ∧ (State.reset.arbiter b).rate = 48)
    ∧ (∀ k, State.reset.slot k = .free) ∧ State.reset.staging.residency = [] ∧ State.reset.staging.slotWait = []
    ∧ State.reset.engine.items = [] ∧ (∀ b, (State.reset.bay b).state = .empty ∧ (State.reset.bay b).capacity = 0)
    ∧ State.reset.clock.interval = 1000000 ∧ State.reset.clock.tickCount = 0 ∧ State.reset.clock.meterTicks = 60
    ∧ State.reset.meters.periodSeq = 0 ∧ (∀ g, State.reset.meter g = .zero)
    ∧ State.reset.capture.triggered = false ∧ State.reset.capture.sequence = 0 ∧ State.reset.capture.suppressed = 0
    ∧ State.reset.notices.flags = .clear ∧ State.reset.notices.enable = .clear ∧ State.reset.notices.interrupt = false
    ∧ State.reset.conflictFree ∧ State.reset.waitingListed ∧ State.reset.heldOnce ∧ State.reset.ordersChecked
    ∧ State.reset.noticesFollow ∧ State.reset.lapseQueued ∧ State.reset.memoryCanonical
    ∧ State.reset.tablesOrdered ∧ State.reset.intakeLimits ∧ State.reset.captureLimits

/-- Power-on puts the block at its power-on values, the link up with nothing read yet (log entry 3) and the end stamp of the last meter
period at 0 (log entry 5) among them, but for the lines, which are inputs, and for what stands outside it (log entry 4, log entry 7); the
end of BRINGUP marks the slots that failed their test BAD, makes a bay whose presence line is high PRESENT, and enters STOPPED (R102,
R144, R184); where it makes a bay PRESENT a Bay Summary rewrite is asked for (R121, R142; its number wraps to 0, log entry 38). -/
def Obligations.PowerOnAndBringup : Prop :=
  (∀ s : State, ∃ t, exec .powerOn s = .next t ∧ t.exchange = State.reset.exchange ∧ t.loans = State.reset.loans
    ∧ t.shares = State.reset.shares ∧ t.staging = State.reset.staging ∧ t.engine = State.reset.engine
    ∧ t.bays = { State.reset.bays with lines := s.bays.lines } ∧ t.clock = State.reset.clock ∧ t.meters = State.reset.meters
    ∧ t.capture = State.reset.capture ∧ t.notices = State.reset.notices ∧ t.link = State.reset.link ∧ t.hostMem = s.hostMem)
  ∧ (∀ (s : State) (bad : BitVec 256), s.exchange.part = .bringup →
    ∃ t, exec (.bringupEnd bad) s = .next t ∧ t.exchange.part = .stopped
      ∧ (∀ k, t.slot k = if bad.getLsbD k then { Slot.free with state := .bad } else .free)
      ∧ (∀ b, b < 24 → t.bay b = if (s.lines b).presence then { s.bay b with state := .present } else s.bay b)
      ∧ (∀ b, b < 24 → (s.lines b).presence = true → s.summaryAsked t)
      ∧ Touches [.part, .ports, .staging, .records] s t)

/-- A link reset makes the window unreachable, deasserts the interrupt, and requests a restart that BRINGUP and RESTARTING ignore; the
window is reached again when the link is up (R181, R187, R194), and the interrupt stays deasserted then (log entry 31). -/
def Obligations.LinkResetAndLinkUp : Prop :=
  (∀ s : State, ∃ t, exec .linkReset s = .next t ∧ t.link = { s.link with up := false }
    ∧ t.notices = { s.notices with interrupt := false }
    ∧ (s.exchange.part ≠ .bringup → s.exchange.part ≠ .restarting →
        t.exchange.part = .restarting ∧ t.exchange.resetCause = .linkReset ∧ t.exchange.sweep.active = false
          ∧ t.exchange.sweepTimer = 0 ∧ t.exchange.sweepTimerOn = false)
    ∧ (s.exchange.part = .bringup ∨ s.exchange.part = .restarting → t.exchange = s.exchange ∧ t.bays = s.bays)
    ∧ Touches [.link, .part, .intake, .arbiters, .records, .notices] s t)
  ∧ ∀ s : State, exec .linkUp s = .next { s with link := { s.link with up := true } }

/-- The end of a restart: RESTARTING ends when no access, no channel item, no outstanding command and no spin operation is left, and every
block then takes the restart effects of R31, R78, R105, R118, R145, R169, R188 and R195, a held Meter Block request and a Bay Summary
rewrite beginning where the part enters STOPPED with a base (its number wraps to 0, log entry 38); while one of these is left the command
has no effect (R187), nor has it in another part state (log entry 13). -/
def Obligations.RestartEffectsOfEveryBlock : Prop :=
  (∀ s : State, s.tablesOrdered → s.exchange.part = .restarting → s.exchange.answerBusy = false → s.exchange.take = none →
    s.exchange.sweep.reading = none → s.exchange.meterPort.inFlight = none → s.exchange.summaryPort.inFlight = none →
    s.capture.writing = none → (∀ it ∈ s.engine.items, it.channel = none) →
    (∀ b, b < 24 → (s.bay b).outstanding = [] ∧ (s.bay b).state ≠ .admitting ∧ (s.bay b).state ≠ .spinningUp
      ∧ (s.bay b).state ≠ .spinningDown) →
    ∃ t, exec .restartEffects s = .next t
      ∧ t.exchange.part = (if s.exchange.errorInRestart then .halted else .stopped)
      ∧ t.exchange.haltCause = (if s.exchange.errorInRestart then s.exchange.haltCause else .none)
      ∧ t.exchange.resetCause = s.exchange.resetCause ∧ t.exchange.control = { s.exchange.control with run := false }
      ∧ t.exchange.postFifo = [] ∧ t.exchange.strayPosts = 0 ∧ t.exchange.sweepTimer = 0 ∧ t.exchange.sweepTimerOn = false
      ∧ t.exchange.sweep = { active := false, reading := none } ∧ t.exchange.take = none ∧ t.exchange.answerBusy = false
      ∧ t.exchange.held = [] ∧ t.exchange.awaiting = [] ∧ t.exchange.answerList = [] ∧ t.exchange.answerQueue = []
      ∧ t.exchange.lapseQueue = []
      ∧ (s.exchange.errorInRestart = false → s.summaryAsked t ∧ (s.exchange.meterPort.held = true → s.meterAsked t)
          ∧ (s.exchange.meterPort.held = false → t.exchange.meterPort = s.exchange.meterPort))
      ∧ (s.exchange.errorInRestart = true → t.exchange.meterPort = s.exchange.meterPort
          ∧ t.exchange.summaryPort = s.exchange.summaryPort ∧ t.exchange.summarySeq = s.exchange.summarySeq)
      ∧ (∀ n, t.loan n = .free) ∧ (∀ b, t.waiting b = []) ∧ (∀ b g, t.fifo b g = .initial)
      ∧ (∀ b, b < 24 → t.arbiter b = { s.arbiter b with v := 0, h := 0, tags := [] })
      ∧ (∀ k, t.slot k = if (s.slot k).state = .bad then s.slot k else .free)
      ∧ t.staging.residency = [] ∧ t.staging.slotWait = [] ∧ t.engine.items = []
      ∧ (∀ b, b < 24 → t.bay b =
          { s.bay b with
            state := if (s.bay b).state = .retiring then .present else (s.bay b).state,
            capacity := if (s.bay b).state = .retiring then 0 else (s.bay b).capacity,
            spinUpPending := false, retirePending := false, admitCell := none, idleTicks := 0, readyLow := 0, sendList := [] })
      ∧ t.capture.triggered = false ∧ t.capture.suppressed = 0 ∧ t.capture.record = none
      ∧ t.capture.holdMask = s.capture.holdMask ∧ t.capture.autoRearm = s.capture.autoRearm
      ∧ t.capture.sequence = s.capture.sequence
      ∧ t.notices.flags = .clear ∧ t.notices.enable = .clear ∧ t.notices.interrupt = false
      ∧ Touches [.part, .control, .intake, .held, .awaiting, .answers, .answerQueue, .lapseQueue, .ports, .loans, .fifos, .arbiters,
          .staging, .engine, .records, .capture, .notices] s t)
  ∧ (∀ s : State, s.exchange.part = .restarting →
    (s.exchange.answerBusy = true ∨ s.exchange.take ≠ none ∨ s.exchange.sweep.reading ≠ none ∨ s.exchange.meterPort.inFlight ≠ none
      ∨ s.exchange.summaryPort.inFlight ≠ none ∨ s.capture.writing ≠ none ∨ (∃ it ∈ s.engine.items, it.channel ≠ none)
      ∨ ∃ b, b < 24 ∧ ((s.bay b).outstanding ≠ [] ∨ (s.bay b).state ∈ [.admitting, .spinningUp, .spinningDown])) →
    exec .restartEffects s = .next s)
  ∧ ∀ s : State, s.exchange.part ≠ .restarting → exec .restartEffects s = .next s

/-! ## Register writes and reads -/

/-- Every write of CONTROL that reaches the part stores RUN, INTAKE_MODE (3 as BOTH), ANSWER_MODE and SWEEP_MS together, and CONTROL
then reads so, RESTART as 0; one made in BRINGUP or with the link down changes nothing (R181, R182, R196). That six rows are writes of
CONTROL and each carries the whole word is log entry 20. -/
def Obligations.ControlWritesStoreTheirFields : Prop :=
  ∀ (c : Instr) (w : Word) (s : State), c ∈ [.restart w, .run w, .runStop w, .intakeMode w, .answerMode w, .sweepMs w] →
    (s.link.up = true → s.exchange.part ≠ .bringup →
      ∃ t, exec c s = .next t ∧ t.exchange.control.run = w.getLsbD 0
        ∧ (w.extractLsb' 1 2 = 0 → t.exchange.control.intake = .notified)
        ∧ (w.extractLsb' 1 2 = 1 → t.exchange.control.intake = .swept)
        ∧ (w.extractLsb' 1 2 = 2 ∨ w.extractLsb' 1 2 = 3 → t.exchange.control.intake = .both)
        ∧ t.exchange.control.answerMode = (if w.getLsbD 3 then .first else .each)
        ∧ t.exchange.control.sweepMs = w.extractLsb' 8 8
        ∧ ∃ r, t.readWindow 0x00 = some r ∧ r.getLsbD 0 = w.getLsbD 0
            ∧ r.extractLsb' 1 2 = (if w.extractLsb' 1 2 = 3 then 2 else w.extractLsb' 1 2) ∧ r.getLsbD 3 = w.getLsbD 3
            ∧ r.extractLsb' 8 8 = w.extractLsb' 8 8 ∧ r &&& 0xFFFF00F0#32 = 0)
    ∧ (s.link.up = false ∨ s.exchange.part = .bringup → exec c s = .next s)

/-- RUN 1 makes a STOPPED part with a base RUNNING and a STOPPING part RUNNING again, and starts the sweep timer unless the intake is
NOTIFIED; with no base the part stays STOPPED. RUN 0 makes a RUNNING part STOPPING, or STOPPED when nothing is held, no answer is to be
written and (log entry 14) no take is in progress; the sweep ends and its timer stops (R175, R184, R185). -/
def Obligations.RunStartsAndStopsThePart : Prop :=
  (∀ (s : State) (w : Word), s.link.up = true → w.getLsbD 0 = true → w.getLsbD 31 = false →
    (s.exchange.part = .stopped ∧ s.exchange.base ≠ 0) ∨ s.exchange.part = .stopping →
    ∃ t, exec (.run w) s = .next t ∧ t.exchange.part = .running
      ∧ (t.exchange.control.intake ≠ .notified → t.exchange.sweepTimer = 0 ∧ t.exchange.sweepTimerOn = true))
  ∧ (∀ (s : State) (w : Word), s.link.up = true → w.getLsbD 0 = true → w.getLsbD 31 = false →
    s.exchange.part = .stopped → s.exchange.base = 0 →
    ∃ t, exec (.run w) s = .next t ∧ t.exchange.part = .stopped ∧ t.exchange.control.run = true)
  ∧ ∀ (s : State) (w : Word), s.link.up = true → w.getLsbD 0 = false → w.getLsbD 31 = false → s.exchange.part = .running →
    ∃ t, exec (.runStop w) s = .next t
      ∧ t.exchange.part = (if s.exchange.held = [] ∧ s.exchange.answerList = [] ∧ s.exchange.take = none then .stopped else .stopping)
      ∧ t.exchange.sweep.active = false ∧ t.exchange.sweepTimer = 0 ∧ t.exchange.sweepTimerOn = false
      ∧ t.exchange.held = s.exchange.held ∧ t.exchange.postFifo = s.exchange.postFifo ∧ t.exchange.take = s.exchange.take

/-- A change of ANSWER_MODE to EACH makes the ANSWER flag follow the queue, any other write leaves it; INTAKE_MODE to NOTIFIED ends the
sweep and stops the timer, and from NOTIFIED starts it while RUNNING; a change of SWEEP_MS sets the timer to 0 (R175, R192). -/
def Obligations.ModeWritesActAtOnce : Prop :=
  (∀ (s : State) (w : Word), s.link.up = true → s.exchange.part ≠ .bringup →
    ∃ t, exec (.answerMode w) s = .next t ∧ t.notices.flags = { s.notices.flags with
      answer := if w.getLsbD 3 = false ∧ s.exchange.control.answerMode = .first then !s.exchange.answerQueue.isEmpty
                else s.notices.flags.answer })
  ∧ (∀ (s : State) (w : Word), s.link.up = true → s.exchange.part = .running → w.getLsbD 0 = true → w.getLsbD 31 = false →
    ∃ t, exec (.intakeMode w) s = .next t ∧ t.exchange.part = .running
      ∧ (s.exchange.control.intake ≠ .notified → w.extractLsb' 1 2 = 0 →
          t.exchange.sweep.active = false ∧ t.exchange.sweepTimer = 0 ∧ t.exchange.sweepTimerOn = false)
      ∧ (s.exchange.control.intake = .notified → w.extractLsb' 1 2 ≠ 0 →
          t.exchange.sweepTimer = 0 ∧ t.exchange.sweepTimerOn = true))
  ∧ ∀ (s : State) (w : Word), s.link.up = true → s.exchange.part ≠ .bringup → w.extractLsb' 8 8 ≠ s.exchange.control.sweepMs →
    ∃ t, exec (.sweepMs w) s = .next t ∧ t.exchange.sweepTimer = 0

/-- RESTART 1, written in STOPPED, RUNNING, STOPPING or HALTED, brings the part into RESTARTING with cause RESTART_WRITE: the sweep
ends, and no send list keeps a command but the STANDBY of a spin-down already begun (R143, R182, R187; that this STANDBY stays, where
R143 empties the list and lets the spin-down run to its end, is log entry 11). -/
def Obligations.RestartWriteEntersRestarting : Prop :=
  ∀ (s : State) (w : Word), s.link.up = true → s.exchange.part ≠ .bringup → s.exchange.part ≠ .restarting → w.getLsbD 31 = true →
    ∃ t, exec (.restart w) s = .next t ∧ t.exchange.part = .restarting ∧ t.exchange.resetCause = .restartWrite
      ∧ t.exchange.sweep.active = false ∧ t.exchange.sweepTimer = 0 ∧ t.exchange.sweepTimerOn = false
      ∧ (∀ b, b < 24 → ∀ c ∈ (t.bay b).sendList, (s.bay b).state = .spinningDown ∧ c.kind = .standby)
      ∧ t.exchange.held = s.exchange.held ∧ t.exchange.postFifo = s.exchange.postFifo

/-- A base word written in STOPPED is stored, its low 12 bits as 0, and starts the part when RUN is 1 and the base is then not 0; one
written in another state, or to a word that takes no write, changes nothing (R170, R181, R184). The two words of EXCHANGE_BASE read as the
base stands, STATUS reads the six fields of R183, a word outside the nine reads 0, and nothing is read while the link is down (R181, R183,
R196). -/
def Obligations.BaseWritesAndIgnoredWrites : Prop :=
  (∀ (s : State) (high : Bool) (w : Word), s.link.up = true → s.exchange.part = .stopped →
    ∃ t, exec (.exchangeBase high w) s = .next t
      ∧ t.exchange.base.extractLsb' 32 32 = (if high then w else s.exchange.base.extractLsb' 32 32)
      ∧ t.exchange.base.extractLsb' 0 32 = (if high then s.exchange.base.extractLsb' 0 32 else w &&& 0xFFFFF000#32)
      ∧ t.exchange.part = (if s.exchange.control.run = true ∧ t.exchange.base ≠ 0 then .running else .stopped)
      ∧ Touches [.part, .base, .intake, .ports] s t)
  ∧ (∀ (s : State) (high : Bool) (w : Word), s.link.up = false ∨ s.exchange.part ≠ .stopped →
    exec (.exchangeBase high w) s = .next s)
  ∧ (∀ (s : State) (offset : BitVec 12) (w : Word), exec (.registerWriteIgnored offset w) s = .next s)
  ∧ (∀ s : State, s.link.up = true →
    s.readWindow 0x08 = some (s.exchange.base.extractLsb' 0 32) ∧ s.readWindow 0x0C = some (s.exchange.base.extractLsb' 32 32)
      ∧ (s.intakeLimits → ∃ r, s.readWindow 0x04 = some r
          ∧ [PartState.bringup, .stopped, .running, .stopping, .restarting, .halted][(r.extractLsb' 0 3).toNat]? = some s.exchange.part
          ∧ [ResetCause.powerOn, .restartWrite, .linkReset][(r.extractLsb' 3 2).toNat]? = some s.exchange.resetCause
          ∧ [HaltCause.none, .cell, .answer, .faultRecord, .meterBlock, .baySummary][(r.extractLsb' 5 3).toNat]?
              = some s.exchange.haltCause
          ∧ (r.extractLsb' 8 7).toNat = s.exchange.postFifo.length
          ∧ (r.extractLsb' 15 9).toNat = min 511 s.exchange.answerQueue.length
          ∧ (r.extractLsb' 24 8).toNat = s.exchange.strayPosts)
      ∧ ∀ offset, offset ∉ [0x00, 0x04, 0x08, 0x0C, 0x10, 0x14, 0x18, 0x1C, 0x20] → s.readWindow offset = some 0)
  ∧ ∀ (s : State) (offset : Nat), s.link.up = false → s.readWindow offset = none

/-- A write of POST appends the low 16 bits to a Post FIFO that is not full, and asks for POST_OVERFLOW where it is full; it is ignored
in SWEPT, in BRINGUP, RESTARTING and HALTED, and with the link down. A read of POST returns 0 (R173, R181). -/
def Obligations.PostWrites : Prop :=
  (∀ (s : State) (w : Word), s.link.up = true →
    (s.exchange.part = .stopped ∨ s.exchange.part = .running ∨ s.exchange.part = .stopping) → s.exchange.control.intake ≠ .swept →
    (s.exchange.postFifo.length < 64 →
      exec (.post w) s = .next { s with exchange := { s.exchange with
        postFifo := s.exchange.postFifo ++ [(w.extractLsb' 0 16).toNat] } })
    ∧ (64 ≤ s.exchange.postFifo.length →
      ∃ t, exec (.post w) s = .next t ∧ t.notices.flags = { s.notices.flags with postOverflow := true } ∧ Touches [.notices] s t))
  ∧ (∀ (s : State) (w : Word), s.link.up = false ∨ s.exchange.control.intake = .swept ∨ s.exchange.part = .bringup
      ∨ s.exchange.part = .restarting ∨ s.exchange.part = .halted → exec (.post w) s = .next s)
  ∧ ∀ s : State, s.link.up = true → s.readWindow 0x10 = some 0

/-- A read of ANSWER, or of LAPSE, in STOPPED, RUNNING, STOPPING or HALTED returns and removes the oldest entry of its queue, or returns
0xFFFF, and its flag is re-evaluated; in BRINGUP and RESTARTING it returns 0xFFFF and changes nothing else (R179, R180, R191, R192). -/
def Obligations.QueueReadsPop : Prop :=
  (∀ s : State, s.link.up = true → s.exchange.part ≠ .bringup → s.exchange.part ≠ .restarting →
    ∃ t u, exec .answer s = .next t ∧ exec .lapse s = .next u
      ∧ t.exchange.answerQueue = s.exchange.answerQueue.drop 1
      ∧ t.link.lastRead = some ((s.exchange.answerQueue.head?.map (BitVec.ofNat 32)).getD 0xFFFF)
      ∧ (s.exchange.answerQueue ≠ [] → t.notices.flags = { s.notices.flags with
          answer := if s.exchange.control.answerMode = .each then !(s.exchange.answerQueue.drop 1).isEmpty
                    else s.notices.flags.answer })
      ∧ (s.exchange.answerQueue = [] → t.notices = s.notices)
      ∧ u.exchange.lapseQueue = s.exchange.lapseQueue.drop 1
      ∧ u.link.lastRead = some ((s.exchange.lapseQueue.head?.map (BitVec.ofNat 32)).getD 0xFFFF)
      ∧ (s.exchange.lapseQueue ≠ [] → u.notices.flags = { s.notices.flags with lapse := !(s.exchange.lapseQueue.drop 1).isEmpty })
      ∧ (s.exchange.lapseQueue = [] → u.notices = s.notices))
  ∧ ∀ s : State, s.link.up = true → s.exchange.part = .bringup ∨ s.exchange.part = .restarting →
    exec .answer s = .next { s with link := { s.link with lastRead := some 0xFFFF } }
      ∧ exec .lapse s = .next { s with link := { s.link with lastRead := some 0xFFFF } }

/-- A write of NOTICE clears the event flags written 1 and no other, a write of NOTICE_ENABLE takes the six enables, and the interrupt is
re-evaluated: asserted when the condition (a flag pending and enabled) becomes true, deasserted when it becomes false, left as it is
otherwise (R193, R194); so after a link reset it stays deasserted while the condition still holds, the model's choice (log entry 31). One
message is counted at each change from false to true, whether or not the host has enabled messages, also the model's choice (log entry 6).
NOTICE reads the flags pending and enabled with the lowest cause number among them, NOTICE_ENABLE the six enables (R193, R196). -/
def Obligations.NoticeWrites : Prop :=
  (∀ n : Notices, n.condition = (n.flags.fault && n.enable.fault || n.flags.bay && n.enable.bay || n.flags.lapse && n.enable.lapse
    || n.flags.answer && n.enable.answer || n.flags.meter && n.enable.meter || n.flags.postOverflow && n.enable.postOverflow))
  ∧ (∀ (s : State) (w : Word), s.link.up = true → s.exchange.part ≠ .bringup →
    ∃ t u, exec (.notice w) s = .next t ∧ exec (.noticeEnable w) s = .next u
      ∧ t.notices.enable = s.notices.enable ∧ t.notices.flags.lapse = s.notices.flags.lapse
      ∧ t.notices.flags.fault = (s.notices.flags.fault && !w.getLsbD 0) ∧ t.notices.flags.bay = (s.notices.flags.bay && !w.getLsbD 1)
      ∧ t.notices.flags.answer = (s.notices.flags.answer && !(w.getLsbD 3 && s.exchange.control.answerMode == .first))
      ∧ t.notices.flags.meter = (s.notices.flags.meter && !w.getLsbD 4)
      ∧ t.notices.flags.postOverflow = (s.notices.flags.postOverflow && !w.getLsbD 5)
      ∧ u.notices.flags = s.notices.flags
      ∧ u.notices.enable = { fault := w.getLsbD 0, bay := w.getLsbD 1, lapse := w.getLsbD 2, answer := w.getLsbD 3,
                             meter := w.getLsbD 4, postOverflow := w.getLsbD 5 }
      ∧ (∀ v ∈ [t, u], v.notices.interrupt
            = (v.notices.condition && (!s.notices.condition || s.notices.interrupt))
          ∧ v.notices.messages = s.notices.messages + (if v.notices.condition && !s.notices.condition then 1 else 0)
          ∧ Touches [.notices] s v))
  ∧ (∀ (s : State) (w : Word), s.link.up = false ∨ s.exchange.part = .bringup →
    exec (.notice w) s = .next s ∧ exec (.noticeEnable w) s = .next s)
  ∧ ∀ s : State, s.link.up = true →
    (let n := s.notices
     let shown := [n.flags.fault && n.enable.fault, n.flags.bay && n.enable.bay, n.flags.lapse && n.enable.lapse,
                   n.flags.answer && n.enable.answer, n.flags.meter && n.enable.meter,
                   n.flags.postOverflow && n.enable.postOverflow]
     let enables := [n.enable.fault, n.enable.bay, n.enable.lapse, n.enable.answer, n.enable.meter, n.enable.postOverflow]
     ∃ r e, s.readWindow 0x1C = some r ∧ s.readWindow 0x20 = some e
      ∧ (∀ i, i < 6 → shown[i]? = some (r.getLsbD i) ∧ enables[i]? = some (e.getLsbD i))
      ∧ (r.extractLsb' 8 3).toNat = (if shown.contains true then shown.idxOf true + 1 else 0)
      ∧ r &&& 0xFFFFF8C0#32 = 0 ∧ e &&& 0xFFFFFFC0#32 = 0)

/-! ## Intake -/

/-- The oldest Post FIFO entry is removed while RUNNING: a number of 1024 or above, or one that is held, counts as stray up to 255; else
the read of the cell begins (R174). -/
def Obligations.PostFifoEntriesAreTakenOldestFirst : Prop :=
  ∀ (s : State) (c : Nat) (rest : List Nat), s.exchange.part = .running → s.exchange.take = none → s.exchange.postFifo = c :: rest →
    (1024 ≤ c ∨ s.isHeld c = true → exec .postFifoIntake s = .next { s with exchange := { s.exchange with
      postFifo := rest, strayPosts := min 255 (s.exchange.strayPosts + 1) } })
    ∧ (c < 1024 → s.isHeld c = false → exec .postFifoIntake s = .next { s with exchange := { s.exchange with
      postFifo := rest, take := some { cell := c, bySweep := false } } })

/-- A sweep begins with the lowest cell that is not held, its timer at 0 and stopped; a visit of a POSTED cell leads to a take, after the
take in progress where there is one, a visit of any other cell to the next cell that is not held; behind the last cell the sweep ends and
the timer starts again (R175). Where the read that an ended sweep left behind is still in flight, the new sweep makes its first visit when
that read has ended (log entry 25). -/
def Obligations.SweepsVisitEveryCellNotHeld : Prop :=
  (∀ s : State, s.exchange.part = .running → s.exchange.control.intake ≠ .notified → s.exchange.sweep.active = false →
    (∀ c, s.exchange.sweep.reading = none → c < 1024 → s.isHeld c = false → (∀ d, d < c → s.isHeld d = true) →
      exec .sweep s = .next { s with exchange := { s.exchange with
        sweepTimer := 0, sweepTimerOn := false, sweep := { active := true, reading := some c } } })
    ∧ (s.exchange.sweep.reading ≠ none → exec .sweep s = .next { s with exchange := { s.exchange with
        sweepTimer := 0, sweepTimerOn := false, sweep := { s.exchange.sweep with active := true, leftover := true } } }))
  ∧ (∀ (s : State) (c : Nat) (lead : BitVec 64), s.exchange.sweep.active = true → s.exchange.sweep.reading = some c →
    s.exchange.sweep.leftover = false →
    (lead.extractLsb' 0 8 = 1 → s.isHeld c = false →
      (s.exchange.take = none → exec (.sweepVisit lead) s = .next { s with exchange := { s.exchange with
        sweep := { active := true, reading := none }, take := some { cell := c, bySweep := true } } })
      ∧ (s.exchange.take ≠ none → exec (.sweepVisit lead) s = .next { s with exchange := { s.exchange with
        sweep := { active := true, reading := none, waiting := some c } } }))
    ∧ (lead.extractLsb' 0 8 ≠ 1 ∨ s.isHeld c = true →
      (∀ n, c < n → n < 1024 → s.isHeld n = false → (∀ d, c < d → d < n → s.isHeld d = true) →
        exec (.sweepVisit lead) s = .next { s with exchange := { s.exchange with sweep := { active := true, reading := some n } } })
      ∧ ((∀ d, c < d → d < 1024 → s.isHeld d = true) →
        exec (.sweepVisit lead) s = .next { s with exchange := { s.exchange with
          sweep := { active := false, reading := none }, sweepTimer := 0, sweepTimerOn := true } })))
  ∧ ∀ (s : State) (lead : BitVec 64), s.exchange.sweep.reading ≠ none →
    (s.exchange.sweep.active = false → exec (.sweepVisit lead) s = .next { s with exchange := { s.exchange with
      sweep := { active := false, reading := none } } })
    ∧ ∀ n, s.exchange.sweep.active = true → s.exchange.sweep.leftover = true → n < 1024 → s.isHeld n = false →
      (∀ d, d < n → s.isHeld d = true) →
      exec (.sweepVisit lead) s = .next { s with exchange := { s.exchange with sweep := { active := true, reading := some n } } }

/-- A take of a POSTED cell writes TAKEN into its hand, removes the cell from the Answer Queue (in RESTARTING the queue keeps its entries,
R195, log entry 11) and holds its copy; the order awaits validation, or is answered FORMAT when its kind is not defined (1) or its node is
above 250 (2; for LOAN_OPEN 0, by its own rule R5, log entry 22; that of a LOAN_QUERY without a snapshot, log entry 32). A cell that is
not POSTED is not held, and counts as stray where the Post FIFO named it; the end of its take ends STOPPING where nothing else is held,
answered or taken (R185, log entry 14). A sweep goes on behind the cell it took; a cell it found POSTED meanwhile is taken next (R174 to
R177), its take beginning at the end of the take before it, ahead of the Post FIFO (the model's reading, log entry 25). -/
def Obligations.TakesHoldPostedCells : Prop :=
  (∀ (s : State) (k : Take) (copy : BitVec 1024), s.exchange.take = some k → copy.extractLsb' 0 8 = 1 →
    ∃ t, exec (.take copy) s = .next t ∧ t.exchange.part = s.exchange.part
      ∧ t.exchange.held = s.exchange.held ++ [{ cell := k.cell, copy := copy, transfer := none }]
      ∧ t.exchange.answerQueue = (if s.exchange.part = .restarting then s.exchange.answerQueue
          else s.exchange.answerQueue.filter (fun c => c != k.cell))
      ∧ Memory.read t.hostMem (s.cellAddress k.cell 0 % 18446744073709551616) = some 2
      ∧ s.otherBytes t (s.cellAddress k.cell 0) 1
      ∧ (∀ kind, Copy.kind copy = some kind → Copy.node copy ≤ 250 →
          t.exchange.awaiting = s.exchange.awaiting ++ [k.cell] ∧ s.answered t [])
      ∧ (∀ kind, Copy.kind copy = some kind → 250 < Copy.node copy →
          t.exchange.awaiting = s.exchange.awaiting ∧ s.answered t [plain k.cell .format (if kind = .loanOpen then 0 else 2)])
      ∧ (Copy.kind copy = none → t.exchange.awaiting = s.exchange.awaiting ∧ s.answered t [plain k.cell .format 1])
      ∧ (s.exchange.part = .restarting → t.notices = s.notices)
      ∧ Touches [.intake, .held, .awaiting, .answers, .answerQueue, .notices, .hostMem] s t)
  ∧ (∀ (s : State) (k : Take) (copy : BitVec 1024), s.exchange.take = some k → copy.extractLsb' 0 8 ≠ 1 →
    ∃ t, exec (.take copy) s = .next t ∧ t.exchange.held = s.exchange.held
      ∧ t.exchange.strayPosts = (if k.bySweep then s.exchange.strayPosts else min 255 (s.exchange.strayPosts + 1))
      ∧ s.stopsOnceEmpty t
      ∧ Touches [.part, .intake] s t)
  ∧ ∀ (s : State) (k : Take) (copy : BitVec 1024), s.exchange.take = some k →
    ∃ t, exec (.take copy) s = .next t
      ∧ (s.exchange.sweep.waiting = none → t.exchange.take = none)
      ∧ (s.exchange.sweep.waiting = none → k.bySweep = false ∨ s.exchange.sweep.active = false →
          t.exchange.sweep = s.exchange.sweep ∧ t.exchange.sweepTimer = s.exchange.sweepTimer)
      ∧ (∀ n, s.exchange.sweep.waiting = none → k.bySweep = true → s.exchange.sweep.active = true →
          s.exchange.sweep.reading = none → k.cell < n → n < 1024 → s.isHeld n = false →
          (∀ d, k.cell < d → d < n → s.isHeld d = true) → t.exchange.sweep = { active := true, reading := some n })
      ∧ (∀ c, s.exchange.sweep.waiting = some c → c ≠ k.cell → s.isHeld c = false →
          t.exchange.take = some { cell := c, bySweep := true } ∧ t.exchange.sweep = { active := true, reading := none })

/-! ## Loan orders -/

/-- The order kinds fall to owners, and each owner is handed its orders in the order they were taken: an order is handed over while the
part is RUNNING or STOPPING, and no order of the same owner awaits validation before it (R177; which kinds share an owner is read as in
log entry 19). An order that its owner is handed leaves the place 'awaiting validation'; where no such order is handed over the command
has no effect (log entry 13). -/
def Obligations.HandledOrdersLeaveTheWaitingPlace : Prop :=
  (∀ j k : OrderKind, j.owner = k.owner ↔ ∃ kinds : List OrderKind, kinds ∈ [
      [.loanOpen, .loanRenew, .loanReturn, .loanQuery, .read, .write, .appendWrite], [.serviceRead, .serviceWrite],
      [.groupSet, .diskSet], [.clockSet], [.bayAdmit, .bayRetire, .bayWatch], [.slotFlush], [.holdSet, .faultClear]]
    ∧ j ∈ kinds ∧ k ∈ kinds)
  ∧ ∀ (k : OrderKind) (cell : Fin 1024) (s : State),
    (∀ o, s.handed k cell = some o ↔
      s.exchange.part ∈ [.running, .stopping] ∧ s.order? cell = some o ∧ Copy.kind o.copy = some k
        ∧ ∃ before behind, s.exchange.awaiting = before ++ cell.val :: behind
          ∧ ∀ c ∈ before, ∀ q j, s.order? c = some q → Copy.kind q.copy = some j → j.owner ≠ k.owner)
    ∧ (∀ o, s.handed k cell = some o →
      ∃ t, exec (k.command cell) s = .next t ∧ t.exchange.awaiting = s.exchange.awaiting.filter (fun c => c != cell.val)
        ∧ Copy.kind o.copy = some k ∧ s.order? cell = some o)
    ∧ (s.handed k cell = none → exec (k.command cell) s = .next s)

/-- A LOAN_OPEN that passes R5 and conflicts with no loan of the conflict set and none that waits is granted the lowest-numbered FREE
entry and answered OK with its number (R2, R4, R6, R7, R106). -/
def Obligations.LoanOpenIsGranted : Prop :=
  ∀ (s : State) (cell : Fin 1024) (o : HeldOrder) (c : Copy) (mode : LoanMode) (n : Nat),
    s.handed .loanOpen cell = some o → o.copy = c → 1 ≤ c.node → c.node ≤ 250 → c.group < 16 → c.bay < 24 →
    c.loanMode = some mode → c.count ≠ 0 → (mode = .append → 1 ≤ c.frameBlocks ∧ c.frameBlocks ≤ 256) →
    (s.bay c.bay).state ∈ [.online, .spunDown, .spinningDown, .spinningUp] → c.first + c.count ≤ (s.bay c.bay).capacity →
    n < 512 → (s.loan n).state = .free → (∀ m, m < n → (s.loan m).state ≠ .free) →
    (∀ m, (s.loan m).state.inConflictSet = true → conflicts (s.loan m) c.newLoan = false) →
    (∀ m ∈ s.waiting c.bay, conflicts (s.loan m) c.newLoan = false) →
    ∃ t, exec (.loanOpen cell) s = .next t
      ∧ t.loan n = { state := .held, node := c.node, group := c.group, bay := c.bay, first := c.first, count := c.count,
                     mode := mode, term := max 1 (c.field 22 2), wait := 0, openingCell := none, returnCell := none, inFlight := 0,
                     faultCause := .none,
                     append := if mode = .append then
                         some { frameBlocks := c.frameBlocks, framesDone := 0, blocksIntoFrame := 0, reserved := 0,
                                broken := false, breakPoint := none, reservations := [] }
                       else none }
      ∧ s.otherLoans t n ∧ t.loans.waiting = s.loans.waiting ∧ s.answered t [plain cell .ok n]
      ∧ Touches [.awaiting, .answers, .loans, .ports] s t

/-- A LOAN_OPEN is answered by the first check of R5 that fails: FORMAT, DISK_FAULT, DISK_UNAVAILABLE with the bay's state code, RANGE,
TABLE_FULL. Nothing else changes. (The detail 0 of DISK_FAULT is the model's reading, log entry 22.) -/
def Obligations.LoanOpenIsRefused : Prop :=
  ∀ (s : State) (cell : Fin 1024) (o : HeldOrder) (c : Copy), s.handed .loanOpen cell = some o → o.copy = c →
    ∀ answer : AnswerWrite,
    ((¬(1 ≤ c.node ∧ c.node ≤ 250) ∨ 16 ≤ c.group ∨ 24 ≤ c.bay ∨ c.loanMode = none ∨ c.count = 0
        ∨ (c.loanMode = some .append ∧ ¬(1 ≤ c.frameBlocks ∧ c.frameBlocks ≤ 256))) ∧ answer = plain cell .format 0)
    ∨ (c.openFormatOk = true ∧ (s.bay c.bay).state = .faulted ∧ answer = plain cell .diskFault 0)
    ∨ (c.openFormatOk = true ∧ (s.bay c.bay).state ∈ [.empty, .present, .admitting, .retiring]
        ∧ answer = plain cell .diskUnavailable (s.bay c.bay).state.code)
    ∨ (c.openFormatOk = true ∧ (s.bay c.bay).state ∈ [.online, .spunDown, .spinningDown, .spinningUp]
        ∧ (s.bay c.bay).capacity < c.first + c.count ∧ answer = plain cell .range 0)
    ∨ (c.openFormatOk = true ∧ (s.bay c.bay).state ∈ [.online, .spunDown, .spinningDown, .spinningUp]
        ∧ c.first + c.count ≤ (s.bay c.bay).capacity ∧ (∀ n, n < 512 → (s.loan n).state ≠ .free)
        ∧ answer = plain cell .tableFull 0) →
    ∃ t, exec (.loanOpen cell) s = .next t ∧ s.answered t [answer] ∧ Touches [.awaiting, .answers, .ports] s t

/-- A LOAN_OPEN that passes R5 and conflicts is answered CONFLICT with the lowest conflicting number when its wait limit is 0; else its
entry waits at the tail of its bay's list, and its number is written into the opening cell (R6, R7). -/
def Obligations.LoanOpenWaitsOrConflicts : Prop :=
  ∀ (s : State) (cell : Fin 1024) (o : HeldOrder) (c : Copy) (n m : Nat),
    s.handed .loanOpen cell = some o → o.copy = c → c.openFormatOk = true →
    (s.bay c.bay).state ∈ [.online, .spunDown, .spinningDown, .spinningUp] → c.first + c.count ≤ (s.bay c.bay).capacity →
    n < 512 → (s.loan n).state = .free → (∀ j, j < n → (s.loan j).state ≠ .free) →
    (let inTheWay := fun j => ((s.loan j).state.inConflictSet = true ∨ j ∈ s.waiting c.bay) ∧ conflicts (s.loan j) c.newLoan = true
     inTheWay m ∧ ∀ j, inTheWay j → m ≤ j) →
    (c.waitLimit = 0 → ∃ t, exec (.loanOpen cell) s = .next t ∧ s.answered t [plain cell .conflict m]
      ∧ Touches [.awaiting, .answers, .ports] s t)
    ∧ (c.waitLimit ≠ 0 → ∃ t, exec (.loanOpen cell) s = .next t
      ∧ t.loan n = { c.newLoan with state := .waiting, wait := c.waitLimit, openingCell := some cell.val }
      ∧ s.otherLoans t n ∧ t.waiting c.bay = s.waiting c.bay ++ [n] ∧ (∀ b, b ≠ c.bay → t.waiting b = s.waiting b)
      ∧ s.answered t [.interim cell n] ∧ Touches [.awaiting, .answers, .loans, .ports] s t)

/-- The table of R17. A LOAN_RENEW sets the term of a HELD loan of its own node and answers OK with it; TOO_LATE of a LAPSING or LAPSED
loan and DISK_FAULT of a FAULTED one carry the term as it stands (for DISK_FAULT R17 is followed, not R120, log entry 35); every other
loan is answered NO_LOAN with the number carried. -/
def Obligations.LoanRenewAnswersByTheEntry : Prop :=
  ∀ (s : State) (cell : Fin 1024) (o : HeldOrder) (c : Copy), s.handed .loanRenew cell = some o → o.copy = c →
    ∃ t, exec (.loanRenew cell) s = .next t ∧ s.otherLoans t c.loan ∧ t.loans.waiting = s.loans.waiting
      ∧ ((512 ≤ c.loan ∨ (s.loan c.loan).state ∈ [.free, .waiting, .returning] ∨ (s.loan c.loan).node ≠ c.node) →
          t.loans = s.loans ∧ s.answered t [plain cell .noLoan c.loan])
      ∧ (c.loan < 512 → (s.loan c.loan).node = c.node →
          ((s.loan c.loan).state = .held →
            t.loan c.loan = { s.loan c.loan with term := max 1 (c.field 22 2) }
              ∧ s.answered t [plain cell .ok (max 1 (c.field 22 2))])
          ∧ ((s.loan c.loan).state ∈ [.lapsing, .lapsed] →
            t.loans = s.loans ∧ s.answered t [plain cell .tooLate (s.loan c.loan).term])
          ∧ ((s.loan c.loan).state = .faulted →
            t.loans = s.loans ∧ s.answered t [plain cell .diskFault (s.loan c.loan).term]))
      ∧ Touches [.awaiting, .answers, .loans, .ports] s t

/-- A LOAN_RETURN by the loan's node frees a HELD, LAPSED or FAULTED loan that nothing is in flight under and answers OK; it cancels a
WAITING loan, whose opening cell is answered CANCELLED first; it is held while transfers are in flight; any other is answered NO_LOAN
(R19 to R23). A loan of the conflict set that is freed, and a cancel, lead to the examination of the bay's waiting list: each loan that
conflicts with no loan of the conflict set and with none ahead of it is HELD, leaves the list, and its opening cell is answered OK behind,
in list order; no other loan changes (R9). Where the loan was the last of a RETIRING bay without work, its final STANDBY is sent (R135);
the number of this send and the count of the bay's sends are the model's own (log entry 16). -/
def Obligations.LoanReturnFreesOrWaits : Prop :=
  (∀ (s : State) (n : Nat), (s.freeLoan n).loan n = .free ∧ s.otherLoans (s.freeLoan n) n
    ∧ (s.freeLoan n).waiting (s.loan n).bay = (s.waiting (s.loan n).bay).filter (fun m => m != n)
    ∧ ∀ b, b ≠ (s.loan n).bay → (s.freeLoan n).waiting b = s.waiting b)
  ∧ ∀ (s : State) (cell : Fin 1024) (o : HeldOrder) (c : Copy) (l : Loan), s.handed .loanReturn cell = some o → o.copy = c →
    s.loan c.loan = l →
    (512 ≤ c.loan ∨ l.state = .free ∨ l.state = .returning ∨ l.node ≠ c.node ∨ l.returnCell ≠ none →
      ∃ t, exec (.loanReturn cell) s = .next t ∧ s.answered t [plain cell .noLoan c.loan] ∧ t.loans = s.loans
        ∧ Touches [.awaiting, .answers, .ports] s t)
    ∧ (c.loan < 512 → l.node = c.node → l.returnCell = none →
      (l.state ∈ [.held, .lapsed, .faulted] → (l.inFlight = 0 ∨ l.state = .lapsed) →
        ∃ t granted, exec (.loanReturn cell) s = .next t ∧ t.loan c.loan = .free
          ∧ s.answered t (plain cell .ok c.loan :: s.grantAnswers granted)
          ∧ (l.state ≠ .held → granted = [] ∧ s.otherLoans t c.loan ∧ ∀ b, b ≠ l.bay → t.waiting b = s.waiting b)
          ∧ (l.state = .held → s.waitingListed → (s.freeLoan c.loan).examined t l.bay granted)
          ∧ (∀ m, m ≠ c.loan → m ∉ granted → t.loan m = s.loan m)
          ∧ t.exchange.lapseQueue = s.exchange.lapseQueue.filter (fun m => m != c.loan)
          ∧ (s.waitingListed → s.tablesOrdered → s.retiresWithout l.bay c.loan → s.standbySent t l.bay))
      ∧ (l.state = .waiting →
        ∃ t granted, exec (.loanReturn cell) s = .next t ∧ t.loan c.loan = .free ∧ c.loan ∉ t.waiting l.bay
          ∧ s.answered t ((l.openingCell.toList.map (fun x => plain x .cancelled c.loan)) ++ plain cell .ok c.loan
              :: s.grantAnswers granted)
          ∧ (s.waitingListed → (s.freeLoan c.loan).examined t l.bay granted)
          ∧ (s.waitingListed → s.tablesOrdered → s.retiresWithout l.bay c.loan → s.standbySent t l.bay)
          ∧ ∀ m, m ≠ c.loan → m ∉ granted → t.loan m = s.loan m)
      ∧ (l.state ∈ [.held, .lapsing, .faulted] → (l.inFlight ≠ 0 ∨ l.state = .lapsing) →
        ∃ t, exec (.loanReturn cell) s = .next t
          ∧ t.loan c.loan = { l with state := if l.state = .held then .returning else l.state, returnCell := some cell.val }
          ∧ s.otherLoans t c.loan ∧ t.loans.waiting = s.loans.waiting ∧ Touches [.awaiting, .loans, .ports] s t))

/-- A LOAN_QUERY is answered with the loan number and a snapshot of the entry, or NO_LOAN and zeros for a FREE entry or a number of 512 or
above; nothing else changes (R29). Any node may ask, also of a WAITING loan: R29 is followed, not R201 (log entry 34). The snapshot is 48
bytes with the fields of Table 11-8 at their offsets (R199). -/
def Obligations.LoanQueryIsAnswered : Prop :=
  [LoanState.free, .waiting, .held, .returning, .lapsing, .lapsed, .faulted].map LoanState.code = List.range 7
  ∧ [LoanMode.readShared, .writeSole, .append].map LoanMode.code = List.range 3
  ∧ (∀ l : Loan, l.snapshot.length = 48 ∧ laidOut 32 l.snapshot
      [(32, 1, l.state.code), (33, 1, l.node), (34, 1, l.group), (35, 1, l.bay), (36, 4, l.first), (40, 4, l.count), (44, 1, l.mode.code),
       (45, 1, (if l.openingCell = none then 0 else 1) + (if l.returnCell = none then 0 else 2)
          + (if l.append.map (fun r => r.broken) = some true then 4 else 0)),
       (46, 2, l.term), (48, 2, l.wait), (50, 2, l.inFlight), (52, 2, l.openingCell.getD 0), (54, 2, l.returnCell.getD 0),
       (56, 2, (l.append.map (fun r => r.frameBlocks)).getD 0), (58, 2, (l.append.map (fun r => r.blocksIntoFrame)).getD 0),
       (60, 4, (l.append.map (fun r => r.framesDone)).getD 0), (64, 4, (l.append.map (fun r => r.reserved)).getD 0), (68, 12, 0)])
  ∧ ∀ (s : State) (cell : Fin 1024) (o : HeldOrder) (c : Copy), s.handed .loanQuery cell = some o → o.copy = c →
    ∃ t, exec (.loanQuery cell) s = .next t ∧ Touches [.awaiting, .answers, .ports] s t
      ∧ (512 ≤ c.loan ∨ (s.loan c.loan).state = .free →
          s.answered t [.answer { cell := cell, result := .noLoan, detail := c.loan, blocksDone := 0, source := .none,
                                  snapshot := some (List.replicate 48 0) }])
      ∧ (c.loan < 512 → (s.loan c.loan).state ≠ .free →
          s.answered t [.answer { cell := cell, result := .ok, detail := c.loan, blocksDone := 0, source := .none,
                                  snapshot := some (s.loan c.loan).snapshot }])

/-! ## Transfer orders -/

/-- A transfer that fails a check is answered by the first that fails, and nothing else changes: FORMAT with its step (R34, R108), the
loan check of R25 for READ, WRITE and APPEND_WRITE, the bay check of R36 for SERVICE_READ and SERVICE_WRITE. The format check makes steps
2 to 8 of Table 2-2 in order. -/
def Obligations.TransfersAreRefused : Prop :=
  (∀ (k : OrderKind) (c : Copy), c.transferFailure k =
    if ¬(if k ∈ [.serviceRead, .serviceWrite] then c.node = 0 else 1 ≤ c.node ∧ c.node ≤ 250) then some 2
    else if ¬(1 ≤ c.count ∧ c.count ≤ 256) then some 3
    else if ¬(1 ≤ c.field 20 1 ∧ c.field 20 1 ≤ 6) then some 4
    else if ¬(∀ i, i < c.field 20 1 → c.field (40 + 12 * i) 4 ≠ 0 ∧ c.field (40 + 12 * i) 4 % 512 = 0
        ∧ c.field (32 + 12 * i) 8 + c.field (40 + 12 * i) 4 ≤ 18446744073709551616) then some 5
    else if ¬(((List.range (c.field 20 1)).map (fun i => c.field (40 + 12 * i) 4)).sum = c.count * 4096) then some 6
    else if k ∈ [.serviceRead, .serviceWrite] ∧ 16 ≤ c.group then some 7
    else if k ∈ [.serviceRead, .serviceWrite] ∧ 24 ≤ c.bay then some 8
    else none)
  ∧ ∀ (k : OrderKind) (s : State) (cell : Fin 1024) (o : HeldOrder) (c : Copy) (answer : AnswerWrite),
    k ∈ [.read, .write, .appendWrite, .serviceRead, .serviceWrite] → s.handed k cell = some o → o.copy = c →
    ((∃ d, c.transferFailure k = some d ∧ answer = plain cell .format d)
      ∨ (c.transferFailure k = none ∧ k.isService = false
          ∧ (512 ≤ c.loan ∨ (s.loan c.loan).state ∈ [.free, .waiting, .returning] ∨ (s.loan c.loan).node ≠ c.node)
          ∧ answer = plain cell .noLoan c.loan)
      ∨ (c.transferFailure k = none ∧ k.isService = false ∧ c.loan < 512 ∧ (s.loan c.loan).node = c.node
          ∧ (((s.loan c.loan).state ∈ [.lapsing, .lapsed] ∧ answer = plain cell .lapsed c.loan)
            ∨ ((s.loan c.loan).state = .faulted ∧ answer = plain cell .diskFault (s.loan c.loan).faultCause.code)
            ∨ ((s.loan c.loan).state = .held ∧ (s.loan c.loan).mode.permits k = false ∧ answer = plain cell .mode c.loan)
            ∨ ((s.loan c.loan).state = .held ∧ (s.loan c.loan).mode.permits k = true ∧ k ≠ .appendWrite
                ∧ ¬((s.loan c.loan).first ≤ c.first ∧ c.first + c.count ≤ (s.loan c.loan).first + (s.loan c.loan).count)
                ∧ answer = plain cell .outOfLoan c.loan)))
      ∨ (c.transferFailure k = none ∧ k.isService = true
          ∧ (((s.bay c.bay).state = .faulted ∧ answer = plain cell .diskFault (s.bay c.bay).lastFault.code)
            ∨ ((s.bay c.bay).state ∈ [.empty, .present, .admitting, .retiring]
                ∧ answer = plain cell .diskUnavailable (s.bay c.bay).state.code)
            ∨ ((s.bay c.bay).state.accepts = true ∧ (s.bay c.bay).capacity < c.first + c.count
                ∧ answer = plain cell .range (s.bay c.bay).capacity)))) →
    ∃ t, exec (k.command cell) s = .next t ∧ s.answered t [answer] ∧ Touches [.awaiting, .answers, .ports] s t

/-- A transfer that passes its checks, is not joined, and finds orders in the FIFO of its group on its bay is appended to it (R39, R57). -/
def Obligations.TransfersAreQueued : Prop :=
  ∀ (k : OrderKind) (s : State) (cell : Fin 1024) (o : HeldOrder) (x : Transfer),
    k ∈ [.read, .write, .serviceRead, .serviceWrite] → s.handed k cell = some o → s.passes k o.copy x →
    (k.isRead = true → s.candidate x.bay x.first x.count = none) → (s.fifo x.bay x.group).orders ≠ [] →
    ∃ t, exec (k.command cell) s = .next t ∧ s.takenUp t cell x
      ∧ t.fifo x.bay x.group = { s.fifo x.bay x.group with orders := (s.fifo x.bay x.group).orders ++ [cell.val] }
      ∧ s.otherFifos t x.bay x.group ∧ Touches [.awaiting, .held, .loans, .fifos, .ports] s t

/-- A transfer that passes its checks, is not joined, and finds the FIFO empty becomes its head: it is costed by the bay's parameters and
H, and tagged unless its group is closed (R55, R58, R62, R63). The finish tag is the start tag and the cost times 256 over the weight,
rounded up (R63). A head that meets the conditions of R67 but that of the bay asks for a spin-up: a SPUN_DOWN bay is SPINNING_UP with
START sent, a SPINNING_DOWN one has a spin-up pending; one that does not meet them asks for none (R68, R132). The number of START and the
count of the bay's sends are the model's own (log entry 16), and a Bay Summary number wraps to 0 (log entry 38). -/
def Obligations.TransfersBecomeHead : Prop :=
  (∀ cost weight : Nat, 1 ≤ weight →
    cost * 256 ≤ tagStep cost weight * weight ∧ tagStep cost weight * weight < cost * 256 + weight)
  ∧ ∀ (k : OrderKind) (s : State) (cell : Fin 1024) (o : HeldOrder) (x : Transfer),
    k ∈ [.read, .write, .serviceRead, .serviceWrite] → s.handed k cell = some o → s.passes k o.copy x →
    (k.isRead = true → s.candidate x.bay x.first x.count = none) → (s.fifo x.bay x.group).orders = [] →
    ∃ t, exec (k.command cell) s = .next t ∧ s.takenUp t cell x
      ∧ (let cost := costOf (s.arbiter x.bay) x.first x.count
         let start := max (s.fifo x.bay x.group).lastFinish (s.arbiter x.bay).v
         let finish := start + tagStep cost (s.group x.group).weight
         t.fifo x.bay x.group =
          if 1 ≤ (s.group x.group).weight then
            { orders := [cell.val], cost := some cost, tags := some { start := start, finish := finish }, lastFinish := finish }
          else { orders := [cell.val], cost := some cost, tags := none, lastFinish := (s.fifo x.bay x.group).lastFinish })
      ∧ (x.group < 16 → s.headReady x.bay x.group x → s.spinUpAsked t x.bay)
      ∧ (¬s.headReady x.bay x.group x → (∀ h, h < 16 → (s.fifo x.bay h).orders = []) → t.bay x.bay = s.bay x.bay)
      ∧ s.otherBays t x.bay
      ∧ s.otherFifos t x.bay x.group ∧ Touches [.awaiting, .held, .loans, .fifos, .ports, .records] s t

/-- A READ or SERVICE_READ with a candidate slot joins it: of a RESIDENT slot a delivery starts and its blocks are metered as staged; a
FILLING slot lists the order (R39, R82, R83, R153). The candidate is the lowest slot that stages the whole range for the bay and is
RESIDENT, or FILLING with fewer than 32 joiners and no STALE_RETRY mark (R81). A RESIDENT slot over a DRAINING one of its bay, which R81
says there never is, is none: it arises only within a dispatch, before the snoop (log entry 10). -/
def Obligations.ReadsJoinStagedData : Prop :=
  (∀ (s : State) (b first count : Nat),
    (let fits := fun j => ∃ p, (s.slot j).place = some p ∧ p.bay = b ∧ p.first ≤ first ∧ first + count ≤ p.first + p.count
        ∧ (((s.slot j).state = .resident
              ∧ ∀ e ∈ s.staging.slots, e.2.state = .draining → e.2.overlapsOn b p.first p.count = false)
          ∨ ((s.slot j).state = .filling ∧ (s.slot j).joiners.length < 32 ∧ (s.slot j).staleRetry = false))
     (∀ j, s.candidate b first count = some j ↔ j < 256 ∧ fits j ∧ ∀ i, i < j → ¬fits i)
      ∧ (s.candidate b first count = none ↔ ∀ j, j < 256 → ¬fits j)))
  ∧ ∀ (k : OrderKind) (s : State) (cell : Fin 1024) (o : HeldOrder) (x : Transfer) (j : Nat),
    k ∈ [.read, .serviceRead] → s.handed k cell = some o → s.passes k o.copy x →
    s.candidate x.bay x.first x.count = some j →
    ∃ t, exec (k.command cell) s = .next t ∧ s.takenUp t cell x ∧ s.otherSlots t j
      ∧ ((s.slot j).state = .resident →
          t.slot j = { s.slot j with deliveries := (s.slot j).deliveries + 1 }
            ∧ t.engine.items = s.engine.items ++ [{ cell := cell, slot := j, fetch := false, led := false, channel := none }]
            ∧ t.staging.residency = s.staging.residency.filter (fun i => i != j) ++ [j]
            ∧ (t.meter x.group).staged.current = min 4294967295 ((s.meter x.group).staged.current + x.count))
      ∧ ((s.slot j).state = .filling →
          t.slot j = { s.slot j with joiners := (s.slot j).joiners ++ [cell.val] } ∧ t.engine = s.engine ∧ t.meters = s.meters)
      ∧ Touches [.awaiting, .held, .loans, .staging, .engine, .meters, .ports] s t

/-- An APPEND_WRITE that passes its checks reserves what is left of the extent, up to its count, and goes into the FIFO of its loan's
group for the disk range of its reservation; of a BROKEN loan it is answered APPEND_BROKEN with the break point, of a full one EXTENT_FULL
with the reserved position (R107 to R109). An append that becomes a head which meets the conditions of R67 but that of the bay asks for a
spin-up (R68, R132). A cell that still stands in the reservation list gets a second entry, and the list has no bound of 1024 (R110 says
otherwise: the model's choice, log entry 30). The number of START and the count of the bay's sends are the model's own (log entry 16), and
a Bay Summary number wraps to 0 (log entry 38). -/
def Obligations.AppendsReserveInOrder : Prop :=
  ∀ (s : State) (cell : Fin 1024) (o : HeldOrder) (c : Copy) (l : Loan) (a : AppendRecord),
    s.handed .appendWrite cell = some o → o.copy = c → c.transferFailure .appendWrite = none → s.lends .appendWrite c l →
    l.append = some a →
    ∃ t, exec (.appendWrite cell) s = .next t ∧ s.otherLoans t c.loan ∧ (t.loan c.loan).inFlight = l.inFlight + 1
      ∧ (a.broken = true → (t.loan c.loan).append = some a
          ∧ s.answered t [plain cell .appendBroken (a.breakPoint.getD 0)] ∧ t.shares = s.shares)
      ∧ (a.broken = false → l.count ≤ a.reserved → (t.loan c.loan).append = some a
          ∧ s.answered t [plain cell .extentFull a.reserved] ∧ t.shares = s.shares)
      ∧ (a.broken = false → a.reserved < l.count →
          (let n := min c.count (l.count - a.reserved)
           (t.loan c.loan).append = some { a with
              reserved := a.reserved + n,
              reservations := a.reservations ++ [{ cell := cell, offset := a.reserved, n := n, good := false }] }
            ∧ t.transfer? cell = some { kind := .appendWrite, group := l.group, bay := l.bay, first := l.first + a.reserved,
                                        count := n, loan := some c.loan, reserved := some a.reserved, residue := c.count - n }
            ∧ (t.fifo l.bay l.group).orders = (s.fifo l.bay l.group).orders ++ [cell.val] ∧ s.answered t []
            ∧ (∀ x, (s.fifo l.bay l.group).orders = [] → l.group < 16 → t.transfer? cell = some x → s.headReady l.bay l.group x →
                s.spinUpAsked t l.bay)))
      ∧ Touches [.awaiting, .held, .answers, .loans, .fifos, .ports, .records] s t

/-! ## Policy orders -/

/-- A policy order is answered FORMAT with the number of its first format check that fails, and changes nothing else: 2 for a node
other than 0, then the checks of its own kind (R54, R61, R99, R127, R134, R140, R148, R167, R168). -/
def Obligations.PolicyOrdersAreRefused : Prop :=
  ∀ (k : OrderKind) (s : State) (cell : Fin 1024) (o : HeldOrder) (c : Copy) (d : Nat),
    k ∈ [.groupSet, .diskSet, .clockSet, .bayAdmit, .bayRetire, .bayWatch, .slotFlush, .holdSet, .faultClear] →
    s.handed k cell = some o → o.copy = c →
    ((c.node ≠ 0 ∧ d = 2)
      ∨ (c.node = 0 ∧
        ((k = .groupSet ∧ 16 ≤ c.group ∧ d = 3)
          ∨ (k ∈ [.diskSet, .bayAdmit, .bayRetire, .slotFlush] ∧ 24 ≤ c.bay ∧ d = 3)
          ∨ (k = .diskSet ∧ c.bay < 24 ∧ 31 < c.seekShift ∧ d = 4)
          ∨ (k = .clockSet ∧ 3 < c.prescaleCode ∧ d = 3)
          ∨ (k = .bayWatch ∧ 1 < c.field 32 1 ∧ d = 3)
          ∨ (k = .bayWatch ∧ c.field 32 1 ≤ 1 ∧ 2 ^ 24 ≤ c.bayMask ∧ d = 4)
          ∨ (k = .bayWatch ∧ c.field 32 1 = 0 ∧ c.bayMask < 2 ^ 24 ∧ 2 < c.field 33 1 ∧ d = 5)
          ∨ (k = .slotFlush ∧ c.bay < 24 ∧ c.count = 0 ∧ d = 4)
          ∨ (k = .slotFlush ∧ c.bay < 24 ∧ c.count ≠ 0 ∧ 4294967296 < c.first + c.count ∧ d = 5)))) →
    ∃ t, exec (k.command cell) s = .next t ∧ s.answered t [plain cell .format d] ∧ Touches [.awaiting, .answers, .ports] s t

/-- A GROUP_SET sets the group's weight and pending cap, leaves the cap in force, tags each head of the group that has a cost and no tags
once the group is open, by R63, and is answered OK (R54, R55). A head tagged then, or before, that meets the conditions of R67 but that of
the bay asks for a spin-up (R68, R132). The number of START and the count of the bay's sends are the model's own (log entry 16), and a Bay
Summary number wraps to 0 (log entry 38). -/
def Obligations.GroupSetIsApplied : Prop :=
  ∀ (s : State) (cell : Fin 1024) (o : HeldOrder) (c : Copy), s.handed .groupSet cell = some o → o.copy = c → c.node = 0 →
    c.group < 16 →
    ∃ t, exec (.groupSet cell) s = .next t
      ∧ t.group c.group = { s.group c.group with weight := c.weight, pendingCap := some c.cap }
      ∧ (∀ g, g ≠ c.group → t.group g = s.group g)
      ∧ (∀ b, b < 24 → t.fifo b c.group =
          match (s.fifo b c.group).cost, (s.fifo b c.group).tags with
          | some cost, none =>
            if 1 ≤ c.weight then
              let start := max (s.fifo b c.group).lastFinish (s.arbiter b).v
              let finish := start + (cost * 256 + c.weight - 1) / c.weight
              { s.fifo b c.group with tags := some { start := start, finish := finish }, lastFinish := finish }
            else s.fifo b c.group
          | _, _ => s.fifo b c.group)
      ∧ (∀ b q x cost, b < 24 → (s.fifo b c.group).orders.head? = some q → s.transfer? q = some x → (s.fifo b c.group).cost = some cost →
          (s.setGroup c.group { s.group c.group with weight := c.weight }).headReady b c.group x → s.spinUpAsked t b)
      ∧ s.answered t [plain cell .ok 0] ∧ Touches [.awaiting, .answers, .groups, .fifos, .ports, .records] s t

/-- A DISK_SET stores the bay's four cost parameters with their clamps and SPIN_IDLE; a CLOCK_SET installs prescale, P and METER_TICKS (0
as 1), starts the interval again, keeps both tick counts, and answers the new interval (R60, R61, R148, R149). -/
def Obligations.DiskSetAndClockSetAreApplied : Prop :=
  (∀ (s : State) (cell : Fin 1024) (o : HeldOrder) (c : Copy), s.handed .diskSet cell = some o → o.copy = c → c.node = 0 →
    c.bay < 24 → c.seekShift ≤ 31 →
    ∃ t, exec (.diskSet cell) s = .next t
      ∧ t.arbiter c.bay = { s.arbiter c.bay with
          seekMin := c.field 32 2, seekShift := c.field 34 1, seekMax := max (c.field 36 2) (c.field 32 2),
          rate := max 1 (c.field 38 2) }
      ∧ (∀ b, b ≠ c.bay → t.arbiter b = s.arbiter b) ∧ t.bay c.bay = { s.bay c.bay with spinIdle := c.field 40 2 }
      ∧ s.otherBays t c.bay ∧ s.answered t [plain cell .ok 0] ∧ Touches [.awaiting, .answers, .arbiters, .records, .ports] s t)
  ∧ ∀ (s : State) (cell : Fin 1024) (o : HeldOrder) (c : Copy), s.handed .clockSet cell = some o → o.copy = c → c.node = 0 →
    c.prescaleCode ≤ 3 →
    ∃ t, exec (.clockSet cell) s = .next t
      ∧ t.clock = { s.clock with prescaleCode := c.field 32 1, period := c.field 34 2, meterTicks := max 1 (c.field 36 1),
                                 prescaler := 0, periodCounter := 0 }
      ∧ s.answered t [plain cell .ok ([1, 4, 8, 16][c.prescaleCode]?.getD 0 * (c.period + 1))]
      ∧ Touches [.awaiting, .answers, .clock, .ports] s t

/-- A BAY_ADMIT of a PRESENT or FAULTED bay begins an admission, which holds its cell and sends START; a BAY_RETIRE acts by the bay's
state; both are answered WRONG_STATE with the state code in every other state (R127, R128, R134). The number of a send is the model's own
(log entry 16). A bay has work while an order is queued for it, a command tag is held or a slot of it is FILLING or DRAINING, and holds
loans that are neither FREE nor FAULTED (R119). An ONLINE bay that becomes RETIRING with every loan FREE and without work is sent its
final STANDBY at once, and no other is (R135). Each change of the bay's state asks for a Bay Summary rewrite (R121, R142), whose number
wraps to 0 (log entry 38); a retirement that only becomes pending asks for none. -/
def Obligations.AdmissionAndRetirementBegin : Prop :=
  (∀ (s : State) (b : Nat),
    (s.hasWork b = true ↔ (∃ g, g < 16 ∧ (s.fifo b g).orders ≠ []) ∨ (∃ i, i < 4 ∧ s.tagHolder b i ≠ none)
        ∨ ∃ e ∈ s.staging.slots, (e.2.state = .filling ∨ e.2.state = .draining) ∧ ∃ p, e.2.place = some p ∧ p.bay = b)
    ∧ (s.holdsLoans b = true ↔
        ∃ e ∈ s.loans.table, e.2.bay = b ∧ e.2.state ∈ [.waiting, .held, .returning, .lapsing, .lapsed]))
  ∧ (∀ (s : State) (cell : Fin 1024) (o : HeldOrder) (c : Copy), s.handed .bayAdmit cell = some o → o.copy = c → c.node = 0 →
    c.bay < 24 →
    ((s.bay c.bay).state ∈ [.present, .faulted] →
      ∃ t, exec (.bayAdmit cell) s = .next t
        ∧ t.bay c.bay = { s.bay c.bay with
            state := .admitting, capacity := 0, opTimer := 0, admitCell := some cell.val, idleTicks := 0,
            outstanding := (s.bay c.bay).outstanding
              ++ [{ kind := .start, tag := none, first := 0, count := 0, linkErrors := 0, timer := 0, number := (s.bay c.bay).sends }],
            sends := (s.bay c.bay).sends + 1 }
        ∧ s.summaryAsked t ∧ s.otherBays t c.bay ∧ Touches [.awaiting, .ports, .records] s t)
    ∧ ((s.bay c.bay).state ∉ [.present, .faulted] →
      ∃ t, exec (.bayAdmit cell) s = .next t ∧ s.answered t [plain cell .wrongState (s.bay c.bay).state.code]
        ∧ Touches [.awaiting, .answers, .ports] s t))
  ∧ ∀ (s : State) (cell : Fin 1024) (o : HeldOrder) (c : Copy), s.handed .bayRetire cell = some o → o.copy = c → c.node = 0 →
    c.bay < 24 →
    ∃ t, exec (.bayRetire cell) s = .next t ∧ s.otherBays t c.bay
      ∧ ((s.bay c.bay).state ∈ [.online, .spunDown] → s.summaryAsked t)
      ∧ ((s.bay c.bay).state ∉ [.online, .spunDown] → s.summaryNotAsked t)
      ∧ ((s.bay c.bay).state = .online → (t.bay c.bay).state = .retiring ∧ s.answered t [plain cell .ok 7]
          ∧ (let passed := (∀ n, (s.loan n).bay = c.bay → (s.loan n).state = .free) ∧ s.hasWork c.bay = false
             (s.tablesOrdered → passed → (∀ d ∈ (s.bay c.bay).outstanding ++ (s.bay c.bay).sendList, d.kind ≠ .standby) →
                s.standbySent t c.bay)
              ∧ (¬passed → t.bay c.bay = { s.bay c.bay with state := .retiring, idleTicks := 0, readyLow := 0 })))
      ∧ ((s.bay c.bay).state = .spunDown →
          (s.holdsLoans c.bay = true ∨ s.hasWork c.bay = true →
            (t.bay c.bay).state = .spinningUp ∧ (t.bay c.bay).retirePending = true ∧ s.answered t [plain cell .ok 6])
          ∧ (s.holdsLoans c.bay = false → s.hasWork c.bay = false →
            (t.bay c.bay).state = .present ∧ (t.bay c.bay).capacity = 0 ∧ s.answered t [plain cell .ok 1]))
      ∧ ((s.bay c.bay).state ∈ [.spinningDown, .spinningUp] →
          t.bay c.bay = { s.bay c.bay with retirePending := true }
            ∧ s.answered t [plain cell .ok (s.bay c.bay).state.code])
      ∧ ((s.bay c.bay).state ∈ [.empty, .present, .admitting, .retiring, .faulted] →
          t.bay c.bay = s.bay c.bay ∧ s.answered t [plain cell .wrongState (s.bay c.bay).state.code])
      ∧ Touches [.awaiting, .answers, .ports, .arbiters, .staging, .records] s t

/-- A BAY_WATCH arms or disarms presence capture on every bay of its mask and no other, and answers OK with the number of bays in the
mask; where a capture field of some bay changes it asks for a Bay Summary rewrite, and for none where none changes (R140, R142; the number
of the rewrite wraps to 0, log entry 38). -/
def Obligations.BayWatchArmsTheMask : Prop :=
  ∀ (s : State) (cell : Fin 1024) (o : HeldOrder) (c : Copy), s.handed .bayWatch cell = some o → o.copy = c → c.node = 0 →
    c.bayMask < 2 ^ 24 →
    (∀ edge, c.field 32 1 = 0 → c.edgeSelect = some edge →
      ∃ t, exec (.bayWatch cell) s = .next t
        ∧ (∀ b, t.bay b = if b < 24 ∧ c.bayMask.testBit b = true then
            { s.bay b with captureEnable := true, edgeSelect := edge, noticeOn := (c.field 34 1).testBit 0 } else s.bay b)
        ∧ s.answered t [plain cell .ok ((List.range 24).countP (fun b => c.bayMask.testBit b))]
        ∧ (∀ b, t.bay b ≠ s.bay b → s.summaryAsked t) ∧ ((∀ b, t.bay b = s.bay b) → s.summaryNotAsked t)
        ∧ Touches [.awaiting, .answers, .ports, .records] s t)
    ∧ (c.field 32 1 = 1 →
      ∃ t, exec (.bayWatch cell) s = .next t
        ∧ (∀ b, t.bay b = if b < 24 ∧ c.bayMask.testBit b = true then
            { s.bay b with captureEnable := false, captured := false } else s.bay b)
        ∧ s.answered t [plain cell .ok ((List.range 24).countP (fun b => c.bayMask.testBit b))]
        ∧ (∀ b, t.bay b ≠ s.bay b → s.summaryAsked t) ∧ ((∀ b, t.bay b = s.bay b) → s.summaryNotAsked t)
        ∧ Touches [.awaiting, .answers, .ports, .records] s t)

/-- A SLOT_FLUSH makes each RESIDENT slot that overlaps its range FREE, or STALE while it is being delivered from, changes no other slot,
and answers OK with their number (R99). The slots that became FREE are offered to the bays that wait for one, in list order, the
lowest-numbered slot first, and each such bay leaves the list (R89). -/
def Obligations.SlotFlushDropsResidentSlots : Prop :=
  ∀ (s : State) (cell : Fin 1024) (o : HeldOrder) (c : Copy), s.handed .slotFlush cell = some o → o.copy = c → c.node = 0 →
    c.bay < 24 → c.count ≠ 0 → c.first + c.count ≤ 4294967296 →
    ∃ t, exec (.slotFlush cell) s = .next t
      ∧ (∀ k, (s.slot k).state = .resident → (s.slot k).overlapsOn c.bay c.first c.count = true →
          ((s.slot k).deliveries = 0 → (t.slot k).state = .free)
          ∧ ((s.slot k).deliveries ≠ 0 → t.slot k = { s.slot k with state := .stale }))
      ∧ (∀ k, ¬((s.slot k).state = .resident ∧ (s.slot k).overlapsOn c.bay c.first c.count = true) → t.slot k = s.slot k)
      ∧ (let freed := fun v : Slot => v.state == .resident && v.overlapsOn c.bay c.first c.count && v.deliveries == 0
         s.tablesOrdered →
          (∀ k, freed (s.slot k) = true → t.slot k = { Slot.free with
              reservedFor := s.staging.slotWait[(List.range k).countP (fun j => freed (s.slot j))]? })
            ∧ t.staging.slotWait = s.staging.slotWait.drop (s.staging.slots.countP (fun e => freed e.2)))
      ∧ (∃ n, s.answered t [plain cell .ok n] ∧ (s.tablesOrdered → n =
          s.staging.slots.countP (fun e => e.2.state == .resident && e.2.overlapsOn c.bay c.first c.count)))
      ∧ Touches [.awaiting, .answers, .ports, .staging] s t

/-- A HOLD_SET takes the mask and the auto-rearm flag and answers TRIGGERED; a FAULT_CLEAR answers the suppressed count, clears TRIGGERED
when no record is in flight, and is refused WRONG_STATE when one is (R167, R168). A HOLD_SET that changes the mask or is taken while
TRIGGERED is set, and a FAULT_CLEAR that clears it, have the heads of every bay looked at again: a bay with a tagged head that now meets
the conditions of R67 but that of the bay is asked to spin up (R68, R132, R165), and every other bay record is as it was; any other of the
two orders changes no bay record. The number of START and the count of the bay's sends are the model's own (log entry 16), and a Bay
Summary number wraps to 0 (log entry 38). -/
def Obligations.HoldSetAndFaultClear : Prop :=
  (∀ (s : State) (cell : Fin 1024) (o : HeldOrder) (c : Copy), s.handed .holdSet cell = some o → o.copy = c → c.node = 0 →
    ∃ t, exec (.holdSet cell) s = .next t ∧ t.capture.holdMask = BitVec.ofNat 16 (c.field 32 2)
      ∧ t.capture.autoRearm = (c.field 34 1).testBit 0 ∧ t.capture.triggered = s.capture.triggered
      ∧ t.capture.sequence = s.capture.sequence ∧ t.capture.suppressed = s.capture.suppressed
      ∧ t.capture.record = s.capture.record ∧ s.answered t [plain cell .ok (if s.capture.triggered then 1 else 0)]
      ∧ (s.capture.triggered = true ∨ t.capture.holdMask ≠ s.capture.holdMask → s.spinUpsAsked t)
      ∧ (s.capture.triggered = false → t.capture.holdMask = s.capture.holdMask → t.bays = s.bays)
      ∧ Touches [.awaiting, .answers, .ports, .records, .capture] s t)
  ∧ ∀ (s : State) (cell : Fin 1024) (o : HeldOrder) (c : Copy), s.handed .faultClear cell = some o → o.copy = c → c.node = 0 →
    ∃ t, exec (.faultClear cell) s = .next t ∧ t.capture.holdMask = s.capture.holdMask
      ∧ t.capture.autoRearm = s.capture.autoRearm ∧ t.capture.sequence = s.capture.sequence
      ∧ t.capture.suppressed = s.capture.suppressed ∧ t.capture.record = s.capture.record
      ∧ t.capture.triggered = (s.capture.triggered && s.capture.record.isSome)
      ∧ s.answered t [plain cell (if s.capture.triggered = true ∧ s.capture.record.isSome = true then .wrongState else .ok)
          s.capture.suppressed]
      ∧ (s.capture.triggered = true → s.capture.record = none → s.spinUpsAsked t)
      ∧ (s.capture.triggered = false ∨ s.capture.record ≠ none → t.bays = s.bays)
      ∧ Touches [.awaiting, .answers, .ports, .records, .capture] s t

/-! ## The clock and what a tick brings about -/

/-- From its counters at 0 the Loan Clock produces a tick at exactly the last cycle of each interval (R146). A tick raises the tick count
in every part state, and leaves the prescaler and the period counter at 0 (log entry 2: TICK is the last cycle of its interval); in
BRINGUP, RESTARTING and HALTED nothing else changes; else terms of HELD loans count, but not on a bay that is SPINNING_UP, and the waits
of WAITING loans count (R10, R11, R12, R147), the meter tick count rises, or returns to 0 at METER_TICKS (R147), and the idle ticks of
each ONLINE bay rise, saturating at 65535, or become 0 where it has work; a bay in another state holds them at 0 (R130; stated of ONLINE
bays where no loan lapses at the tick and the bay does not spin down). A cycle of the reference, which passes when no command waits (log
entry 2), counts the Loan Clock, the timers of READ, WRITE and STANDBY (8 s, R125) and, each thousandth time, the sweep timer (SWEEP_MS, 0
as 1, R175), the ready-low timers (2000 ms, R136) and the operation timers (20 s, R128, R132); a timer that reaches its limit queues its
command, and nothing else enters the queue. In BRINGUP only the Loan Clock counts. (The number by which a queued CMD_TIMEOUT names its
send is the model's own, log entry 16; the order in which the commands of one cycle queue is too, log entry 37, and is not stated.) -/
def Obligations.TicksAreCountedAndTaken : Prop :=
  (∀ (k : LoanClock) (n : Nat), k.prescaler = 0 → k.periodCounter = 0 → n < k.interval →
    ((Nat.repeat (fun k : LoanClock => k.cycle.1) n k).cycle.2 = true ↔ n + 1 = k.interval))
  ∧ (∀ s : State, ∃ t, exec .tick s = .next t ∧ t.clock.tickCount = s.clock.tickCount + 1 ∧ t.clock.prescaler = 0
    ∧ t.clock.periodCounter = 0
    ∧ (s.exchange.part ∈ [.bringup, .restarting, .halted] →
        t = { s with clock := { s.clock with tickCount := s.clock.tickCount + 1, prescaler := 0, periodCounter := 0 } })
    ∧ (s.exchange.part ∈ [.stopped, .running, .stopping] →
        (∀ n, (s.loan n).state = .held → (∀ b, n ∉ s.waiting b) →
          ((s.bay (s.loan n).bay).state ≠ .spinningUp → 1 < (s.loan n).term →
            t.loan n = { s.loan n with term := (s.loan n).term - 1 })
          ∧ ((s.bay (s.loan n).bay).state = .spinningUp → t.loan n = s.loan n))
        ∧ (∀ n, (s.loan n).state = .waiting → 1 < (s.loan n).wait → (t.loan n).state = .waiting →
          (t.loan n).wait = (s.loan n).wait - 1)
        ∧ t.clock.meterTickCount
            = (if s.clock.meterTicks ≤ s.clock.meterTickCount + 1 then 0 else s.clock.meterTickCount + 1)
        ∧ (∀ b, b < 24 → (s.bay b).state ≠ .online → (t.bay b).idleTicks = 0)
        ∧ ((∀ n, s.lapsesNext (s.loan n) = false) → ∀ b, b < 24 → (s.bay b).state = .online →
          (s.hasWork b = true → t.bay b = { s.bay b with idleTicks := 0 })
          ∧ (s.hasWork b = false →
              (s.bay b).spinIdle = 0 ∨ min 65535 ((s.bay b).idleTicks + 1) < (s.bay b).spinIdle ∨ (s.lines b).ready = false →
              t.bay b = { s.bay b with idleTicks := min 65535 ((s.bay b).idleTicks + 1) }))))
  ∧ (∀ s : State, s.pending = [] → s.exchange.part = .bringup →
    step s = .next { s with clock := s.clock.cycle.1, pending := if s.clock.cycle.2 then [.tick] else [] })
  ∧ ∀ s : State, s.pending = [] → s.exchange.part ≠ .bringup →
    (let milli : Prop := 1000 ≤ s.clock.microseconds + 1
     let timed := fun d : Command => d.kind = .read ∨ d.kind = .write ∨ d.kind = .standby
     let lowCounts := fun b : Nat => milli ∧ (s.lines b).ready = false ∧ ((s.bay b).state = .online
        ∨ ((s.bay b).state = .retiring ∧ ∀ d ∈ (s.bay b).outstanding, d.kind ≠ .standby))
     let runs := fun b : Nat => milli ∧ ((s.bay b).state = .admitting ∨ (s.bay b).state = .spinningUp)
     ∃ t, step s = .next t
      ∧ (milli → t.clock = { s.clock.cycle.1 with microseconds := 0 })
      ∧ (¬milli → t.clock = { s.clock.cycle.1 with microseconds := s.clock.microseconds + 1 })
      ∧ (milli → s.exchange.sweepTimerOn = true →
          t.exchange = { s.exchange with sweepTimer := s.exchange.sweepTimer + 1 })
      ∧ (¬milli ∨ s.exchange.sweepTimerOn = false → t.exchange = s.exchange)
      ∧ (∀ b, 24 ≤ b → t.bay b = s.bay b)
      ∧ (∀ b, b < 24 →
          (t.bay b).outstanding = (s.bay b).outstanding.map (fun d =>
            if d.kind = .read ∨ d.kind = .write ∨ d.kind = .standby then { d with timer := d.timer + 1 } else d)
          ∧ (lowCounts b → (t.bay b).readyLow = (s.bay b).readyLow + 1)
          ∧ (¬lowCounts b → (t.bay b).readyLow = (s.bay b).readyLow)
          ∧ (runs b → (t.bay b).opTimer = (s.bay b).opTimer + 1) ∧ (¬runs b → (t.bay b).opTimer = (s.bay b).opTimer)
          ∧ t.bay b = { s.bay b with
              outstanding := (t.bay b).outstanding, readyLow := (t.bay b).readyLow, opTimer := (t.bay b).opTimer })
      ∧ (∀ e, e ∈ t.pending ↔
          (e = .tick ∧ s.clock.cycle.2 = true)
          ∨ (∃ (b : Fin 24) (d : Command), d ∈ (s.bay b).outstanding ∧ timed d ∧ d.timer + 1 = 8000000
              ∧ e = .cmdTimeout b ⟨tagOperand d.tag, d.number⟩)
          ∨ (e = .sweep ∧ milli ∧ s.exchange.sweepTimerOn = true
              ∧ max 1 s.exchange.control.sweepMs.toNat ≤ s.exchange.sweepTimer + 1)
          ∨ (∃ b : Fin 24, lowCounts b ∧ (s.bay b).readyLow + 1 = 2000 ∧ e = .readyLost b)
          ∨ ∃ b : Fin 24, runs b ∧ (s.bay b).opTimer + 1 = 20000 ∧ e = .operationTimeout b)
      ∧ Touches [.clock, .records, .intake, .pending] s t)

/-- At the tick at which the term of a HELD loan reaches 0 it becomes LAPSED, or LAPSING while transfers are in flight, its queued
transfers leave their FIFO and are answered LAPSED, oldest first, and its number enters the Lapse Queue; at the tick at which the wait of a
WAITING loan reaches 0 its entry is freed and its opening cell answered WAIT_EXPIRED (R10, R14, R191). A loan that has become LAPSED, and
one whose wait has expired, lead to one examination of the bay's waiting list at the end (R9, R12), stated where nothing else of the bay
expires or lapses at this tick. Each of the two commands is the whole tick (log entry 8). -/
def Obligations.LoansLapseAndWaitsExpire : Prop :=
  (∀ (s : State) (n : Fin 512) (l : Loan), s.exchange.part ∈ [.stopped, .running, .stopping] → s.loan n = l → l.state = .held →
    l.term ≤ 1 → (s.bay l.bay).state ≠ .spinningUp → (∀ b, n.val ∉ s.waiting b) →
    ∃ t, exec (.termLapse n) s = .next t
      ∧ t.loan n = { l with state := if l.inFlight = 0 then .lapsed else .lapsing, term := 0 }
      ∧ n.val ∈ t.exchange.lapseQueue ∧ t.notices.flags.lapse = true
      ∧ (∀ c x, s.transfer? c = some x → x.loan = some n.val → c ∉ (t.fifo l.bay l.group).orders)
      ∧ ((∀ m, m ≠ n.val → fifoNumber (s.loan m).bay (s.loan m).group = fifoNumber l.bay l.group → s.lapsesNext (s.loan m) = false) →
          (((s.fifo l.bay l.group).orders.filter (fun c => (s.transfer? c).any (fun x => x.loan == some n.val))).map
            (fun c => plain c .lapsed n.val)).Sublist t.exchange.answerList)
      ∧ (l.inFlight = 0 → l.bay < 24 → s.waitingListed → (∀ m, m ≠ n.val → s.lapsesNext (s.loan m) = false) →
          (∀ m ∈ s.waiting l.bay, 1 < (s.loan m).wait) →
          ∃ granted, (s.setLoan n { l with state := .lapsed }).examined t l.bay granted
            ∧ (s.grantAnswers granted).Sublist t.exchange.answerList))
  ∧ ∀ (s : State) (n : Fin 512) (l : Loan), s.exchange.part ∈ [.stopped, .running, .stopping] → s.loan n = l → l.state = .waiting →
    l.wait ≤ 1 → l.bay < 24 → n.val ∈ s.waiting l.bay → (∀ b, b ≠ l.bay → n.val ∉ s.waiting b) →
    ∃ t, exec (.waitExpired n) s = .next t ∧ t.loan n = .free ∧ n.val ∉ t.waiting l.bay
      ∧ (∀ c, l.openingCell = some c → plain c .waitExpired n ∈ t.exchange.answerList)
      ∧ (s.waitingListed → (∀ m, s.lapsesNext (s.loan m) = false) → (∀ m ∈ s.waiting l.bay, m ≠ n.val → 1 < (s.loan m).wait) →
          ∃ granted, (s.freeLoan n).examined t l.bay granted ∧ (s.grantAnswers granted).Sublist t.exchange.answerList)

/-- At the tick at which an ONLINE bay with no work and its ready line high has been idle for SPIN_IDLE ticks it enters SPINNING_DOWN
and its STANDBY is sent (R130, R131), and a Bay Summary rewrite is asked for (R121, R142; its number wraps to 0, log entry 38). The
command is the whole tick, which its idle tick is counted in (log entry 8). -/
def Obligations.IdleBaysSpinDown : Prop :=
  ∀ (s : State) (b : Fin 24), s.exchange.part ∈ [.stopped, .running, .stopping] → (s.bay b).state = .online →
    1 ≤ (s.bay b).spinIdle → (s.bay b).spinIdle ≤ min 65535 ((s.bay b).idleTicks + 1) → s.hasWork b = false →
    (s.lines b).ready = true →
    ∃ t, exec (.spinDown b) s = .next t ∧ (t.bay b).state = .spinningDown ∧ (t.bay b).idleTicks = 0
      ∧ (∃ c ∈ (t.bay b).outstanding, c.kind = .standby) ∧ s.summaryAsked t

/-- At the tick that ends a meter period every counter is latched, added to its total and cleared, the pending caps come into force, the
period sequence rises by 1, and a Meter Block write is asked for, which begins with the latched values where it can (R56, R151, R154,
R155). The command is the whole tick, whose number, 1 above the count before it, is the end stamp (log entry 8); the Loan Manager takes
the tick first, so that the blocks staged by a join which a lapse of this very tick makes possible belong to the period that ends (log
entry 9): where no loan lapses, the staged blocks counted before the tick are latched too. With every cap flag clear the heads of every
bay are looked at again: a SPUN_DOWN bay with a tagged head that then meets the conditions of R67 but that of the bay is SPINNING_UP with
START sent, a SPINNING_DOWN one has a spin-up pending (R67, R68, R132; its idle ticks are held at 0 at every tick, R130). The number of
START and the count of the bay's sends are the model's own (log entry 16), and a Bay Summary number wraps to 0 (log entry 38). -/
def Obligations.MeterPeriodsEnd : Prop :=
  ∀ s : State, s.exchange.part ∈ [.stopped, .running, .stopping] → s.clock.meterTicks ≤ s.clock.meterTickCount + 1 →
    (let latched := fun (before after : Counter) =>
       after.last = before.current ∧ after.current = 0 ∧ after.total = min 281474976710655 (before.total + before.current)
     let lent := { s with clock := { s.clock with prescaler := 0, periodCounter := 0, tickCount := s.clock.tickCount + 1 } }.loanTick
     ∃ t, exec .meterPeriodEnd s = .next t ∧ t.clock.meterTickCount = 0
      ∧ (∀ g, g < 16 → latched (s.meter g).reads (t.meter g).reads ∧ latched (s.meter g).writes (t.meter g).writes
          ∧ latched (s.meter g).orders (t.meter g).orders ∧ latched (lent.meter g).staged (t.meter g).staged
          ∧ ((∀ n, s.lapsesNext (s.loan n) = false) → latched (s.meter g).staged (t.meter g).staged)
          ∧ (t.meter g).cappedLast = (s.meter g).capped ∧ (t.meter g).capped = false)
      ∧ latched s.meters.noGroup t.meters.noGroup
      ∧ (∀ g, g < 16 → t.group g =
          { s.group g with cap := (s.group g).pendingCap.getD (s.group g).cap, pendingCap := none, capReached := false })
      ∧ t.meters.periodSeq = s.meters.periodSeq + 1 ∧ t.meters.endStamp = s.clock.tickCount + 1 ∧ s.meterAsked t
      ∧ (s.exchange.part ∈ [.running, .stopping] → ∀ b, b < 24 → t.wantsSpinUp b →
          ((s.bay b).state = .spunDown → t.bay b = (s.bay b).startingUp ∧ s.summaryAsked t)
          ∧ ((s.bay b).state = .spinningDown → t.bay b = { s.bay b with spinUpPending := true, idleTicks := 0 })))

/-! ## The Share Scheduler -/

/-- The arbiter's choice is the eligible head with the smallest finish tag, and of equal tags that of the lowest group; there is none
only where no head is eligible; a head is eligible exactly when it is tagged and the six conditions hold (R67, R70). -/
def Obligations.TheSmallestFinishTagIsChosen : Prop :=
  (∀ (s : State) (b g c : Nat) (x : Tags), s.choice b = some (g, c, x) →
    g < 16 ∧ s.eligibleHead b g = some (c, x)
      ∧ ∀ h d y, h < 16 → s.eligibleHead b h = some (d, y) → x.finish ≤ y.finish ∧ (x.finish = y.finish → g ≤ h))
  ∧ (∀ (s : State) (b : Nat), s.choice b = none ↔ ∀ g, g < 16 → s.eligibleHead b g = none)
  ∧ ∀ (s : State) (b g c : Nat) (x : Tags), s.eligibleHead b g = some (c, x) ↔
    (s.fifo b g).orders.head? = some c ∧ (s.fifo b g).tags = some x ∧ 1 ≤ (s.group g).weight
      ∧ ¬(s.capture.triggered = true ∧ s.capture.holdMask.getLsbD g = true) ∧ (s.group g).capReached = false
      ∧ (s.bay b).state ∈ [.online, .retiring] ∧ (s.lines b).ready = true ∧ (∃ i, i < 4 ∧ s.tagHolder b i = none)
      ∧ ∃ y, s.transfer? c = some y
          ∧ ∀ e ∈ s.staging.slots, e.2.state = .draining → e.2.overlapsOn b y.first y.count = false

/-- A dispatch takes the lowest free command tag and a slot, moves V and H, meters the blocks, and sends the disk read or starts the write
fetch (R64, R71, R88, R152); where V comes to 2^31 or above, V, every F and every tag of the bay are rebased (R65); a group that comes to
its cap is marked (R56). The write that is dispatched snoops the other slots of its bay: a FILLING slot that overlaps it is due to refetch
behind it, up to four times, and is marked STALE_RETRY after that; a RESIDENT one is dropped (R92, R93). The order behind the dispatched
one becomes head: a read with a candidate slot joins it and leaves the FIFO in its turn, any other stays and is costed and tagged by the
new H and V (R58, R62, R63); nothing else changes the other slots. With no slot the bay waits for one; with no eligible head nothing but
its reserved slots changes (R70, R72). The slot is the lowest FREE one reserved for the bay, else the lowest FREE one that is not
reserved, else the least recently used RESIDENT one that nothing is delivered from (R88). The snoop and the fetch come last, as R71 lists
them: what joins a RESIDENT slot as the FIFO moves on is delivered ahead of the fetch, and no read joins one that the write overlaps (R43,
R81; log entry 10). -/
def Obligations.DispatchesTakeATagAndASlot : Prop :=
  (∀ (s : State) (b i : Nat), s.freeTag b = some i ↔
    i < 4 ∧ s.tagHolder b i = none ∧ ∀ j, j < i → s.tagHolder b j ≠ none)
  ∧ (∀ (s : State) (b k : Nat),
    (let reserved := fun j => j < 256 ∧ (s.slot j).state = .free ∧ (s.slot j).reservedFor = some b
     let unreserved := fun j => j < 256 ∧ (s.slot j).state = .free ∧ (s.slot j).reservedFor = none
     let idle := fun j => (s.slot j).state = .resident ∧ (s.slot j).deliveries = 0
     s.allocate b = some k ↔
      (reserved k ∧ ∀ j, j < k → ¬reserved j)
      ∨ ((∀ j, ¬reserved j) ∧ unreserved k ∧ ∀ j, j < k → ¬unreserved j)
      ∨ ((∀ j, ¬reserved j) ∧ (∀ j, ¬unreserved j) ∧ idle k
          ∧ ∃ older newer, s.staging.residency = older ++ k :: newer ∧ ∀ j ∈ older, ¬idle j)))
  ∧ (∀ (s : State) (b : Fin 24) (g c i k : Nat) (x : Transfer) (tags : Tags), s.exchange.part ∈ [.running, .stopping] →
    b.val ∉ s.staging.slotWait → s.choice b = some (g, c, tags) → s.transfer? c = some x → x.bay = b.val →
    s.freeTag b = some i → s.allocate b = some k →
    ∃ t, exec (.dispatch b) s = .next t ∧ t.tagHolder b i = some c
      ∧ (t.slot k).lead = some c ∧ (t.slot k).place = some { bay := b, first := x.first, count := x.count }
      ∧ (t.slot k).state = (if x.kind.isRead then .filling else .draining)
      ∧ (let v := max (s.arbiter b).v tags.start
         (v < 2147483648 → (t.arbiter b).v = v
            ∧ ∀ h, h < 16 → h ≠ g → t.fifo b h = s.fifo b h)
          ∧ (2147483648 ≤ v → (t.arbiter b).v = v - 1073741824
            ∧ ∀ h, h < 16 → h ≠ g → t.fifo b h = { s.fifo b h with
                lastFinish := (s.fifo b h).lastFinish - 1073741824,
                tags := (s.fifo b h).tags.map (fun y => { start := y.start - 1073741824, finish := y.finish - 1073741824 }) })
          ∧ ((s.fifo b g).orders = [c] → t.fifo b g =
              { orders := [], cost := none, tags := none,
                lastFinish := if v < 2147483648 then (s.fifo b g).lastFinish else (s.fifo b g).lastFinish - 1073741824 }))
      ∧ (t.arbiter b).h = min 4294967295 (x.first + x.count)
      ∧ (∀ d h, d ≠ b.val → h < 16 → t.fifo d h = s.fifo d h) ∧ (∀ d, d ≠ b.val → t.arbiter d = s.arbiter d)
      ∧ (∃ left, (s.fifo b g).orders.drop 1 = left ++ (t.fifo b g).orders
          ∧ ∀ q ∈ left, (∃ j, q ∈ (t.slot j).joiners) ∨ ∃ it ∈ t.engine.items, it.cell = q ∧ it.fetch = false)
      ∧ (∀ q y, ((s.fifo b g).orders.drop 1).head? = some q → s.transfer? q = some y →
          (y.kind.isRead = true → (s.giveBoth c i k x).candidate b y.first y.count = none) →
          (t.fifo b g).orders = (s.fifo b g).orders.drop 1)
      ∧ (∀ q y, (t.fifo b g).orders.head? = some q → s.transfer? q = some y →
          (let cost := costOf (t.arbiter b) y.first y.count
           let last := if max (s.arbiter b).v tags.start < 2147483648 then (s.fifo b g).lastFinish
             else (s.fifo b g).lastFinish - 1073741824
           let start := max last (t.arbiter b).v
           let finish := start + tagStep cost (s.group g).weight
           t.fifo b g = { orders := (t.fifo b g).orders, cost := some cost, tags := some { start := start, finish := finish },
                          lastFinish := finish }))
      ∧ (x.kind.isRead = true →
          (t.meter g).reads.current = min 4294967295 ((s.meter g).reads.current + x.count)
            ∧ (∃ d ∈ (t.bay b).outstanding, d.kind = .read ∧ d.first = x.first ∧ d.count = x.count
                ∧ ((∀ j, s.tagHolder b j ≠ some c) → d.tag = some i))
            ∧ ∀ j, j ≠ k → (s.slot j).joined (t.slot j))
      ∧ (x.kind.isRead = false →
          (t.meter g).writes.current = min 4294967295 ((s.meter g).writes.current + x.count)
            ∧ (∃ joins : List Item, (∀ it ∈ joins, it.fetch = false) ∧ t.engine.items = s.engine.items ++ joins
                ++ [{ cell := c, slot := k, fetch := true, led := false, channel := none }])
            ∧ (s.tablesOrdered → ∀ j, j ≠ k →
                (let hit := (s.slot j).overlapsOn b x.first x.count
                 (hit = true → (s.slot j).state = .filling →
                    ((s.slot j).staleRetry = true → (s.slot j).joined (t.slot j))
                    ∧ ((s.slot j).staleRetry = false → (s.slot j).refetch = true →
                        { s.slot j with blocking := (s.slot j).blocking ++ [c] }.joined (t.slot j))
                    ∧ ((s.slot j).staleRetry = false → (s.slot j).refetch = false → (s.slot j).refetchCount < 4 →
                        { s.slot j with refetch := true, blocking := [c] }.joined (t.slot j))
                    ∧ ((s.slot j).staleRetry = false → (s.slot j).refetch = false → 4 ≤ (s.slot j).refetchCount →
                        { s.slot j with staleRetry := true, blocking := [] }.joined (t.slot j)))
                  ∧ (hit = true → (s.slot j).state = .resident →
                    ((s.slot j).deliveries = 0 → (t.slot j).state = .free)
                    ∧ ((s.slot j).deliveries ≠ 0 → t.slot j = { s.slot j with state := .stale }))
                  ∧ (hit = false ∨ (s.slot j).state ∉ [.filling, .resident] → (s.slot j).joined (t.slot j)))))
      ∧ (let reached := 1 ≤ (s.group g).cap ∧ (s.group g).cap ≤ (t.meter g).reads.current + (t.meter g).writes.current
         (reached → t.group g = { s.group g with capReached := true } ∧ (t.meter g).capped = true)
          ∧ (¬reached → t.group g = s.group g ∧ (t.meter g).capped = (s.meter g).capped))
      ∧ ∀ h, h ≠ g → t.group h = s.group h)
  ∧ (∀ (s : State) (b : Fin 24) (g c : Nat) (x : Transfer) (tags : Tags), s.exchange.part ∈ [.running, .stopping] →
    b.val ∉ s.staging.slotWait → s.choice b = some (g, c, tags) → s.transfer? c = some x → x.bay = b.val →
    s.freeTag b ≠ none → s.allocate b = none →
    ∃ t, exec (.dispatch b) s = .next t ∧ t.staging = { s.staging with slotWait := s.staging.slotWait ++ [b.val] }
      ∧ Touches [.staging, .ports] s t)
  ∧ ∀ (s : State) (b : Fin 24), s.exchange.part ∈ [.running, .stopping] → b.val ∉ s.staging.slotWait → s.choice b = none →
    ∃ t, exec (.dispatch b) s = .next t ∧ (∀ k, (t.slot k).reservedFor ≠ some b.val) ∧ Touches [.staging, .ports] s t

/-! ## The Delivery Engine and the staging memory -/

/-- An idle channel takes the oldest item that has none. A read delivery that ends leaves the blocks it copied in the buffer of its order;
one that is stopped may have written bytes of the next block in the segments it had begun, and every other address, of the buffer too,
stays as it was; it is answered, OK or BUFFER_FAULT with the whole blocks copied, and lowers the deliveries
of its slot; a STALE slot that nothing is delivered from any more is FREE (R33, R40, R41, R43, R46, R48, R85, R87). A slot that becomes
available so is offered: where a bay waits for one it is FREE and reserved for the bay at the head of the Slot Wait list, which leaves the
list (R89). In RESTARTING and HALTED it is neither answered nor offered (R89, R104). Nothing is known of the bytes that a stopped delivery
may have written, also where they overlap a whole block (log entry 29), and no more blocks count than the order has (log entry 18). -/
def Obligations.DeliveriesRunOnChannels : Prop :=
  (∀ (s : State) (ch : Fin 8) (before after : List Item) (it : Item), s.exchange.part ∈ [.running, .stopping] →
    s.engine.items = before ++ it :: after → (∀ j ∈ before, j.channel ≠ none) → it.channel = none →
    (∀ j ∈ s.engine.items, j.channel ≠ some ch.val) →
    exec (.deliveryItemStart ch) s = .next { s with engine := { items := before ++ { it with channel := some ch.val } :: after } })
  ∧ ∀ (s : State) (ch : Fin 8) (r : DeliveryResult) (it : Item) (x : Transfer),
    s.itemOn ch = some it → it.fetch = false → s.transfer? it.cell = some x → x.count ≠ 0 →
    (s.slot it.slot).state ∈ [.resident, .stale] →
    (let blocks := match r with
       | .complete => x.count
       | .bufferError _ n => min n x.count
     let begun := match r with
       | .complete => 6
       | .bufferError segment _ => segment.val + 1
     let serves := s.exchange.part ∈ [PartState.stopped, .running, .stopping]
     ∃ t, exec (.deliveryEnd ch r) s = .next t
      ∧ (serves → r = .complete → s.answered t [reported it.cell .ok 0 x.count (sourceOf it.led x.count)])
      ∧ (∀ segment n, serves → r = .bufferError segment n →
          s.answered t [reported it.cell .bufferFault segment (min n x.count) (sourceOf it.led (min n x.count))])
      ∧ (¬serves → t.exchange = s.exchange)
      ∧ t.engine.items = s.engine.items.filter (fun j => j.channel != some ch.val)
      ∧ (1 < (s.slot it.slot).deliveries → t.slot it.slot =
          { s.slot it.slot with deliveries := (s.slot it.slot).deliveries - 1 })
      ∧ ((s.slot it.slot).deliveries ≤ 1 → (s.slot it.slot).state = .stale →
          (serves → s.offered t it.slot) ∧ (¬serves → t.slot it.slot = .free))
      ∧ ((s.slot it.slot).deliveries ≤ 1 → (s.slot it.slot).state = .resident →
          (serves → s.offeredResident t it.slot { s.slot it.slot with deliveries := 0 })
          ∧ (¬serves → t.slot it.slot = { s.slot it.slot with deliveries := 0 }))
      ∧ (1 < (s.slot it.slot).deliveries ∨ ¬serves → t.staging.slotWait = s.staging.slotWait)
      ∧ s.otherSlots t it.slot
      ∧ (s.ordersChecked → x.kind.isRead = true → ∀ o p d, s.order? it.cell = some o → (s.slot it.slot).place = some p →
          (s.slot it.slot).data = some d → s.delivered t o.copy x d p.first blocks begun)
      ∧ Touches [.answers, .staging, .engine, .hostMem] s t)

/-- A write fetch that completes puts its bytes into the slot, and the disk write is sent on the command tag that the write's dispatch took
(R42, R91), or waits for the ready line; one that fails is
answered, its command tag is released, and its slot is FREE, or BAD after a staging error; a write that sends no disk write has ended its
drain, and a fill that waited for it is read again. A slot that became FREE is offered to the bay that waits first for one, a BAD slot
never (R89). A read delivery that finds a staging error ends every delivery of its slot, answers each, leaves in the buffer of each that
shares no byte with another's the whole blocks its channel had copied, and the slot is BAD; the fault is offered and its record captured
(R33, R46, R48, R91, R94, R95, R100, R101, R103, R160, R162). The bytes are one number, cut off at the slot's range, and no more blocks
count than the order has (log entry 18, log entry 24). Of the bytes of the block behind the whole ones nothing is known in any segment
(log entry 29). -/
def Obligations.FetchesAndStagingErrors : Prop :=
  (∀ (s : State) (ch : Fin 8) (it : Item) (p : Place) (c : Nat), s.exchange.part ∈ [.stopped, .running, .stopping] →
    s.itemOn ch = some it → it.fetch = true → (s.slot it.slot).place = some p → (s.slot it.slot).lead = some c →
    (∀ data, (s.slot it.slot).fetchFailure = none →
      ∃ t, exec (.fetchEnd ch (.complete data)) s = .next t
        ∧ t.slot it.slot = { s.slot it.slot with phase := some .disk, data := some (data % 2 ^ (8 * 4096 * p.count)) }
        ∧ s.otherSlots t it.slot ∧ s.answered t []
        ∧ ((s.lines p.bay).ready = true →
            ∃ d ∈ (t.bay p.bay).outstanding,
              d.kind = .write ∧ d.first = p.first ∧ d.count = p.count ∧ d.tag = s.tagOf p.bay c)
        ∧ ((s.lines p.bay).ready = false →
            ∃ d ∈ (t.bay p.bay).sendList,
              d.kind = .write ∧ d.first = p.first ∧ d.count = p.count ∧ d.tag = s.tagOf p.bay c))
    ∧ (∀ segment, (s.slot it.slot).fetchFailure = none →
      ∃ t, exec (.fetchEnd ch (.bufferError segment)) s = .next t ∧ s.offered t it.slot
        ∧ s.answered t [plain it.cell .bufferFault segment]
        ∧ (∀ i, s.tagOf p.bay it.cell = some i → t.tagHolder p.bay i = none)
        ∧ ((s.slot it.slot).state = .draining → s.unblocked t it.cell))
    ∧ ((s.slot it.slot).fetchFailure = none →
      ∃ t, exec (.fetchEnd ch .stagingError) s = .next t ∧ t.slot it.slot = { Slot.free with state := .bad }
        ∧ s.answered t [plain it.cell .stagingError it.slot] ∧ t.staging.slotWait = s.staging.slotWait
        ∧ (∀ i, s.tagOf p.bay it.cell = some i → t.tagHolder p.bay i = none)
        ∧ ((s.slot it.slot).state = .draining → s.unblocked t it.cell) ∧ s.tookOffer t .stagingError it.slot 0 1)
    ∧ ∀ cause r, (s.slot it.slot).fetchFailure = some cause →
      ∃ t, exec (.fetchEnd ch r) s = .next t ∧ s.offered t it.slot
        ∧ s.answered t [plain it.cell .diskFault cause.code]
        ∧ ((s.slot it.slot).state = .draining → s.unblocked t it.cell))
  ∧ ∀ (s : State) (ch : Fin 8) (copied : List Nat) (it : Item), s.exchange.part ∈ [.stopped, .running, .stopping] →
    s.itemOn ch = some it → it.fetch = false →
    (let ended := s.engine.items.filter (fun j => !j.fetch && j.slot == it.slot)
     let blocks := fun j : Item => match j.channel with
       | some n => min (copied.getD n 0) (s.countOf j.cell)
       | none => 0
     ∃ t, exec (.stagingError ch copied) s = .next t ∧ t.slot it.slot = { Slot.free with state := .bad }
      ∧ it.slot ∉ t.staging.residency ∧ s.otherSlots t it.slot ∧ t.staging.slotWait = s.staging.slotWait
      ∧ t.engine.items = s.engine.items.filter (fun j => j.fetch || j.slot != it.slot)
      ∧ s.answered t (ended.map (fun j => reported j.cell .stagingError it.slot (blocks j) (sourceOf j.led (blocks j))))
      ∧ s.tookOffer t .stagingError it.slot 0 ended.length
      ∧ (s.ordersChecked → ∀ z, (∀ j ∈ ended, j.channel ≠ none → ∀ o, s.order? j.cell = some o →
            ∀ i, bufferAddress (Copy.segments o.copy) i ≠ some z) →
          Memory.read t.hostMem z = Memory.read s.hostMem z)
      ∧ ∀ before j after o x p d, s.ordersChecked → ended.filter (fun j => j.channel.isSome) = before ++ j :: after →
          s.order? j.cell = some o →
          (∀ e ∈ before ++ after, ∀ q, s.order? e.cell = some q → ∀ m i z, bufferAddress (Copy.segments o.copy) m = some z →
            bufferAddress (Copy.segments q.copy) i ≠ some z) →
          o.transfer = some x → x.kind.isRead = true → (s.slot it.slot).place = some p → (s.slot it.slot).data = some d →
          s.deliveredWithin t o.copy x d p.first (blocks j) 6)

/-! ## Disk commands -/

/-- A disk read that ends good makes its slot RESIDENT, starts the deliveries of the lead and of each joiner, and reports the joiners'
blocks as staged; of a fill due to refetch its data is discarded, and it is read again on its command tag once no write blocks it; marked
STALE_RETRY, it answers its orders and frees the slot. A disk write that ends good makes its slot RESIDENT and answers its lead; it leaves
the blocking writes, and a fill that waited for it alone is read again. A media error is counted up to 65535, with a Bay Summary rewrite
where the count changes, answers the orders, and frees the slot; on a control command it is taken as a link error (R123). A slot that
becomes FREE, or RESIDENT with nothing to deliver, is offered to the bay that waits first for one (R89). Each end but a refetch releases
the command tag (R47, R86, R91, R94 to R97, R113, R126). Data is one number, cut off at the slot's range, and the first bad block of a
write at its range (log entry 18, log entry 24). A report names its command by bay, tag and number (log entry 16), and a Bay Summary
number wraps to 0 (log entry 38). -/
def Obligations.DiskTransfersEnd : Prop :=
  (∀ (s : State) (b : Fin 24) (i : Fin 4) (n data k c : Nat) (p : Place) (d : Command),
    s.exchange.part ∈ [.stopped, .running, .stopping] → (s.bay b).command? (some i.val) n = some d → d.kind = .read →
    s.slotOf b i .filling = some k → (s.slot k).place = some p → (s.slot k).lead = some c →
    ((s.slot k).staleRetry = false → (s.slot k).refetch = false →
      ∃ t, exec (.diskReadEnd b ⟨i, n⟩ data) s = .next t
        ∧ t.slot k = { Slot.free with state := .resident, place := some p, deliveries := 1 + (s.slot k).joiners.length,
                                      data := some (data % 2 ^ (8 * 4096 * p.count)) }
        ∧ t.staging.residency = s.staging.residency.filter (fun j => j != k) ++ [k] ∧ t.tagHolder b i = none
        ∧ t.engine.items = s.engine.items ++ { cell := c, slot := k, fetch := false, led := true, channel := none }
            :: (s.slot k).joiners.map (fun j => { cell := j, slot := k, fetch := false, led := false, channel := none })
        ∧ (∀ g, (let mine := ((s.slot k).joiners.filterMap s.transfer?).filter (fun x => x.group == g)
            (t.meter g).staged = if mine = [] then (s.meter g).staged
              else { (s.meter g).staged with
                       current := min 4294967295 ((s.meter g).staged.current + (mine.map (fun x => x.count)).sum) }))
        ∧ s.answered t [])
    ∧ ((s.slot k).staleRetry = false → (s.slot k).refetch = true →
      ∃ t, exec (.diskReadEnd b ⟨i, n⟩ data) s = .next t ∧ t.tagHolder b i = some c ∧ t.engine = s.engine ∧ t.meters = s.meters
        ∧ s.answered t [] ∧ s.otherSlots t k ∧ (t.arbiter b).v = (s.arbiter b).v ∧ (t.arbiter b).h = (s.arbiter b).h
        ∧ ((s.slot k).blocking ≠ [] → t.slot k = { s.slot k with readEnded := true })
        ∧ ((s.slot k).blocking = [] →
            t.slot k = { s.slot k with refetch := false, refetchCount := (s.slot k).refetchCount + 1, readEnded := false }
              ∧ ∃ e ∈ (if (s.lines b).ready then (t.bay b).outstanding else (t.bay b).sendList),
                  e.kind = .read ∧ e.first = p.first ∧ e.count = p.count ∧ e.tag = s.tagOf b c))
    ∧ ((s.slot k).staleRetry = true →
      ∃ t, exec (.diskReadEnd b ⟨i, n⟩ data) s = .next t ∧ s.offered t k ∧ t.tagHolder b i = none
        ∧ s.answered t ((c :: (s.slot k).joiners).map (fun j => plain j .staleRetry k)))
    ∧ ∀ firstBad : Word, ∃ t, exec (.mediaError b ⟨some i, n⟩ firstBad) s = .next t ∧ s.offered t k
        ∧ t.tagHolder b i = none ∧ (t.bay b).mediaErrors = min 65535 ((s.bay b).mediaErrors + 1)
        ∧ ((s.bay b).mediaErrors < 65535 → s.summaryAsked t)
        ∧ ((s.bay b).mediaErrors = 65535 → (s.bay b).state = .online → s.summaryNotAsked t)
        ∧ s.answered t ((c :: (s.slot k).joiners).map (fun j => plain j .mediaError firstBad.toNat)))
  ∧ (∀ (s : State) (b : Fin 24) (tag : Option (Fin 4)) (n : Nat) (d : Command) (firstBad : Word),
    (s.bay b).command? (tag.map (fun i => i.val)) n = some d → d.kind ∈ [.standby, .start, .identify] →
    ∃ t, exec (.mediaError b ⟨tag, n⟩ firstBad) s = .next t ∧ exec (.linkError b ⟨tag, n⟩) s = .next t)
  ∧ ∀ (s : State) (b : Fin 24) (i : Fin 4) (n k c : Nat) (x : Transfer) (d : Command),
    s.exchange.part ∈ [.stopped, .running, .stopping] → (s.bay b).command? (some i.val) n = some d → d.kind = .write →
    s.slotOf b i .draining = some k → (s.slot k).lead = some c → s.transfer? c = some x →
    (∃ t, exec (.diskWriteEnd b ⟨i, n⟩) s = .next t ∧ t.tagHolder b i = none ∧ s.unblocked t c
      ∧ s.offeredResident t k { Slot.free with state := .resident, place := (s.slot k).place, data := (s.slot k).data }
      ∧ s.answered t [if x.residue = 0 then reported c .ok (x.reserved.getD 0) x.count .disk
          else reported c .okTruncated x.residue x.count .disk])
    ∧ ∀ firstBad : Word, ∃ t, exec (.mediaError b ⟨some i, n⟩ firstBad) s = .next t ∧ s.offered t k
        ∧ t.tagHolder b i = none ∧ (t.bay b).mediaErrors = min 65535 ((s.bay b).mediaErrors + 1) ∧ s.unblocked t c
        ∧ s.answered t [reported c .mediaError firstBad.toNat (min (firstBad.toNat - x.first) x.count)
            (sourceOf true (min (firstBad.toNat - x.first) x.count))]

/-- The first and second link error of a command resend it with its count raised. A timeout, a lost ready line, the third link error of a
command, and the time limit of an admission or a spin-up are bay faults: the bay record, every loan in the conflict set or LAPSED, every
waiting loan, every queued order, every command tag and every slot of the bay take their effects, the fault is offered with the loans
and orders it hit and captured, and a Bay Summary rewrite is asked for (R27, R59, R74, R103, R121, R124, R125, R129, R133, R136, R138,
R139, R142, R160, R162). A report names its command by bay, tag and number, and a resend is given the next number (log entry 16). A fetch
that an earlier fault doomed takes the cause of the later one (log entry 36), and a Bay Summary number wraps to 0 (log entry 38). -/
def Obligations.LinkErrorsAndBayFaults : Prop :=
  (∀ (s : State) (b : Fin 24) (tag : Option (Fin 4)) (n : Nat) (d : Command), s.exchange.part ∈ [.stopped, .running, .stopping] →
    (s.bay b).command? (tag.map (fun i => i.val)) n = some d → d.linkErrors < 2 →
    ∃ t, exec (.linkError b ⟨tag, n⟩) s = .next t ∧ (t.bay b).state = (s.bay b).state ∧ s.otherBays t b
      ∧ (d.kind ∈ [.start, .identify] ∨ (s.lines b).ready = true →
          { d with linkErrors := d.linkErrors + 1, timer := 0, number := (s.bay b).sends } ∈ (t.bay b).outstanding
            ∧ (t.bay b).sends = (s.bay b).sends + 1)
      ∧ (d.kind ∈ [.read, .write, .standby] → (s.lines b).ready = false →
          { d with linkErrors := d.linkErrors + 1 } ∈ (t.bay b).sendList)
      ∧ Touches [.records] s t)
  ∧ ∀ (s : State) (b : Fin 24) (command : Instr) (cause : Cause), s.exchange.part ∈ [.stopped, .running, .stopping] →
    ((∃ tag n d, command = .cmdTimeout b ⟨tag, n⟩ ∧ (s.bay b).command? (tag.map (fun i => i.val)) n = some d
        ∧ d.kind ∈ [.read, .write, .standby] ∧ cause = .cmdTimeout)
      ∨ (command = .readyLost b ∧ (s.bay b).watched = true ∧ (s.lines b).ready = false ∧ cause = .readyLost)
      ∨ (∃ tag n d, command = .linkError b ⟨tag, n⟩ ∧ (s.bay b).command? (tag.map (fun i => i.val)) n = some d ∧ 2 ≤ d.linkErrors
        ∧ ((d.kind ∈ [.read, .write, .standby] ∧ cause = .linkFailed)
          ∨ (d.kind ∈ [.start, .identify] ∧ (s.bay b).state = .admitting ∧ cause = .admitFailed)
          ∨ (d.kind ∈ [.start, .identify] ∧ (s.bay b).state = .spinningUp ∧ cause = .spinupFailed)))
      ∨ (command = .operationTimeout b ∧ (s.bay b).state = .admitting ∧ cause = .admitFailed)
      ∨ (command = .operationTimeout b ∧ (s.bay b).state = .spinningUp ∧ cause = .spinupFailed)) →
    ∃ t, exec command s = .next t ∧ t.bay b = (s.bay b).afterFault cause ∧ (t.bay b).state = .faulted
      ∧ (∀ c, (s.bay b).admitCell = some c → plain c .diskFault 1 ∈ t.exchange.answerList)
      ∧ s.faultReached t b cause

/-- STANDBY ends a spin-down, in SPUN_DOWN or in what was pending, and a retirement; START with the ready line high ends a spin-up and
takes an admission on to IDENTIFY; a bay that spins up into RETIRING with every loan FREE and without work is sent its final STANDBY
(R135), in RESTARTING and HALTED too (log entry 11); what was staged of a bay that becomes PRESENT is dropped while the part serves
(R103); IDENTIFY with a size ends the admission, with V, H and every F of the bay at 0 and what was staged of the bay dropped; with size 0
it fails, a bay fault (R75, R103, R128, R129, R131 to R135, R138, R139). Each change of the bay's state asks for a Bay Summary rewrite, held
where no record write may begin (R121, R142). A report names its command by bay and number, and the number of a send is the model's own
(log entry 16), a fetch doomed before takes the cause of this fault (log entry 36), and a Bay Summary number wraps to 0 (log entry 38). -/
def Obligations.SpinOperationsEnd : Prop :=
  (∀ (s : State) (b : Fin 24) (n : Nat) (d : Command), (s.bay b).command? none n = some d → d.kind = .standby →
    ∃ t, exec (.standbyEnd ⟨b, n⟩) s = .next t ∧ s.otherBays t b
      ∧ ((s.bay b).state ∈ [.retiring, .spinningDown] → s.summaryAsked t)
      ∧ ((s.bay b).state = .retiring → (t.bay b).state = .present ∧ (t.bay b).capacity = 0)
      ∧ ((s.bay b).state = .spinningDown →
          ((s.bay b).spinUpPending = true → (t.bay b).state = .spinningUp ∧ (t.bay b).spinUpPending = false)
          ∧ ((s.bay b).spinUpPending = false → (s.bay b).retirePending = false → (t.bay b).state = .spunDown)
          ∧ ((s.bay b).spinUpPending = false → (s.bay b).retirePending = true →
              (t.bay b).state = if s.holdsLoans b || s.hasWork b then .spinningUp else .present))
      ∧ (s.exchange.part ∈ [.stopped, .running, .stopping] → (s.bay b).state ∈ [.retiring, .spinningDown] →
          (t.bay b).state = .present → ∀ k, (s.slot k).onBay b = true → (s.slot k).state = .resident →
            ((s.slot k).deliveries = 0 → (t.slot k).state = .free)
            ∧ ((s.slot k).deliveries ≠ 0 → t.slot k = { s.slot k with state := .stale })))
  ∧ (∀ (s : State) (b : Fin 24) (n : Nat) (d : Command), (s.bay b).command? none n = some d → d.kind = .start →
    ∃ t, exec (.startEnd ⟨b, n⟩) s = .next t ∧ s.otherBays t b
      ∧ ((s.lines b).ready = false → t.bay b = (s.bay b).endCommand none n)
      ∧ ((s.lines b).ready = true → (s.bay b).state = .spinningUp →
          (t.bay b).state = (if (s.bay b).retirePending then .retiring else .online) ∧ (t.bay b).retirePending = false
          ∧ s.summaryAsked t
          ∧ ((s.bay b).retirePending = true → s.tablesOrdered → (∀ m, (s.loan m).bay = b → (s.loan m).state = .free) →
              s.hasWork b = false → (∀ e ∈ (s.bay b).outstanding ++ (s.bay b).sendList, e.kind ≠ .standby) → s.standbySent t b))
      ∧ ((s.lines b).ready = true → (s.bay b).state = .admitting →
          (t.bay b).state = .admitting ∧ ∃ e ∈ (t.bay b).outstanding, e.kind = .identify))
  ∧ ∀ (s : State) (b : Fin 24) (n : Nat) (d : Command) (size : BitVec 64), s.exchange.part ∈ [.stopped, .running, .stopping] →
    (s.bay b).command? none n = some d → d.kind = .identify → (s.bay b).state = .admitting →
    ∃ t, exec (.identifyEnd ⟨b, n⟩ size) s = .next t
      ∧ (size ≠ 0 → (t.bay b).state = .online ∧ (t.bay b).capacity = min 4294967295 size.toNat ∧ (t.bay b).mediaErrors = 0
          ∧ (t.bay b).admitCell = none ∧ (t.arbiter b).v = 0 ∧ (t.arbiter b).h = 0
          ∧ (∀ g, g < 16 → t.fifo b g = { s.fifo b g with lastFinish := 0 })
          ∧ (∀ k, (s.slot k).onBay b = true → (s.slot k).state = .resident →
              ((s.slot k).deliveries = 0 → (t.slot k).state = .free)
              ∧ ((s.slot k).deliveries ≠ 0 → t.slot k = { s.slot k with state := .stale }))
          ∧ s.summaryAsked t
          ∧ s.answered t ((s.bay b).admitCell.toList.map (fun c => plain c .ok (min 4294967295 size.toNat))))
      ∧ (size = 0 → t.bay b = (s.bay b).afterFault .admitFailed ∧ (t.bay b).state = .faulted
          ∧ (∀ c, (s.bay b).admitCell = some c → plain c .diskFault 1 ∈ t.exchange.answerList)
          ∧ s.faultReached t b .admitFailed)

/-- After BRINGUP, a rise of the ready line sends what waits to be sent and ends a spin-up whose START has ended, or takes an admission
whose START has ended on to IDENTIFY; a fall starts the ready-low timer from 0; a rise of the presence line makes an EMPTY bay PRESENT, a
fall empties the bay, as a fault with cause REMOVED where it holds loans or has work (also work of a doomed fetch while ADMITTING, log entry
28); each presence edge is captured where the bay watches for it; each change of the bay's state or its captured flag, a fault's too, asks
for a Bay Summary rewrite, held where no record write may begin (R121, R122, R128, R133, R136 to R139, R141, R142). The number of a send is
the model's own (log entry 16), a fetch doomed before takes the cause of the removal (log entry 36), and a Bay Summary number wraps to 0
(log entry 38). -/
def Obligations.LinesAreWatched : Prop :=
  (∀ (s : State) (b : Fin 24), s.exchange.part ≠ .bringup → (s.lines b).ready = false →
    ∃ t, exec (.readyRise b) s = .next t ∧ t.lines b = { s.lines b with ready := true } ∧ s.otherBays t b
      ∧ (t.bay b).sendList = []
      ∧ (∀ (i : Nat) (c : Command), (s.bay b).sendList[i]? = some c → { c with timer := 0, number := (s.bay b).sends + i } ∈ (t.bay b).outstanding)
      ∧ ((s.bay b).state = .spinningUp → (s.bay b).outstanding = [] → (s.bay b).sendList = [] →
          (t.bay b).state = (if (s.bay b).retirePending then .retiring else .online) ∧ s.summaryAsked t)
      ∧ ((s.bay b).state = .admitting → (s.bay b).outstanding = [] → (s.bay b).sendList = [] →
          (t.bay b).state = .admitting ∧ ∃ e ∈ (t.bay b).outstanding, e.kind = .identify))
  ∧ (∀ (s : State) (b : Fin 24), s.exchange.part ≠ .bringup → (s.lines b).ready = true →
    ∃ t, exec (.readyFall b) s = .next t ∧ t.lines b = { s.lines b with ready := false }
      ∧ t.bay b = { s.bay b with readyLow := 0 } ∧ s.otherBays t b ∧ Touches [.records, .lines] s t)
  ∧ (∀ (s : State) (b : Fin 24), s.exchange.part ≠ .bringup → (s.lines b).presence = false →
    ∃ t, exec (.presenceRise b) s = .next t ∧ t.lines b = { s.lines b with presence := true } ∧ s.otherBays t b
      ∧ t.bay b = { s.bay b with
          state := if (s.bay b).state = .empty then .present else (s.bay b).state,
          captured := (s.bay b).captured || ((s.bay b).captureEnable && (s.bay b).edgeSelect != .remove) }
      ∧ ((s.bay b).captureEnable = true → (s.bay b).captured = false → (s.bay b).edgeSelect ≠ .remove → (s.bay b).noticeOn = true →
          t.notices.flags.bay = true)
      ∧ ((s.bay b).state = .empty ∨ ((s.bay b).captured = false ∧ (t.bay b).captured = true) → s.summaryAsked t)
      ∧ ((s.bay b).state ≠ .empty → (t.bay b).captured = (s.bay b).captured → s.summaryNotAsked t))
  ∧ ∀ (s : State) (b : Fin 24), s.exchange.part ≠ .bringup → (s.lines b).presence = true → (s.bay b).state ≠ .empty →
    ∃ t, exec (.removal b) s = .next t ∧ t.lines b = { s.lines b with presence := false }
      ∧ (t.bay b).state = .empty ∧ (t.bay b).capacity = 0 ∧ (t.bay b).outstanding = [] ∧ (t.bay b).sendList = []
      ∧ s.summaryAsked t
      ∧ (t.bay b).captured = ((s.bay b).captured || ((s.bay b).captureEnable && (s.bay b).edgeSelect != .insert))
      ∧ (s.exchange.part ∈ [.stopped, .running, .stopping] → (s.bay b).state ≠ .faulted →
          s.holdsLoans b = true ∨ s.hasWork b = true →
          (t.bay b).lastFault = .removed ∧ s.faultReached t b .removed
            ∧ ∀ c, (s.bay b).admitCell = some c → plain c .diskFault 1 ∈ t.exchange.answerList)
      ∧ (((s.bay b).state = .faulted ∨ (s.holdsLoans b = false ∧ s.hasWork b = false)) →
          (t.bay b).lastFault = (s.bay b).lastFault ∧ t.capture.sequence = s.capture.sequence
            ∧ (s.exchange.part ∈ [.stopped, .running, .stopping] →
                s.answered t ((s.bay b).admitCell.toList.map (fun c => plain c .diskUnavailable 0))))

/-! ## Ends of accesses to the Exchange Area -/

/-- An answer that has been written leaves its fields, the snapshot of a LOAN_QUERY and ANSWERED in its cell, and no other byte of it
changes; while the part serves the list the cell enters the Answer Queue and leaves the Held Cell set, the order is metered, and its loan's
in-flight count falls; at 0 a RETURNING loan is freed, a LAPSING one is LAPSED or freed, and a FAULTED one with a RETURN held is freed, the
RETURN answered OK and the bay examined where the loan leaves the conflict set; a RETIRING bay without work whose last loan this frees is
sent its final STANDBY (R135). The report of an append commits or breaks (R112, R114). In RESTARTING and HALTED only the bytes are there. An
interim write leaves the loan number in the detail field (R7, R9, R15, R20, R23, R26, R112, R114, R153, R172, R178, R192, R199). Behind
either the write of the next entry begins, and a STOPPING part whose Held Cell set and Answer Write list it leaves empty enters STOPPED
(R178, R185), unless a take is in progress (the model's reading, log entry 14). The stamp is the tick count at the end of the write (log
entry 12); the entry of an append is found by its offset (log entry 30); the number of a STANDBY and the count of the bay's sends are the
model's own (log entry 16). The answer area is 16 bytes with the fields of Table 11-7 at their offsets, and the result codes are those of
Table 11-9 (R199). -/
def Obligations.AnswersAreWritten : Prop :=
  [Result.ok, .okTruncated, .format, .noLoan, .outOfLoan, .mode, .range, .conflict, .waitExpired, .cancelled, .lapsed, .tooLate, .tableFull,
    .diskUnavailable, .diskFault, .mediaError, .bufferFault, .stagingError, .staleRetry, .extentFull, .appendBroken,
    .wrongState].map Result.code = List.range 22
  ∧ [Source.none, .disk, .staged].map Source.code = List.range 3
  ∧ (∀ (a : Answer) (stamp : BitVec 32) (hostTag : Nat), (answerImage a stamp hostTag).length = 16
      ∧ laidOut 112 (answerImage a stamp hostTag)
          [(112, 1, a.result.code), (113, 1, a.source.code), (114, 2, a.blocksDone), (116, 4, a.detail), (120, 4, stamp.toNat),
           (124, 2, hostTag), (126, 2, 0)])
  ∧ (∀ (s : State) (a : Answer) (rest : List AnswerWrite), s.exchange.answerBusy = true →
    s.exchange.answerList = .answer a :: rest →
    ∃ t, exec .answerWritten s = .next t
      ∧ Memory.read t.hostMem (s.cellAddress a.cell 0 % 18446744073709551616) = some 3
      ∧ (∀ i, i < 16 → Memory.read t.hostMem (s.cellAddress a.cell (112 + i) % 18446744073709551616)
          = (answerImage a s.clock.tickCount (s.hostTagOf a.cell))[i]?)
      ∧ (∀ bytes, a.snapshot = some bytes → bytes.length = 48 → ∀ i, i < 48 →
          Memory.read t.hostMem (s.cellAddress a.cell (32 + i) % 18446744073709551616) = bytes[i]?)
      ∧ (∀ i, 1 ≤ i → i < 112 → (a.snapshot = none ∨ i < 32 ∨ 80 ≤ i) →
          Memory.read t.hostMem (s.cellAddress a.cell i % 18446744073709551616)
            = Memory.read s.hostMem (s.cellAddress a.cell i % 18446744073709551616))
      ∧ s.otherBytes t (s.cellAddress a.cell 0) 128
      ∧ (s.exchange.part ∈ [.stopped, .running, .stopping] →
          t.exchange.answerQueue = s.exchange.answerQueue ++ [a.cell] ∧ t.isHeld a.cell = false
          ∧ (∀ c, c ≠ a.cell → t.order? c = s.order? c) ∧ (∃ more, t.exchange.answerList = rest ++ more)
          ∧ t.exchange.held = s.exchange.held.filter (fun o => o.cell != a.cell)
          ∧ t.exchange.answerBusy = !t.exchange.answerList.isEmpty ∧ s.stopsOnceEmpty t
          ∧ t.notices.flags.answer = (s.exchange.control.answerMode == .each || s.notices.flags.answer
              || s.exchange.answerQueue.isEmpty)
          ∧ (s.transfer? a.cell = none → t.meters = { s.meters with noGroup := s.meters.noGroup.add 1 } ∧ t.loans = s.loans)
          ∧ (∀ x, s.transfer? a.cell = some x →
              (t.meter x.group).orders.current = min 4294967295 ((s.meter x.group).orders.current + 1)
              ∧ (x.loan = none → t.loans = s.loans)
              ∧ ∀ n, x.loan = some n →
                  (let l := s.loan n
                   let told := l.append.map (fun r => r.reported x.reserved a.result)
                   (1 < l.inFlight ∨ l.state ∈ [.free, .waiting, .held, .lapsed] ∨ (l.state = .faulted ∧ l.returnCell = none) →
                      t.loan n = { l with inFlight := l.inFlight - 1, append := told } ∧ s.otherLoans t n
                        ∧ t.loans.waiting = s.loans.waiting ∧ t.exchange.answerList = rest)
                    ∧ (l.inFlight ≤ 1 → l.state = .lapsing → l.returnCell = none → n ∉ s.waiting l.bay →
                      ∃ granted, t.loan n = { l with state := .lapsed, inFlight := 0, append := told }
                        ∧ (∀ m, m ≠ n → m ∉ granted → t.loan m = s.loan m)
                        ∧ t.exchange.answerList = rest ++ s.grantAnswers granted
                        ∧ (s.waitingListed → (s.setLoan n { l with state := .lapsed }).examined t l.bay granted))
                    ∧ (l.inFlight ≤ 1 → l.state = .returning ∨ (l.state = .lapsing ∧ l.returnCell ≠ none) →
                      ∃ granted, t.loan n = .free ∧ n ∉ t.exchange.lapseQueue
                        ∧ (∀ m, m ≠ n → m ∉ granted → t.loan m = s.loan m)
                        ∧ t.exchange.answerList
                            = rest ++ l.returnCell.toList.map (fun c => plain c .ok n) ++ s.grantAnswers granted
                        ∧ (s.waitingListed → (s.freeLoan n).examined t l.bay granted)
                        ∧ (s.waitingListed → s.tablesOrdered → s.retiresWithout l.bay n → s.standbySent t l.bay))
                    ∧ (l.inFlight ≤ 1 → l.state = .faulted → l.returnCell ≠ none →
                      t.loan n = .free ∧ s.otherLoans t n ∧ n ∉ t.exchange.lapseQueue
                        ∧ t.exchange.answerList = rest ++ l.returnCell.toList.map (fun c => plain c .ok n)
                        ∧ (s.tablesOrdered → s.retiresWithout l.bay n → s.standbySent t l.bay)))))
      ∧ (s.exchange.part ∉ [.stopped, .running, .stopping] →
          t.exchange = { s.exchange with answerBusy := false } ∧ Touches [.answers, .hostMem] s t))
  ∧ (∀ (a : AppendRecord) (r : Result), a.reported none r = a)
  ∧ (∀ (a : AppendRecord) (offset : Nat) (r : Result), a.blocksIntoFrame < a.frameBlocks → r ∈ [.ok, .okTruncated] →
    a.commits (a.reported (some offset) r)
      (a.reservations.map (fun e => if e.offset = offset then { e with good := true } else e)))
  ∧ (∀ (a : AppendRecord) (offset : Nat) (r : Result), a.blocksIntoFrame < a.frameBlocks → r ∉ [.ok, .okTruncated] →
    { a with broken := true, breakPoint := some ((a.breakPoint.map (fun p => min p offset)).getD offset) }.commits
      (a.reported (some offset) r) (a.reservations.filter (fun e => e.offset != offset)))
  ∧ ∀ (s : State) (c n : Nat) (rest : List AnswerWrite), s.exchange.answerBusy = true → s.exchange.answerList = .interim c n :: rest →
    ∃ t, exec .interimWriteEnd s = .next t
      ∧ (∀ i, i < 4 → Memory.read t.hostMem (s.cellAddress c (116 + i) % 18446744073709551616) = (leBytes 4 n)[i]?)
      ∧ s.otherBytes t (s.cellAddress c 116) 4
      ∧ (s.exchange.part ∈ [.stopped, .running, .stopping] →
          t.exchange.answerList = rest ∧ t.exchange.answerBusy = !rest.isEmpty ∧ s.stopsOnceEmpty t)
      ∧ (s.exchange.part ∉ [.stopped, .running, .stopping] → t.exchange = { s.exchange with answerBusy := false })
      ∧ Touches [.part, .answers, .hostMem] s t

/-- A record write that has ended leaves its bytes in host memory and no other: of the Fault Record, with the FAULT notice, TRIGGERED
cleared where AUTO_REARM is set, and no record in flight; of the Meter Block with the METER notice; of the Bay Summary. The FAULT notice
is not requested in RESTARTING and HALTED, the METER notice not in RESTARTING. A request held for the same record meanwhile begins then,
with the values of that moment, while the part serves and the base is not 0 (R142, R155, R162, R163, R170, R190, R200). The bytes are
those of Tables 11-10 to 11-13, with the codes of Table 6-2 (R120, R200). Where AUTO_REARM is set and the part is RUNNING or STOPPING the
end of the Fault Record write has the heads of every bay looked at again, and each bay with one that meets the conditions of R67 but that
of the bay is asked to spin up (R68, R132, R165); in every other case no bay record changes. The number of START and the count of the
bay's sends are the model's own (log entry 16), and the Bay Summary number wraps to 0 (log entry 38). -/
def Obligations.RecordsAreWritten : Prop :=
  [BayState.empty, .present, .admitting, .online, .spinningDown, .spunDown, .spinningUp, .retiring, .faulted].map BayState.code
    = List.range 9
  ∧ [Cause.none, .admitFailed, .spinupFailed, .readyLost, .cmdTimeout, .linkFailed, .removed, .stagingError].map Cause.code = List.range 8
  ∧ [EdgeSelect.insert, .remove, .both].map EdgeSelect.code = List.range 3
  ∧ (∀ r : FaultRecord, r.image.length = 20 ∧ laidOut 0 r.image
      [(0, 1, r.cause.code), (1, 1, 0), (2, 2, r.location), (4, 2, r.loansFaulted), (6, 2, r.ordersFailed), (8, 4, r.stamp.toNat),
       (12, 1, r.suppressedBefore), (13, 1, if r.autoRearm then 1 else 0), (14, 2, r.holdMask.toNat), (16, 4, r.sequence.toNat)])
  ∧ (∀ (s : State) (seq : BitVec 32), (s.summaryImage seq).length = 392
      ∧ laidOut 0 (s.summaryImage seq) [(384, 4, seq.toNat), (388, 4, seq.toNat)]
      ∧ ∀ b, b < 24 → laidOut 0 (s.summaryImage seq)
          (let v := s.bay b
           [(16 * b, 1, v.state.code), (16 * b + 1, 1, v.lastFault.code),
            (16 * b + 2, 1, (if v.captureEnable then 1 else 0) + (if v.noticeOn then 2 else 0) + (if v.captured then 4 else 0)
              + 16 * v.edgeSelect.code),
            (16 * b + 3, 1, 0), (16 * b + 4, 4, v.capacity), (16 * b + 8, 2, v.mediaErrors), (16 * b + 10, 6, 0)]))
  ∧ (∀ s : State, s.meterImage.length = 1092
      ∧ (let slots := fun st : SlotState => s.staging.slots.countP (fun e => e.2.state == st)
         laidOut 0 s.meterImage
          [(0, 4, s.meters.periodSeq.toNat), (4, 4, s.meters.endStamp.toNat), (8, 1, s.clock.meterTicks), (9, 3, 0),
           (12, 4, s.clock.interval),
           (16, 2, 256 - (slots .filling + slots .resident + slots .draining + slots .stale + slots .bad)), (18, 2, slots .filling),
           (20, 2, slots .resident), (22, 2, slots .draining), (24, 2, slots .stale), (26, 2, slots .bad), (28, 4, 0),
           (32, 4, s.meters.noGroup.last), (36, 4, 0), (40, 8, s.meters.noGroup.total), (48, 16, 0),
           (1088, 4, s.meters.periodSeq.toNat)])
      ∧ ∀ g, g < 16 → laidOut 0 s.meterImage
          (let m := s.meter g
           [(64 + 64 * g, 4, m.reads.last), (64 + 64 * g + 4, 4, m.writes.last), (64 + 64 * g + 8, 4, m.staged.last),
            (64 + 64 * g + 12, 4, m.orders.last), (64 + 64 * g + 16, 1, if m.cappedLast then 1 else 0), (64 + 64 * g + 17, 7, 0),
            (64 + 64 * g + 24, 8, m.reads.total), (64 + 64 * g + 32, 8, m.writes.total), (64 + 64 * g + 40, 8, m.staged.total),
            (64 + 64 * g + 48, 8, m.orders.total), (64 + 64 * g + 56, 8, 0)]))
  ∧ (∀ (s : State) (base : BitVec 64) (r : FaultRecord), s.capture.writing = some base → s.capture.record = some r →
    ∃ t, exec .faultRecordWriteEnd s = .next t ∧ t.capture.record = none ∧ t.capture.writing = none
      ∧ t.capture.triggered = (s.capture.triggered && !s.capture.autoRearm)
      ∧ (∀ i, i < 20 → Memory.read t.hostMem ((base.toNat + 0x20000 + i) % 18446744073709551616) = r.image[i]?)
      ∧ s.otherBytes t (base.toNat + 0x20000) 20
      ∧ t.notices.flags = { s.notices.flags with
          fault := s.notices.flags.fault || decide (s.exchange.part ∈ [.stopped, .running, .stopping]) }
      ∧ (s.capture.autoRearm = true → s.exchange.part ∈ [.running, .stopping] → s.spinUpsAsked t)
      ∧ (s.capture.autoRearm = false ∨ s.exchange.part ∉ [.running, .stopping] → t.bays = s.bays)
      ∧ Touches [.ports, .records, .capture, .notices, .hostMem] s t)
  ∧ (∀ (s : State) (w : RecordWrite), s.exchange.meterPort.inFlight = some w → w.image.length = 1092 →
    ∃ t, exec .meterBlockWriteEnd s = .next t
      ∧ (∀ i, i < 1092 → Memory.read t.hostMem ((w.base.toNat + 0x20200 + i) % 18446744073709551616) = w.image[i]?)
      ∧ s.otherBytes t (w.base.toNat + 0x20200) 1092
      ∧ t.notices.flags = { s.notices.flags with meter := s.notices.flags.meter || decide (s.exchange.part ≠ .restarting) }
      ∧ t.exchange.meterPort = (if s.exchange.meterPort.held = true ∧ s.exchange.part ∈ [.stopped, .running, .stopping]
            ∧ s.exchange.base ≠ 0 then
          { held := false, inFlight := some { base := s.exchange.base, image := t.meterImage } }
        else { s.exchange.meterPort with inFlight := none })
      ∧ Touches [.ports, .notices, .hostMem] s t)
  ∧ ∀ (s : State) (w : RecordWrite), s.exchange.summaryPort.inFlight = some w → w.image.length = 392 →
    ∃ t, exec .baySummaryWriteEnd s = .next t
      ∧ (∀ i, i < 392 → Memory.read t.hostMem ((w.base.toNat + 0x20040 + i) % 18446744073709551616) = w.image[i]?)
      ∧ s.otherBytes t (w.base.toNat + 0x20040) 392 ∧ Touches [.ports, .hostMem] s t
      ∧ (if s.exchange.summaryPort.held = true ∧ s.exchange.part ∈ [.stopped, .running, .stopping] ∧ s.exchange.base ≠ 0 then
          t.exchange.summarySeq = s.exchange.summarySeq + 1
            ∧ t.exchange.summaryPort =
              { held := false,
                inFlight := some { base := s.exchange.base, image := t.summaryImage (s.exchange.summarySeq + 1) } }
        else t.exchange.summarySeq = s.exchange.summarySeq
          ∧ t.exchange.summaryPort = { s.exchange.summaryPort with inFlight := none })

/-- A host memory error on an access that is in flight halts a STOPPED, RUNNING or STOPPING part with the cause of the access, and the
sweep ends; in RESTARTING the first one sets the halt cause; in HALTED it leaves the cause as it is. Held orders and answers decided stay
(R171, R178, R186). A take whose read or TAKEN write failed has ended, its cell is not held, and after the write its hand is TAKEN (R176).
A record keeps the parts written before the error, and for the rest what the area held before; of a Fault Record no notice is requested
and TRIGGERED stays (R163, R200). -/
def Obligations.HostMemoryErrorsHaltThePart : Prop :=
  ∀ (s : State) (access : AreaAccess) (cause : HaltCause),
    ((access = .visitRead ∧ s.exchange.sweep.reading ≠ none ∧ cause = .cell)
      ∨ (access ∈ [.takeRead, .takenWrite] ∧ s.exchange.take ≠ none ∧ cause = .cell)
      ∨ (access ∈ [.answerFields, .answerHand] ∧ s.exchange.answerBusy = true
          ∧ (∃ a rest, s.exchange.answerList = .answer a :: rest) ∧ cause = .answer)
      ∨ (access = .interim ∧ s.exchange.answerBusy = true ∧ (∃ c n rest, s.exchange.answerList = .interim c n :: rest)
          ∧ cause = .answer)
      ∨ ((∃ k, access = .faultRecord k) ∧ s.capture.writing ≠ none ∧ s.capture.record ≠ none ∧ cause = .faultRecord)
      ∨ ((∃ k, access = .meterBlock k) ∧ s.exchange.meterPort.inFlight ≠ none ∧ cause = .meterBlock)
      ∨ ((∃ k, access = .baySummary k) ∧ s.exchange.summaryPort.inFlight ≠ none ∧ cause = .baySummary)) →
    ∃ t, exec (.exchangeAreaError access) s = .next t
      ∧ (s.exchange.part ∈ [.stopped, .running, .stopping] →
          t.exchange.part = .halted ∧ t.exchange.haltCause = cause ∧ t.exchange.sweep.active = false
            ∧ t.exchange.sweepTimerOn = false)
      ∧ (s.exchange.part = .restarting → t.exchange.part = .restarting ∧ t.exchange.errorInRestart = true
          ∧ t.exchange.haltCause = if s.exchange.errorInRestart then s.exchange.haltCause else cause)
      ∧ (s.exchange.part = .halted → t.exchange.part = .halted ∧ t.exchange.haltCause = s.exchange.haltCause)
      ∧ t.exchange.held = s.exchange.held ∧ t.exchange.answerList = s.exchange.answerList
      ∧ (access = .takeRead → t.exchange.take = none ∧ t.hostMem = s.hostMem)
      ∧ (∀ k, s.exchange.take = some k → access = .takenWrite → t.exchange.take = none
          ∧ Memory.read t.hostMem (s.cellAddress k.cell 0 % 18446744073709551616) = some 2
          ∧ s.otherBytes t (s.cellAddress k.cell 0) 1)
      ∧ (∀ base r, s.capture.writing = some base → s.capture.record = some r → ∀ k : Fin 2, access = .faultRecord k →
          s.partsWritten t base 0x20000 r.image (fun i => k.val == 1 && i < 16) ∧ t.capture.record = none
            ∧ t.capture.triggered = s.capture.triggered ∧ t.notices = s.notices)
      ∧ (∀ w, s.exchange.meterPort.inFlight = some w → w.image.length = 1092 → ∀ k : Fin 3, access = .meterBlock k →
          s.partsWritten t w.base 0x20200 w.image (fun i => if i < 4 then 1 ≤ k.val else k.val == 2 && i < 1088)
            ∧ t.exchange.meterPort.inFlight = none)
      ∧ (∀ w, s.exchange.summaryPort.inFlight = some w → w.image.length = 392 → ∀ k : Fin 3, access = .baySummary k →
          s.partsWritten t w.base 0x20040 w.image (fun i => if 388 ≤ i then 1 ≤ k.val else k.val == 2 && i < 384)
            ∧ t.exchange.summaryPort.inFlight = none)

/-! ## Arithmetic of the scheduler, offers of faults -/

/-- The cost of a head, as R62 computes it from its first block, its count, H and the cost parameters, and its limits; the cost of an
order that leaves its FIFO goes with it. -/
def Obligations.CostOfAHead : Prop :=
  (∀ (a : Arbiter) (first count : Nat), first ≤ 4294967295 → a.h ≤ 4294967295 → 1 ≤ count → count ≤ 256 → 1 ≤ a.rate →
    a.rate ≤ 65535 → a.seekMax ≤ 65535 →
    ∃ d sk tr : Nat, d = max first a.h - min first a.h ∧ d ≤ 4294967295
      ∧ (d = 0 → sk = 0) ∧ (d ≠ 0 → sk = min a.seekMax (a.seekMin + d / 2 ^ a.seekShift)) ∧ sk ≤ 65535
      ∧ (tr - 1) * a.rate < count * 1024 ∧ count * 1024 ≤ tr * a.rate ∧ 1 ≤ tr ∧ tr ≤ 262144
      ∧ costOf a first count = min 65535 (sk + tr) ∧ 1 ≤ costOf a first count ∧ costOf a first count ≤ 65535
      ∧ (a.seekMin ≤ a.seekMax → (a.seekMax - a.seekMin) * 2 ^ a.seekShift ≤ d → d ≠ 0 → sk = a.seekMax))
  ∧ (∀ (s : State) (b g : Nat) (orders : List Nat), ((s.setOrders b g orders).fifo b g).cost = none)
  ∧ ∀ q : Fifo, q.giveBack.cost = none

/-- The rebase: a bay whose V is below 2^31 is left alone; else 2^30 is taken from its V, from the F of its 16 groups and from every
tag of its heads, down to 0, and V then lies below 2^31 (R65). No other bay changes. -/
def Obligations.RebaseLowersEveryTagAlike : Prop :=
  (∀ (s : State) (b : Nat), (s.arbiter b).v < 2147483648 → s.rebase b = s)
  ∧ ∀ (s : State) (b : Nat), 2147483648 ≤ (s.arbiter b).v →
    (s.rebase b).arbiter b = { s.arbiter b with v := (s.arbiter b).v - 1073741824 }
      ∧ ((s.arbiter b).v < 3221225472 → 1073741824 ≤ ((s.rebase b).arbiter b).v ∧ ((s.rebase b).arbiter b).v < 2147483648)
      ∧ (∀ g, g < 16 → (s.rebase b).fifo b g = { s.fifo b g with
          lastFinish := (s.fifo b g).lastFinish - 1073741824,
          tags := (s.fifo b g).tags.map (fun x => { start := x.start - 1073741824, finish := x.finish - 1073741824 }) })
      ∧ (∀ c g, c ≠ b → g < 16 → (s.rebase b).fifo c g = s.fifo c g ∧ (s.rebase b).arbiter c = s.arbiter c)
      ∧ Touches [.fifos, .arbiters] s (s.rebase b)

/-- An offer taken while TRIGGERED is set, or while the part is RESTARTING or HALTED, raises the fault sequence by 1 and the suppressed
count by 1, saturating at 255, and changes nothing else (R161, R164). In RESTARTING and HALTED the offers come from the staging errors
that channel items find. The end of a restart clears the suppressed count and keeps the fault sequence, and the next record captured
carries the sequence that counts every fault before it. An offer taken while TRIGGERED is clear, in the other part states, sets it, raises
the sequence, takes cause, location, counts, stamp, suppressed count, mask, auto-rearm flag and sequence into the record in flight, and
clears the suppressed count; nothing else changes (R160, R162). -/
def Obligations.SuppressedOffersAreCounted : Prop :=
  (∀ (s : State) (cause : Cause) (location loans orders : Nat),
    s.capture.triggered = true ∨ s.exchange.part = .restarting ∨ s.exchange.part = .halted →
    s.offer cause location loans orders = { s with capture := { s.capture with
      sequence := s.capture.sequence + 1, suppressed := min 255 (s.capture.suppressed + 1) } })
  ∧ (∀ (s : State) (ch : Fin 8) (copied : List Nat) (it : Item), s.exchange.part ∈ [.restarting, .halted] → s.itemOn ch = some it →
    ∃ t, exec (if it.fetch then .fetchEnd ch .stagingError else .stagingError ch copied) s = .next t
      ∧ t.capture = { s.capture with
          sequence := s.capture.sequence + 1, suppressed := min 255 (s.capture.suppressed + 1) }
      ∧ t.exchange.answerList = s.exchange.answerList)
  ∧ (∀ (c : Instr) (s t : State), s.exchange.part ∈ [.restarting, .halted] → exec c s = .next t →
    t.capture.sequence ≠ s.capture.sequence →
    c = .powerOn ∨ (∃ ch copied, c = .stagingError ch copied) ∨ ∃ ch, c = .fetchEnd ch .stagingError)
  ∧ (∀ s t : State, s.exchange.part = .restarting → exec .restartEffects s = .next t → t.exchange.part ≠ .restarting →
    t.capture.suppressed = 0 ∧ t.capture.sequence = s.capture.sequence)
  ∧ ∀ (s : State) (cause : Cause) (location loans orders : Nat), s.exchange.part ∈ [.stopped, .running, .stopping] →
    s.capture.triggered = false →
    s.offer cause location loans orders = { s with capture := { s.capture with
      triggered := true, sequence := s.capture.sequence + 1, suppressed := 0,
      record := some { cause := cause, location := location, loansFaulted := loans, ordersFailed := orders,
                       stamp := s.clock.tickCount, suppressedBefore := s.capture.suppressed, holdMask := s.capture.holdMask,
                       autoRearm := s.capture.autoRearm, sequence := s.capture.sequence + 1 } } }

end Statements
end

