-- ==== Sys2Proof/Laws/Touches.lean ====
section
/-! SUPPORT. How footprints compose (Safety.lean's Touches). -/
namespace Sys2Proof.Machine

/-- Every listed part is listed there too. -/
def within (ps qs : List Part) : Bool := ps.all (fun p => qs.contains p)

theorem Part.same_refl (p : Part) (s : State) : p.same s s := by cases p <;> simp [Part.same]

theorem Part.same_trans {p : Part} {s t u : State} (h : p.same s t) (k : p.same t u) : p.same s u := by
  cases p <;> simp_all [Part.same]

theorem Touches.refl (ps : List Part) (s : State) : Touches ps s s := ⟨fun p _ => p.same_refl s⟩

theorem Touches.mono {ps qs : List Part} {s t : State} (h : Touches ps s t) (w : within ps qs = true) : Touches qs s t := by
  refine ⟨fun p hp => h.same p (fun hq => hp ?_)⟩
  simpa using List.all_eq_true.1 w p hq

theorem Touches.trans {ps : List Part} {s t u : State} (h : Touches ps s t) (k : Touches ps t u) : Touches ps s u :=
  ⟨fun p hp => Part.same_trans (h.same p hp) (k.same p hp)⟩

/-- A change with a smaller footprint, made after others. -/
theorem Touches.after {ps qs : List Part} {s t u : State} (k : Touches ps t u) (w : within ps qs = true) (h : Touches qs s t) :
    Touches qs s u := h.trans (k.mono w)

/-- A change repeated over a list. -/
theorem Touches.foldl {α : Type} {ps : List Part} {f : State → α → State} {l : List α} {s t : State}
    (h : ∀ u x, Touches ps u (f u x)) (k : Touches ps s t) : Touches ps s (l.foldl f t) := by
  induction l generalizing t with
  | nil => exact k
  | cons x l ih => exact ih (k.trans (h t x))

end Sys2Proof.Machine
end

