-- ==== Sys2Proof/Laws/Footprints.lean ====
section
/-! SUPPORT. The footprint of every shared operation: the parts of the state it may touch. -/
namespace Sys2Proof.Machine

/-! ## Record updates -/

theorem touches_link {ps : List Part} {s t : State} {x} (k : Touches ps t { t with link := x })
    (h : Touches ps s t) : Touches ps s { t with link := x } := h.trans k

theorem touches_exchange {ps : List Part} {s t : State} {x} (k : Touches ps t { t with exchange := x })
    (h : Touches ps s t) : Touches ps s { t with exchange := x } := h.trans k

theorem touches_staging {ps : List Part} {s t : State} {x} (k : Touches ps t { t with staging := x })
    (h : Touches ps s t) : Touches ps s { t with staging := x } := h.trans k

theorem touches_clock {ps : List Part} {s t : State} {x} (k : Touches ps t { t with clock := x })
    (h : Touches ps s t) : Touches ps s { t with clock := x } := h.trans k

theorem touches_meters {ps : List Part} {s t : State} {x} (k : Touches ps t { t with meters := x })
    (h : Touches ps s t) : Touches ps s { t with meters := x } := h.trans k

theorem touches_capture {ps : List Part} {s t : State} {x} (k : Touches ps t { t with capture := x })
    (h : Touches ps s t) : Touches ps s { t with capture := x } := h.trans k

theorem touches_notices {ps : List Part} {s t : State} {x} (k : Touches ps t { t with notices := x })
    (h : Touches ps s t) : Touches ps s { t with notices := x } := h.trans k

theorem touches_engine {ps : List Part} {s t : State} {x} (k : Touches ps t { t with engine := x })
    (h : Touches ps s t) : Touches ps s { t with engine := x } := h.trans k

/-- A change made bay by bay. -/
theorem overBays_touches {ps : List Part} {s t : State} {f : State → Nat → State} (h : ∀ u b, Touches ps u (f u b))
    (k : Touches ps s t) : Touches ps s (overBays t f) := Touches.foldl h k

/-! ## Operations -/

theorem State.setLoan_touches (s : State) (n : Nat) (l : Loan) :
    Touches [.loans] s (s.setLoan n l) := by
  unfold State.setLoan
  (repeat' split) <;> (refine ⟨fun p hp => ?_⟩; cases p <;> first | exact absurd (by decide) hp | (and_intros <;> rfl))

theorem State.setWaiting_touches (s : State) (b : Nat) (l : List Nat) :
    Touches [.loans] s (s.setWaiting b l) := by
  unfold State.setWaiting
  (repeat' split) <;> (refine ⟨fun p hp => ?_⟩; cases p <;> first | exact absurd (by decide) hp | (and_intros <;> rfl))

theorem State.setGroup_touches (s : State) (g : Nat) (v : Group) :
    Touches [.groups] s (s.setGroup g v) := by
  unfold State.setGroup
  (repeat' split) <;> (refine ⟨fun p hp => ?_⟩; cases p <;> first | exact absurd (by decide) hp | (and_intros <;> rfl))

theorem State.setFifo_touches (s : State) (b g : Nat) (q : Fifo) :
    Touches [.fifos] s (s.setFifo b g q) := by
  unfold State.setFifo
  (repeat' split) <;> (refine ⟨fun p hp => ?_⟩; cases p <;> first | exact absurd (by decide) hp | (and_intros <;> rfl))

theorem State.setArbiter_touches (s : State) (b : Nat) (a : Arbiter) :
    Touches [.arbiters] s (s.setArbiter b a) := by
  unfold State.setArbiter
  (repeat' split) <;> (refine ⟨fun p hp => ?_⟩; cases p <;> first | exact absurd (by decide) hp | (and_intros <;> rfl))

theorem State.setSlot_touches (s : State) (k : Nat) (v : Slot) :
    Touches [.staging] s (s.setSlot k v) := by
  unfold State.setSlot
  (repeat' split) <;> (refine ⟨fun p hp => ?_⟩; cases p <;> first | exact absurd (by decide) hp | (and_intros <;> rfl))

theorem State.setBay_touches (s : State) (b : Nat) (v : Bay) :
    Touches [.records] s (s.setBay b v) := by
  unfold State.setBay
  (repeat' split) <;> (refine ⟨fun p hp => ?_⟩; cases p <;> first | exact absurd (by decide) hp | (and_intros <;> rfl))

theorem State.setLines_touches (s : State) (b : Nat) (v : Lines) :
    Touches [.lines] s (s.setLines b v) := by
  unfold State.setLines
  (repeat' split) <;> (refine ⟨fun p hp => ?_⟩; cases p <;> first | exact absurd (by decide) hp | (and_intros <;> rfl))

theorem State.setMeter_touches (s : State) (g : Nat) (v : GroupMeter) :
    Touches [.meters] s (s.setMeter g v) := by
  unfold State.setMeter
  (repeat' split) <;> (refine ⟨fun p hp => ?_⟩; cases p <;> first | exact absurd (by decide) hp | (and_intros <;> rfl))

theorem State.poke_touches (s : State) (a : Nat) (bs : List Byte) :
    Touches [.hostMem] s (s.poke a bs) := by
  unfold State.poke
  (repeat' split) <;> (refine ⟨fun p hp => ?_⟩; cases p <;> first | exact absurd (by decide) hp | (and_intros <;> rfl))

theorem State.smudge_touches (s : State) (a n : Nat) :
    Touches [.hostMem] s (s.smudge a n) := by
  unfold State.smudge
  (repeat' split) <;> (refine ⟨fun p hp => ?_⟩; cases p <;> first | exact absurd (by decide) hp | (and_intros <;> rfl))

theorem State.setTransfer_touches (s : State) (c : Nat) (t : Transfer) :
    Touches [.held] s (s.setTransfer c t) := by
  unfold State.setTransfer
  (repeat' split) <;> (refine ⟨fun p hp => ?_⟩; cases p <;> first | exact absurd (by decide) hp | (and_intros <;> rfl))

theorem State.unhold_touches (s : State) (c : Nat) :
    Touches [.held] s (s.unhold c) := by
  unfold State.unhold
  (repeat' split) <;> (refine ⟨fun p hp => ?_⟩; cases p <;> first | exact absurd (by decide) hp | (and_intros <;> rfl))

theorem State.putAnswer_touches (s : State) (w : AnswerWrite) :
    Touches [.answers] s (s.putAnswer w) := by
  unfold State.putAnswer
  (repeat' split) <;> (refine ⟨fun p hp => ?_⟩; cases p <;> first | exact absurd (by decide) hp | (and_intros <;> rfl))

theorem State.answerWith_touches (s : State) (c : Nat) (r : Result) (detail done : Nat) (src : Source) :
    Touches [.answers] s (s.answerWith c r detail done src) := by
  unfold State.answerWith
  try dsimp only
  repeat' first
    | with_reducible exact Touches.refl _ _
    | (apply Touches.after; (with_reducible apply State.putAnswer_touches); rfl)
    | split

theorem State.reply_touches (s : State) (c : Nat) (r : Result) (detail : Nat) :
    Touches [.answers] s (s.reply c r detail) := by
  unfold State.reply
  try dsimp only
  repeat' first
    | with_reducible exact Touches.refl _ _
    | (apply Touches.after; (with_reducible apply State.answerWith_touches); rfl)
    | split

theorem State.replyAll_touches (s : State) (cells : List Nat) (r : Result) (detail : Nat) :
    Touches [.answers] s (s.replyAll cells r detail) := by
  unfold State.replyAll
  try dsimp only
  repeat' first
    | with_reducible exact Touches.refl _ _
    | (apply Touches.after; (with_reducible apply State.reply_touches); rfl)
    | (with_reducible apply Touches.foldl); intro _ _
    | split

theorem State.replyOpt_touches (s : State) (c : Option Nat) (r : Result) (detail : Nat) :
    Touches [.answers] s (s.replyOpt c r detail) := by
  unfold State.replyOpt
  try dsimp only
  repeat' first
    | with_reducible exact Touches.refl _ _
    | (apply Touches.after; (with_reducible apply State.reply_touches); rfl)
    | split

theorem State.tryStop_touches (s : State) :
    Touches [.part] s (s.tryStop) := by
  unfold State.tryStop
  (repeat' split) <;> (refine ⟨fun p hp => ?_⟩; cases p <;> first | exact absurd (by decide) hp | (and_intros <;> rfl))

theorem State.validated_touches (s : State) (c : Nat) :
    Touches [.awaiting] s (s.validated c) := by
  unfold State.validated
  (repeat' split) <;> (refine ⟨fun p hp => ?_⟩; cases p <;> first | exact absurd (by decide) hp | (and_intros <;> rfl))

theorem State.setFlags_touches (s : State) (flags : NoticeBits) :
    Touches [.notices] s (s.setFlags flags) := by
  unfold State.setFlags
  (repeat' split) <;> (refine ⟨fun p hp => ?_⟩; cases p <;> first | exact absurd (by decide) hp | (and_intros <;> rfl))

theorem State.noticeFault_touches (s : State) :
    Touches [.notices] s (s.noticeFault) := by
  unfold State.noticeFault
  try dsimp only
  repeat' first
    | with_reducible exact Touches.refl _ _
    | (apply Touches.after; (with_reducible apply State.setFlags_touches); rfl)
    | split

theorem State.noticeBay_touches (s : State) :
    Touches [.notices] s (s.noticeBay) := by
  unfold State.noticeBay
  try dsimp only
  repeat' first
    | with_reducible exact Touches.refl _ _
    | (apply Touches.after; (with_reducible apply State.setFlags_touches); rfl)
    | split

theorem State.noticeMeter_touches (s : State) :
    Touches [.notices] s (s.noticeMeter) := by
  unfold State.noticeMeter
  try dsimp only
  repeat' first
    | with_reducible exact Touches.refl _ _
    | (apply Touches.after; (with_reducible apply State.setFlags_touches); rfl)
    | split

theorem State.noticeOverflow_touches (s : State) :
    Touches [.notices] s (s.noticeOverflow) := by
  unfold State.noticeOverflow
  try dsimp only
  repeat' first
    | with_reducible exact Touches.refl _ _
    | (apply Touches.after; (with_reducible apply State.setFlags_touches); rfl)
    | split

theorem State.setLapseQueue_touches (s : State) (q : List Nat) :
    Touches [.lapseQueue, .notices] s (s.setLapseQueue q) := by
  unfold State.setLapseQueue
  (repeat' split) <;> (refine ⟨fun p hp => ?_⟩; cases p <;> first | exact absurd (by decide) hp | (and_intros <;> rfl))

theorem State.pushLapse_touches (s : State) (n : Nat) :
    Touches [.lapseQueue, .notices] s (s.pushLapse n) := by
  unfold State.pushLapse
  try dsimp only
  repeat' first
    | with_reducible exact Touches.refl _ _
    | (apply Touches.after; (with_reducible apply State.setLapseQueue_touches); rfl)
    | split

theorem State.dropLapse_touches (s : State) (n : Nat) :
    Touches [.lapseQueue, .notices] s (s.dropLapse n) := by
  unfold State.dropLapse
  try dsimp only
  repeat' first
    | with_reducible exact Touches.refl _ _
    | (apply Touches.after; (with_reducible apply State.setLapseQueue_touches); rfl)
    | split

theorem State.shrinkAnswers_touches (s : State) (q : List Nat) :
    Touches [.answerQueue, .notices] s (s.shrinkAnswers q) := by
  unfold State.shrinkAnswers
  (repeat' split) <;> (refine ⟨fun p hp => ?_⟩; cases p <;> first | exact absurd (by decide) hp | (and_intros <;> rfl))

theorem State.growAnswers_touches (s : State) (c : Nat) :
    Touches [.answerQueue, .notices] s (s.growAnswers c) := by
  unfold State.growAnswers
  (repeat' split) <;> (refine ⟨fun p hp => ?_⟩; cases p <;> first | exact absurd (by decide) hp | (and_intros <;> rfl))

theorem State.pokeParts_touches (s : State) (a : Nat) (image : List Byte) (parts : List (Nat × Nat)) :
    Touches [.hostMem] s (s.pokeParts a image parts) := by
  unfold State.pokeParts
  try dsimp only
  repeat' first
    | with_reducible exact Touches.refl _ _
    | (apply Touches.after; (with_reducible apply State.poke_touches); rfl)
    | (with_reducible apply Touches.foldl); intro _ _
    | split

theorem State.failParts_touches (s : State) (a : Nat) (image : List Byte) (parts : List (Nat × Nat)) (k : Nat) :
    Touches [.hostMem] s (s.failParts a image parts k) :=
  State.pokeParts_touches ..

theorem State.requestSummary_touches (s : State) :
    Touches [.ports] s (s.requestSummary) := by
  unfold State.requestSummary
  (repeat' split) <;> (refine ⟨fun p hp => ?_⟩; cases p <;> first | exact absurd (by decide) hp | (and_intros <;> rfl))

theorem State.requestMeter_touches (s : State) :
    Touches [.ports] s (s.requestMeter) := by
  unfold State.requestMeter
  (repeat' split) <;> (refine ⟨fun p hp => ?_⟩; cases p <;> first | exact absurd (by decide) hp | (and_intros <;> rfl))

theorem State.beginFaultRecord_touches (s : State) :
    Touches [.ports] s (s.beginFaultRecord) := by
  unfold State.beginFaultRecord
  (repeat' split) <;> (refine ⟨fun p hp => ?_⟩; cases p <;> first | exact absurd (by decide) hp | (and_intros <;> rfl))

theorem State.beginMeter_touches (s : State) :
    Touches [.ports] s (s.beginMeter) := by
  unfold State.beginMeter
  (repeat' split) <;> (refine ⟨fun p hp => ?_⟩; cases p <;> first | exact absurd (by decide) hp | (and_intros <;> rfl))

theorem State.beginSummary_touches (s : State) :
    Touches [.ports] s (s.beginSummary) := by
  unfold State.beginSummary
  (repeat' split) <;> (refine ⟨fun p hp => ?_⟩; cases p <;> first | exact absurd (by decide) hp | (and_intros <;> rfl))

theorem State.beginRecords_touches (s : State) :
    Touches [.ports] s (s.beginRecords) := by
  unfold State.beginRecords
  try dsimp only
  repeat' first
    | with_reducible exact Touches.refl _ _
    | (apply Touches.after; (with_reducible apply State.beginFaultRecord_touches); rfl)
    | (apply Touches.after; (with_reducible apply State.beginMeter_touches); rfl)
    | (apply Touches.after; (with_reducible apply State.beginSummary_touches); rfl)
    | split

theorem State.meterStaged_touches (s : State) (g n : Nat) :
    Touches [.meters] s (s.meterStaged g n) := by
  unfold State.meterStaged
  try dsimp only
  repeat' first
    | with_reducible exact Touches.refl _ _
    | (apply Touches.after; (with_reducible apply State.setMeter_touches); rfl)
    | split

theorem State.meterDisk_touches (s : State) (g : Nat) (isRead : Bool) (n : Nat) :
    Touches [.meters] s (s.meterDisk g isRead n) := by
  unfold State.meterDisk
  try dsimp only
  repeat' first
    | with_reducible exact Touches.refl _ _
    | (apply Touches.after; (with_reducible apply State.setMeter_touches); rfl)
    | split

theorem State.meterAnswered_touches (s : State) (g : Option Nat) :
    Touches [.meters] s (s.meterAnswered g) := by
  unfold State.meterAnswered
  try dsimp only
  repeat' first
    | with_reducible exact Touches.refl _ _
    | (apply Touches.after; (with_reducible apply State.setMeter_touches); rfl)
    | split
    | ((with_reducible apply touches_meters); (refine ⟨fun p hp => ?_⟩; cases p <;> first | exact absurd (by decide) hp | (and_intros <;> rfl)))
    | (refine ⟨fun p hp => ?_⟩; cases p <;> first | exact absurd (by decide) hp | (and_intros <;> rfl))

theorem State.applyCap_touches (s : State) (g : Nat) :
    Touches [.groups, .meters] s (s.applyCap g) := by
  unfold State.applyCap
  try dsimp only
  repeat' first
    | with_reducible exact Touches.refl _ _
    | (apply Touches.after; (with_reducible apply State.setGroup_touches); rfl)
    | (apply Touches.after; (with_reducible apply State.setMeter_touches); rfl)
    | split

theorem State.putBay_touches (s : State) (b : Nat) (v : Bay) :
    Touches [.ports, .records] s (s.putBay b v) := by
  unfold State.putBay
  try dsimp only
  repeat' first
    | with_reducible exact Touches.refl _ _
    | (apply Touches.after; (with_reducible apply State.setBay_touches); rfl)
    | (apply Touches.after; (with_reducible apply State.requestSummary_touches); rfl)
    | split

theorem State.send_touches (s : State) (b : Nat) (c : Command) :
    Touches [.records] s (s.send b c) := by
  unfold State.send
  try dsimp only
  repeat' first
    | with_reducible exact Touches.refl _ _
    | (apply Touches.after; (with_reducible apply State.setBay_touches); rfl)
    | split

theorem State.setTag_touches (s : State) (b t : Nat) (holder : Option Nat) :
    Touches [.arbiters] s (s.setTag b t holder) := by
  unfold State.setTag
  try dsimp only
  repeat' first
    | with_reducible exact Touches.refl _ _
    | (apply Touches.after; (with_reducible apply State.setArbiter_touches); rfl)
    | split

theorem State.releaseTag_touches (s : State) (b c : Nat) :
    Touches [.arbiters] s (s.releaseTag b c) := by
  unfold State.releaseTag
  try dsimp only
  repeat' first
    | with_reducible exact Touches.refl _ _
    | (apply Touches.after; (with_reducible apply State.setTag_touches); rfl)
    | split

theorem State.startSpinUp_touches (s : State) (b : Nat) :
    Touches [.ports, .records] s (s.startSpinUp b) := by
  unfold State.startSpinUp
  try dsimp only
  repeat' first
    | with_reducible exact Touches.refl _ _
    | (apply Touches.after; (with_reducible apply State.putBay_touches); rfl)
    | (apply Touches.after; (with_reducible apply State.send_touches); rfl)
    | split

theorem State.completionTest_touches (s : State) (b : Nat) :
    Touches [.records] s (s.completionTest b) := by
  unfold State.completionTest
  try dsimp only
  repeat' first
    | with_reducible exact Touches.refl _ _
    | (apply Touches.after; (with_reducible apply State.send_touches); rfl)
    | split

theorem State.completionTests_touches (s : State) (bs : List Nat) :
    Touches [.records] s (s.completionTests bs) := by
  unfold State.completionTests
  try dsimp only
  repeat' first
    | with_reducible exact Touches.refl _ _
    | (apply Touches.after; (with_reducible apply State.completionTest_touches); rfl)
    | (with_reducible apply Touches.foldl); intro _ _
    | split

theorem State.capturePresence_touches (s : State) (b : Nat) (edge : EdgeSelect) :
    Touches [.ports, .records, .notices] s (s.capturePresence b edge) := by
  unfold State.capturePresence
  try dsimp only
  repeat' first
    | with_reducible exact Touches.refl _ _
    | (apply Touches.after; (with_reducible apply State.putBay_touches); rfl)
    | (apply Touches.after; (with_reducible apply State.noticeBay_touches); rfl)
    | split

theorem State.setResidency_touches (s : State) (l : List Nat) :
    Touches [.staging] s (s.setResidency l) := by
  unfold State.setResidency
  (repeat' split) <;> (refine ⟨fun p hp => ?_⟩; cases p <;> first | exact absurd (by decide) hp | (and_intros <;> rfl))

theorem State.touch_touches (s : State) (k : Nat) :
    Touches [.staging] s (s.touch k) := by
  unfold State.touch
  try dsimp only
  repeat' first
    | with_reducible exact Touches.refl _ _
    | (apply Touches.after; (with_reducible apply State.setResidency_touches); rfl)
    | split

theorem State.leaveResidency_touches (s : State) (k : Nat) :
    Touches [.staging] s (s.leaveResidency k) := by
  unfold State.leaveResidency
  try dsimp only
  repeat' first
    | with_reducible exact Touches.refl _ _
    | (apply Touches.after; (with_reducible apply State.setResidency_touches); rfl)
    | split

theorem State.startItem_touches (s : State) (it : Item) :
    Touches [.engine] s (s.startItem it) := by
  unfold State.startItem
  (repeat' split) <;> (refine ⟨fun p hp => ?_⟩; cases p <;> first | exact absurd (by decide) hp | (and_intros <;> rfl))

theorem State.joinSlot_touches (s : State) (k c : Nat) (t : Transfer) :
    Touches [.staging, .engine, .meters] s (s.joinSlot k c t) := by
  unfold State.joinSlot
  try dsimp only
  repeat' first
    | with_reducible exact Touches.refl _ _
    | (apply Touches.after; (with_reducible apply State.setSlot_touches); rfl)
    | (apply Touches.after; (with_reducible apply State.touch_touches); rfl)
    | (apply Touches.after; (with_reducible apply State.startItem_touches); rfl)
    | (apply Touches.after; (with_reducible apply State.meterStaged_touches); rfl)
    | split

theorem State.freeSlot_touches (s : State) (k : Nat) :
    Touches [.staging] s (s.freeSlot k) := by
  unfold State.freeSlot
  try dsimp only
  repeat' first
    | with_reducible exact Touches.refl _ _
    | (apply Touches.after; (with_reducible apply State.setSlot_touches); rfl)
    | (apply Touches.after; (with_reducible apply State.leaveResidency_touches); rfl)
    | split

theorem State.spoilSlot_touches (s : State) (k : Nat) :
    Touches [.staging] s (s.spoilSlot k) := by
  unfold State.spoilSlot
  try dsimp only
  repeat' first
    | with_reducible exact Touches.refl _ _
    | (apply Touches.after; (with_reducible apply State.setSlot_touches); rfl)
    | (apply Touches.after; (with_reducible apply State.leaveResidency_touches); rfl)
    | split

theorem State.dropResident_touches (s : State) (k : Nat) :
    Touches [.staging] s (s.dropResident k) := by
  unfold State.dropResident
  try dsimp only
  repeat' first
    | with_reducible exact Touches.refl _ _
    | (apply Touches.after; (with_reducible apply State.freeSlot_touches); rfl)
    | (apply Touches.after; (with_reducible apply State.setSlot_touches); rfl)
    | (apply Touches.after; (with_reducible apply State.leaveResidency_touches); rfl)
    | split

theorem State.offerSlot_touches (s : State) (k : Nat) :
    Touches [.staging] s (s.offerSlot k) := by
  unfold State.offerSlot
  try dsimp only
  repeat' first
    | with_reducible exact Touches.refl _ _
    | (apply Touches.after; (with_reducible apply State.leaveResidency_touches); rfl)
    | (apply Touches.after; (with_reducible apply State.setSlot_touches); rfl)
    | split
    | ((with_reducible apply touches_staging); (refine ⟨fun p hp => ?_⟩; cases p <;> first | exact absurd (by decide) hp | (and_intros <;> rfl)))
    | (refine ⟨fun p hp => ?_⟩; cases p <;> first | exact absurd (by decide) hp | (and_intros <;> rfl))

theorem State.offerSlots_touches (s : State) (ks : List Nat) :
    Touches [.staging] s (s.offerSlots ks) := by
  unfold State.offerSlots
  try dsimp only
  repeat' first
    | with_reducible exact Touches.refl _ _
    | (apply Touches.after; (with_reducible apply State.offerSlot_touches); rfl)
    | (with_reducible apply Touches.foldl); intro _ _
    | split

theorem State.discardResident_touches (s : State) (ks : List Nat) :
    Touches [.staging] s (s.discardResident ks) := by
  unfold State.discardResident
  try dsimp only
  repeat' first
    | with_reducible exact Touches.refl _ _
    | (apply Touches.after; (with_reducible apply State.dropResident_touches); rfl)
    | (apply Touches.after; (with_reducible apply State.offerSlots_touches); rfl)
    | (with_reducible apply Touches.foldl); intro _ _
    | split

theorem State.clearStaged_touches (s : State) (b : Nat) :
    Touches [.staging] s (s.clearStaged b) := by
  unfold State.clearStaged
  try dsimp only
  repeat' first
    | with_reducible exact Touches.refl _ _
    | (apply Touches.after; (with_reducible apply State.discardResident_touches); rfl)
    | split

theorem State.sendRead_touches (s : State) (k : Nat) :
    Touches [.records] s (s.sendRead k) := by
  unfold State.sendRead
  try dsimp only
  repeat' first
    | with_reducible exact Touches.refl _ _
    | (apply Touches.after; (with_reducible apply State.send_touches); rfl)
    | split

theorem State.reissue_touches (s : State) (k : Nat) :
    Touches [.staging, .records] s (s.reissue k) := by
  unfold State.reissue
  try dsimp only
  repeat' first
    | with_reducible exact Touches.refl _ _
    | (apply Touches.after; (with_reducible apply State.setSlot_touches); rfl)
    | (apply Touches.after; (with_reducible apply State.sendRead_touches); rfl)
    | split

theorem State.unblockSlot_touches (s : State) (c k : Nat) :
    Touches [.staging, .records] s (s.unblockSlot c k) := by
  unfold State.unblockSlot
  try dsimp only
  repeat' first
    | with_reducible exact Touches.refl _ _
    | (apply Touches.after; (with_reducible apply State.setSlot_touches); rfl)
    | (apply Touches.after; (with_reducible apply State.reissue_touches); rfl)
    | split

theorem State.unblock_touches (s : State) (c : Nat) :
    Touches [.staging, .records] s (s.unblock c) := by
  unfold State.unblock
  try dsimp only
  repeat' first
    | with_reducible exact Touches.refl _ _
    | (apply Touches.after; (with_reducible apply State.unblockSlot_touches); rfl)
    | (with_reducible apply Touches.foldl); intro _ _
    | split

theorem State.endDrain_touches (s : State) (k c : Nat) :
    Touches [.staging, .records] s (s.endDrain k c) := by
  unfold State.endDrain
  try dsimp only
  repeat' first
    | with_reducible exact Touches.refl _ _
    | (apply Touches.after; (with_reducible apply State.freeSlot_touches); rfl)
    | (apply Touches.after; (with_reducible apply State.unblock_touches); rfl)
    | (apply Touches.after; (with_reducible apply State.offerSlot_touches); rfl)
    | split

theorem State.invalidate_touches (s : State) (k w : Nat) :
    Touches [.staging] s (s.invalidate k w) := by
  unfold State.invalidate
  try dsimp only
  repeat' first
    | with_reducible exact Touches.refl _ _
    | (apply Touches.after; (with_reducible apply State.setSlot_touches); rfl)
    | split

theorem State.snoop_touches (s : State) (k w b first count : Nat) :
    Touches [.staging] s (s.snoop k w b first count) := by
  unfold State.snoop
  try dsimp only
  repeat' first
    | with_reducible exact Touches.refl _ _
    | (apply Touches.after; (with_reducible apply State.invalidate_touches); rfl)
    | (apply Touches.after; (with_reducible apply State.discardResident_touches); rfl)
    | (with_reducible apply Touches.foldl); intro _ _
    | split

theorem State.giveSlot_touches (s : State) (k c : Nat) (t : Transfer) :
    Touches [.staging] s (s.giveSlot k c t) := by
  unfold State.giveSlot
  try dsimp only
  repeat' first
    | with_reducible exact Touches.refl _ _
    | (apply Touches.after; (with_reducible apply State.leaveResidency_touches); rfl)
    | (apply Touches.after; (with_reducible apply State.setSlot_touches); rfl)
    | split

theorem State.scatter_touches (s : State) (segs : List (Nat × Nat)) (data : Option Nat) :
    Touches [.hostMem] s (s.scatter segs data) := by
  induction segs generalizing s data with
  | nil => exact Touches.refl _ _
  | cons sg segs ih =>
    refine Touches.trans ?_ (ih _ _)
    cases data
    · exact State.smudge_touches ..
    · exact State.poke_touches ..

theorem State.deliverBytes_touches (s : State) (slot c : Nat) (stop : Option Stop) :
    Touches [.hostMem] s (s.deliverBytes slot c stop) := by
  unfold State.deliverBytes
  try dsimp only
  repeat' first
    | with_reducible exact Touches.refl _ _
    | (apply Touches.after; (with_reducible apply State.scatter_touches); rfl)
    | split

theorem State.tagHead_touches (s : State) (b g : Nat) :
    Touches [.fifos] s (s.tagHead b g) := by
  unfold State.tagHead
  try dsimp only
  repeat' first
    | with_reducible exact Touches.refl _ _
    | (apply Touches.after; (with_reducible apply State.setFifo_touches); rfl)
    | split

theorem State.requestSpinUp_touches (s : State) (b : Nat) :
    Touches [.ports, .records] s (s.requestSpinUp b) := by
  unfold State.requestSpinUp
  try dsimp only
  repeat' first
    | with_reducible exact Touches.refl _ _
    | (apply Touches.after; (with_reducible apply State.startSpinUp_touches); rfl)
    | (apply Touches.after; (with_reducible apply State.setBay_touches); rfl)
    | split

theorem State.requestSpinUps_touches (s : State) :
    Touches [.ports, .records] s (s.requestSpinUps) := by
  unfold State.requestSpinUps
  try dsimp only
  repeat' first
    | with_reducible exact Touches.refl _ _
    | (apply Touches.after; (with_reducible apply State.requestSpinUp_touches); rfl)
    | (with_reducible apply Touches.foldl); intro _ _
    | split

theorem State.setOrders_touches (s : State) (b g : Nat) (orders : List Nat) :
    Touches [.fifos] s (s.setOrders b g orders) := by
  unfold State.setOrders
  try dsimp only
  repeat' first
    | with_reducible exact Touches.refl _ _
    | (apply Touches.after; (with_reducible apply State.setFifo_touches); rfl)
    | split

theorem State.settleHead_touches (s : State) (fuel b g : Nat) :
    Touches [.fifos, .staging, .engine, .meters] s (s.settleHead fuel b g) := by
  induction fuel generalizing s with
  | zero => exact Touches.refl _ _
  | succ k ih =>
    unfold State.settleHead
    repeat' first
      | exact Touches.refl _ _
      | refine Touches.trans ?_ (ih _)
      | refine (State.joinSlot_touches ..).after rfl ?_
      | refine (State.setOrders_touches ..).after rfl ?_
      | refine (State.tagHead_touches ..).after rfl ?_
      | refine (State.setFifo_touches ..).after rfl ?_
      | split

theorem State.becomeHead_touches (s : State) (b g : Nat) :
    Touches [.ports, .fifos, .staging, .engine, .records, .meters] s (s.becomeHead b g) := by
  unfold State.becomeHead
  try dsimp only
  repeat' first
    | with_reducible exact Touches.refl _ _
    | (apply Touches.after; (with_reducible apply State.settleHead_touches); rfl)
    | (apply Touches.after; (with_reducible apply State.requestSpinUp_touches); rfl)
    | split

theorem State.enqueue_touches (s : State) (b g c : Nat) :
    Touches [.ports, .fifos, .staging, .engine, .records, .meters] s (s.enqueue b g c) := by
  unfold State.enqueue
  try dsimp only
  repeat' first
    | with_reducible exact Touches.refl _ _
    | (apply Touches.after; (with_reducible apply State.setOrders_touches); rfl)
    | (apply Touches.after; (with_reducible apply State.becomeHead_touches); rfl)
    | (apply Touches.after; (with_reducible apply State.setFifo_touches); rfl)
    | split

theorem State.removeQueued_touches (s : State) (b g : Nat) (p : Nat → Bool) :
    Touches [.ports, .fifos, .staging, .engine, .records, .meters] s (s.removeQueued b g p) := by
  unfold State.removeQueued
  try dsimp only
  repeat' first
    | with_reducible exact Touches.refl _ _
    | (apply Touches.after; (with_reducible apply State.setFifo_touches); rfl)
    | (apply Touches.after; (with_reducible apply State.becomeHead_touches); rfl)
    | split

theorem State.rebase_touches (s : State) (b : Nat) :
    Touches [.fifos, .arbiters] s (s.rebase b) := by
  unfold State.rebase
  try dsimp only
  repeat' first
    | with_reducible exact Touches.refl _ _
    | (apply Touches.after; (with_reducible apply State.setFifo_touches); rfl)
    | (apply Touches.after; (with_reducible apply State.setArbiter_touches); rfl)
    | (with_reducible apply Touches.foldl); intro _ _
    | split

theorem State.freeLoan_touches (s : State) (n : Nat) :
    Touches [.lapseQueue, .loans, .notices] s (s.freeLoan n) := by
  unfold State.freeLoan
  try dsimp only
  repeat' first
    | with_reducible exact Touches.refl _ _
    | (apply Touches.after; (with_reducible apply State.setLoan_touches); rfl)
    | (apply Touches.after; (with_reducible apply State.setWaiting_touches); rfl)
    | (apply Touches.after; (with_reducible apply State.dropLapse_touches); rfl)
    | split

theorem State.grant_touches (s : State) (n : Nat) :
    Touches [.answers, .loans] s (s.grant n) := by
  unfold State.grant
  try dsimp only
  repeat' first
    | with_reducible exact Touches.refl _ _
    | (apply Touches.after; (with_reducible apply State.setLoan_touches); rfl)
    | (apply Touches.after; (with_reducible apply State.replyOpt_touches); rfl)
    | split

theorem State.examineFrom_touches (s : State) (b : Nat) (ahead todo : List Nat) :
    Touches [.answers, .loans] s (s.examineFrom b ahead todo) := by
  induction todo generalizing s ahead with
  | nil => exact (State.setWaiting_touches ..).mono rfl
  | cons n rest ih =>
    unfold State.examineFrom
    split
    · exact ih ..
    · exact ((State.grant_touches ..).mono rfl).trans (ih ..)

theorem State.examine_touches (s : State) (b : Nat) :
    Touches [.answers, .loans] s (s.examine b) := by
  unfold State.examine
  try dsimp only
  repeat' first
    | with_reducible exact Touches.refl _ _
    | (apply Touches.after; (with_reducible apply State.examineFrom_touches); rfl)
    | split

theorem State.examineAll_touches (s : State) (bs : List Nat) :
    Touches [.answers, .loans] s (s.examineAll bs) := by
  unfold State.examineAll
  try dsimp only
  repeat' first
    | with_reducible exact Touches.refl _ _
    | (apply Touches.after; (with_reducible apply State.examine_touches); rfl)
    | (with_reducible apply Touches.foldl); intro _ _
    | split

theorem State.mapLoans_touches (s : State) (f : Loan → Loan) :
    Touches [.loans] s (s.mapLoans f) := by
  unfold State.mapLoans
  (repeat' split) <;> (refine ⟨fun p hp => ?_⟩; cases p <;> first | exact absurd (by decide) hp | (and_intros <;> rfl))

theorem State.expire_touches (s : State) (n : Nat) :
    Touches [.answers, .lapseQueue, .loans, .notices] s (s.expire n) := by
  unfold State.expire
  try dsimp only
  repeat' first
    | with_reducible exact Touches.refl _ _
    | (apply Touches.after; (with_reducible apply State.freeLoan_touches); rfl)
    | (apply Touches.after; (with_reducible apply State.replyOpt_touches); rfl)
    | split

theorem State.lapseLoan_touches (s : State) (n : Nat) :
    Touches [.answers, .lapseQueue, .ports, .loans, .fifos, .staging, .engine, .records, .meters, .notices]
      s (s.lapseLoan n) := by
  unfold State.lapseLoan
  try dsimp only
  repeat' first
    | with_reducible exact Touches.refl _ _
    | (apply Touches.after; (with_reducible apply State.replyAll_touches); rfl)
    | (apply Touches.after; (with_reducible apply State.removeQueued_touches); rfl)
    | (apply Touches.after; (with_reducible apply State.setLoan_touches); rfl)
    | (apply Touches.after; (with_reducible apply State.pushLapse_touches); rfl)
    | split

theorem State.loanTick_touches (s : State) :
    Touches [.answers, .lapseQueue, .ports, .loans, .fifos, .staging, .engine, .records, .meters, .notices] s (s.loanTick) := by
  unfold State.loanTick
  try dsimp only
  repeat' first
    | with_reducible exact Touches.refl _ _
    | (apply Touches.after; (with_reducible apply State.expire_touches); rfl)
    | (apply Touches.after; (with_reducible apply State.mapLoans_touches); rfl)
    | (apply Touches.after; (with_reducible apply State.lapseLoan_touches); rfl)
    | (apply Touches.after; (with_reducible apply State.examineAll_touches); rfl)
    | (apply Touches.after; (with_reducible apply State.completionTests_touches); rfl)
    | (with_reducible apply Touches.foldl); intro _ _
    | split

theorem State.finishReturn_touches (s : State) (n : Nat) :
    Touches [.answers, .lapseQueue, .loans, .notices] s (s.finishReturn n) := by
  unfold State.finishReturn
  try dsimp only
  repeat' first
    | with_reducible exact Touches.refl _ _
    | (apply Touches.after; (with_reducible apply State.freeLoan_touches); rfl)
    | (apply Touches.after; (with_reducible apply State.replyOpt_touches); rfl)
    | split

theorem State.inFlightOver_touches (s : State) (n : Nat) :
    Touches [.answers, .lapseQueue, .loans, .records, .notices] s (s.inFlightOver n) := by
  unfold State.inFlightOver
  try dsimp only
  repeat' first
    | with_reducible exact Touches.refl _ _
    | (apply Touches.after; (with_reducible apply State.finishReturn_touches); rfl)
    | (apply Touches.after; (with_reducible apply State.examine_touches); rfl)
    | (apply Touches.after; (with_reducible apply State.completionTest_touches); rfl)
    | (apply Touches.after; (with_reducible apply State.setLoan_touches); rfl)
    | split

theorem State.transferEnded_touches (s : State) (n : Nat) (reserved : Option Nat) (r : Result) :
    Touches [.answers, .lapseQueue, .loans, .records, .notices] s (s.transferEnded n reserved r) := by
  unfold State.transferEnded
  try dsimp only
  repeat' first
    | with_reducible exact Touches.refl _ _
    | (apply Touches.after; (with_reducible apply State.setLoan_touches); rfl)
    | (apply Touches.after; (with_reducible apply State.inFlightOver_touches); rfl)
    | split

theorem State.faultWaiting_touches (s : State) (n : Nat) :
    Touches [.answers, .lapseQueue, .loans, .notices] s (s.faultWaiting n) := by
  unfold State.faultWaiting
  try dsimp only
  repeat' first
    | with_reducible exact Touches.refl _ _
    | (apply Touches.after; (with_reducible apply State.replyOpt_touches); rfl)
    | (apply Touches.after; (with_reducible apply State.freeLoan_touches); rfl)
    | split

theorem State.faultLoan_touches (s : State) (cause : Cause) (n : Nat) :
    Touches [.lapseQueue, .loans, .notices] s (s.faultLoan cause n) := by
  unfold State.faultLoan
  try dsimp only
  repeat' first
    | with_reducible exact Touches.refl _ _
    | (apply Touches.after; (with_reducible apply State.setLoan_touches); rfl)
    | (apply Touches.after; (with_reducible apply State.dropLapse_touches); rfl)
    | split

theorem State.faultLoans_touches (s : State) (b : Nat) (cause : Cause) :
    Touches [.answers, .lapseQueue, .loans, .notices] s (s.faultLoans b cause) := by
  unfold State.faultLoans
  try dsimp only
  repeat' first
    | with_reducible exact Touches.refl _ _
    | (apply Touches.after; (with_reducible apply State.faultLoan_touches); rfl)
    | (apply Touches.after; (with_reducible apply State.faultWaiting_touches); rfl)
    | (with_reducible apply Touches.foldl); intro _ _
    | split

theorem State.offer_touches (s : State) (cause : Cause) (location loansFaulted ordersFailed : Nat) :
    Touches [.capture] s (s.offer cause location loansFaulted ordersFailed) := by
  unfold State.offer
  (repeat' split) <;> (refine ⟨fun p hp => ?_⟩; cases p <;> first | exact absurd (by decide) hp | (and_intros <;> rfl))

theorem State.faultFifo_touches (s : State) (b : Nat) (cause : Cause) (g : Nat) :
    Touches [.answers, .fifos] s (s.faultFifo b cause g) := by
  unfold State.faultFifo
  try dsimp only
  repeat' first
    | with_reducible exact Touches.refl _ _
    | (apply Touches.after; (with_reducible apply State.setFifo_touches); rfl)
    | (apply Touches.after; (with_reducible apply State.replyAll_touches); rfl)
    | split

theorem State.leaveSlotWait_touches (s : State) (b : Nat) :
    Touches [.staging] s (s.leaveSlotWait b) := by
  unfold State.leaveSlotWait
  try dsimp only
  repeat' first
    | with_reducible exact Touches.refl _ _
    | split
    | ((with_reducible apply touches_staging); (refine ⟨fun p hp => ?_⟩; cases p <;> first | exact absurd (by decide) hp | (and_intros <;> rfl)))
    | (refine ⟨fun p hp => ?_⟩; cases p <;> first | exact absurd (by decide) hp | (and_intros <;> rfl))

theorem State.faultShares_touches (s : State) (b : Nat) (cause : Cause) :
    Touches [.answers, .fifos, .arbiters, .staging] s (s.faultShares b cause) := by
  unfold State.faultShares
  try dsimp only
  repeat' first
    | with_reducible exact Touches.refl _ _
    | (apply Touches.after; (with_reducible apply State.faultFifo_touches); rfl)
    | (apply Touches.after; (with_reducible apply State.setArbiter_touches); rfl)
    | (apply Touches.after; (with_reducible apply State.leaveSlotWait_touches); rfl)
    | (with_reducible apply Touches.foldl); intro _ _
    | split

theorem State.faultSlot_touches (s : State) (cause : Cause) (k : Nat) :
    Touches [.answers, .staging, .records] s (s.faultSlot cause k) := by
  unfold State.faultSlot
  try dsimp only
  repeat' first
    | with_reducible exact Touches.refl _ _
    | (apply Touches.after; (with_reducible apply State.replyAll_touches); rfl)
    | (apply Touches.after; (with_reducible apply State.freeSlot_touches); rfl)
    | (apply Touches.after; (with_reducible apply State.offerSlot_touches); rfl)
    | (apply Touches.after; (with_reducible apply State.setSlot_touches); rfl)
    | (apply Touches.after; (with_reducible apply State.endDrain_touches); rfl)
    | (apply Touches.after; (with_reducible apply State.dropResident_touches); rfl)
    | split

theorem State.faultStaging_touches (s : State) (b : Nat) (cause : Cause) :
    Touches [.answers, .staging, .records] s (s.faultStaging b cause) := by
  unfold State.faultStaging
  try dsimp only
  repeat' first
    | with_reducible exact Touches.refl _ _
    | (apply Touches.after; (with_reducible apply State.faultSlot_touches); rfl)
    | (with_reducible apply Touches.foldl); intro _ _
    | split

theorem State.releaseEnded_touches (s : State) (b : Nat) (ended : List Command) :
    Touches [.arbiters] s (s.releaseEnded b ended) := by
  unfold State.releaseEnded
  try dsimp only
  repeat' first
    | with_reducible exact Touches.refl _ _
    | (apply Touches.after; (with_reducible apply State.setTag_touches); rfl)
    | (with_reducible apply Touches.foldl); intro _ _
    | split

theorem State.answerAdmit_touches (s : State) (b : Nat) (r : Result) (detail : Nat) :
    Touches [.answers, .records] s (s.answerAdmit b r detail) := by
  unfold State.answerAdmit
  try dsimp only
  repeat' first
    | with_reducible exact Touches.refl _ _
    | (apply Touches.after; (with_reducible apply State.setBay_touches); rfl)
    | (apply Touches.after; (with_reducible apply State.replyOpt_touches); rfl)
    | split

theorem State.spreadFault_touches (s : State) (b : Nat) (cause : Cause) :
    Touches [.answers, .lapseQueue, .loans, .fifos, .arbiters, .staging, .records, .capture, .notices]
      s (s.spreadFault b cause) := by
  unfold State.spreadFault
  try dsimp only
  repeat' first
    | with_reducible exact Touches.refl _ _
    | (apply Touches.after; (with_reducible apply State.faultLoans_touches); rfl)
    | (apply Touches.after; (with_reducible apply State.faultShares_touches); rfl)
    | (apply Touches.after; (with_reducible apply State.faultStaging_touches); rfl)
    | (apply Touches.after; (with_reducible apply State.offer_touches); rfl)
    | split

theorem State.bayFault_touches (s : State) (b : Nat) (cause : Cause) :
    Touches [.answers, .lapseQueue, .ports, .loans, .fifos, .arbiters, .staging, .records, .capture, .notices]
      s (s.bayFault b cause) := by
  unfold State.bayFault
  try dsimp only
  repeat' first
    | with_reducible exact Touches.refl _ _
    | (apply Touches.after; (with_reducible apply State.putBay_touches); rfl)
    | (apply Touches.after; (with_reducible apply State.releaseEnded_touches); rfl)
    | (apply Touches.after; (with_reducible apply State.answerAdmit_touches); rfl)
    | (apply Touches.after; (with_reducible apply State.spreadFault_touches); rfl)
    | split

theorem State.operationFails_touches (s : State) (b : Nat) :
    Touches [.answers, .lapseQueue, .ports, .loans, .fifos, .arbiters, .staging, .records, .capture, .notices]
      s (s.operationFails b) := by
  unfold State.operationFails
  try dsimp only
  repeat' first
    | with_reducible exact Touches.refl _ _
    | (apply Touches.after; (with_reducible apply State.bayFault_touches); rfl)
    | split

theorem State.discardBay_touches (s : State) (b : Nat) :
    Touches [.staging] s (s.discardBay b) := by
  unfold State.discardBay
  try dsimp only
  repeat' first
    | with_reducible exact Touches.refl _ _
    | (apply Touches.after; (with_reducible apply State.clearStaged_touches); rfl)
    | split

theorem State.retired_touches (s : State) (b : Nat) :
    Touches [.ports, .staging, .records] s (s.retired b) := by
  unfold State.retired
  try dsimp only
  repeat' first
    | with_reducible exact Touches.refl _ _
    | (apply Touches.after; (with_reducible apply State.putBay_touches); rfl)
    | (apply Touches.after; (with_reducible apply State.discardBay_touches); rfl)
    | split

theorem State.retireSpunDown_touches (s : State) (b : Nat) :
    Touches [.ports, .staging, .records] s (s.retireSpunDown b) := by
  unfold State.retireSpunDown
  try dsimp only
  repeat' first
    | with_reducible exact Touches.refl _ _
    | (apply Touches.after; (with_reducible apply State.setBay_touches); rfl)
    | (apply Touches.after; (with_reducible apply State.startSpinUp_touches); rfl)
    | (apply Touches.after; (with_reducible apply State.retired_touches); rfl)
    | split

theorem State.setPart_touches (s : State) (p : PartState) :
    Touches [.part] s (s.setPart p) := by
  unfold State.setPart
  (repeat' split) <;> (refine ⟨fun p hp => ?_⟩; cases p <;> first | exact absurd (by decide) hp | (and_intros <;> rfl))

theorem State.setSweepTimer_touches (s : State) (on : Bool) :
    Touches [.intake] s (s.setSweepTimer on) := by
  unfold State.setSweepTimer
  (repeat' split) <;> (refine ⟨fun p hp => ?_⟩; cases p <;> first | exact absurd (by decide) hp | (and_intros <;> rfl))

theorem State.setSweep_touches (s : State) (w : Sweep) :
    Touches [.intake] s (s.setSweep w) := by
  unfold State.setSweep
  (repeat' split) <;> (refine ⟨fun p hp => ?_⟩; cases p <;> first | exact absurd (by decide) hp | (and_intros <;> rfl))

theorem State.stopSweep_touches (s : State) :
    Touches [.intake] s (s.stopSweep) := by
  unfold State.stopSweep
  try dsimp only
  repeat' first
    | with_reducible exact Touches.refl _ _
    | (apply Touches.after; (with_reducible apply State.setSweep_touches); rfl)
    | (apply Touches.after; (with_reducible apply State.setSweepTimer_touches); rfl)
    | split

theorem State.startSweepTimer_touches (s : State) :
    Touches [.intake] s (s.startSweepTimer) := by
  unfold State.startSweepTimer
  try dsimp only
  repeat' first
    | with_reducible exact Touches.refl _ _
    | (apply Touches.after; (with_reducible apply State.setSweepTimer_touches); rfl)
    | split

theorem State.sweepOn_touches (s : State) (n : Nat) :
    Touches [.intake] s (s.sweepOn n) := by
  unfold State.sweepOn
  try dsimp only
  repeat' first
    | with_reducible exact Touches.refl _ _
    | (apply Touches.after; (with_reducible apply State.setSweep_touches); rfl)
    | (apply Touches.after; (with_reducible apply State.setSweepTimer_touches); rfl)
    | split

theorem State.setTake_touches (s : State) (t : Option Take) :
    Touches [.intake] s (s.setTake t) := by
  unfold State.setTake
  (repeat' split) <;> (refine ⟨fun p hp => ?_⟩; cases p <;> first | exact absurd (by decide) hp | (and_intros <;> rfl))

theorem State.strayPost_touches (s : State) :
    Touches [.intake] s (s.strayPost) := by
  unfold State.strayPost
  (repeat' split) <;> (refine ⟨fun p hp => ?_⟩; cases p <;> first | exact absurd (by decide) hp | (and_intros <;> rfl))

theorem State.enterRunning_touches (s : State) :
    Touches [.part, .intake] s (s.enterRunning) := by
  unfold State.enterRunning
  try dsimp only
  repeat' first
    | with_reducible exact Touches.refl _ _
    | (apply Touches.after; (with_reducible apply State.setPart_touches); rfl)
    | (apply Touches.after; (with_reducible apply State.startSweepTimer_touches); rfl)
    | split

theorem State.tryStart_touches (s : State) :
    Touches [.part, .intake] s (s.tryStart) := by
  unfold State.tryStart
  try dsimp only
  repeat' first
    | with_reducible exact Touches.refl _ _
    | (apply Touches.after; (with_reducible apply State.enterRunning_touches); rfl)
    | split

theorem State.stopSends_touches (s : State) (b : Nat) :
    Touches [.arbiters, .records] s (s.stopSends b) := by
  unfold State.stopSends
  try dsimp only
  repeat' first
    | with_reducible exact Touches.refl _ _
    | (apply Touches.after; (with_reducible apply State.setBay_touches); rfl)
    | (apply Touches.after; (with_reducible apply State.releaseEnded_touches); rfl)
    | split

theorem State.quiesce_touches (s : State) :
    Touches [.intake, .arbiters, .records] s (s.quiesce) := by
  unfold State.quiesce
  try dsimp only
  repeat' first
    | with_reducible exact Touches.refl _ _
    | (apply Touches.after; (with_reducible apply State.stopSends_touches); rfl)
    | (apply Touches.after; (with_reducible apply State.stopSweep_touches); rfl)
    | (with_reducible apply Touches.foldl); intro _ _
    | split

theorem State.requestRestart_touches (s : State) (cause : ResetCause) :
    Touches [.part, .intake, .arbiters, .records] s (s.requestRestart cause) := by
  unfold State.requestRestart
  try dsimp only
  repeat' first
    | with_reducible exact Touches.refl _ _
    | (apply Touches.after; (with_reducible apply State.quiesce_touches); rfl)
    | split
    | ((with_reducible apply touches_exchange); (refine ⟨fun p hp => ?_⟩; cases p <;> first | exact absurd (by decide) hp | (and_intros <;> rfl)))
    | (refine ⟨fun p hp => ?_⟩; cases p <;> first | exact absurd (by decide) hp | (and_intros <;> rfl))

theorem State.areaError_touches (s : State) (cause : HaltCause) :
    Touches [.part, .intake, .arbiters, .records] s (s.areaError cause) := by
  unfold State.areaError
  try dsimp only
  repeat' first
    | with_reducible exact Touches.refl _ _
    | (apply Touches.after; (with_reducible apply State.quiesce_touches); rfl)
    | split
    | ((with_reducible apply touches_exchange); (refine ⟨fun p hp => ?_⟩; cases p <;> first | exact absurd (by decide) hp | (and_intros <;> rfl)))
    | (refine ⟨fun p hp => ?_⟩; cases p <;> first | exact absurd (by decide) hp | (and_intros <;> rfl))

theorem State.changeAnswerMode_touches (s : State) (old : AnswerMode) :
    Touches [.notices] s (s.changeAnswerMode old) := by
  unfold State.changeAnswerMode
  try dsimp only
  repeat' first
    | with_reducible exact Touches.refl _ _
    | (apply Touches.after; (with_reducible apply State.setFlags_touches); rfl)
    | split

theorem State.changeSweepMs_touches (s : State) (old : BitVec 8) :
    Touches [.intake] s (s.changeSweepMs old) := by
  unfold State.changeSweepMs
  try dsimp only
  repeat' first
    | with_reducible exact Touches.refl _ _
    | (apply Touches.after; (with_reducible apply State.setSweepTimer_touches); rfl)
    | split

theorem State.changeIntake_touches (s : State) (old : IntakeMode) :
    Touches [.intake] s (s.changeIntake old) := by
  unfold State.changeIntake
  try dsimp only
  repeat' first
    | with_reducible exact Touches.refl _ _
    | (apply Touches.after; (with_reducible apply State.stopSweep_touches); rfl)
    | (apply Touches.after; (with_reducible apply State.setSweepTimer_touches); rfl)
    | split

theorem State.actOnRun_touches (s : State) :
    Touches [.part, .intake] s (s.actOnRun) := by
  unfold State.actOnRun
  try dsimp only
  repeat' first
    | with_reducible exact Touches.refl _ _
    | (apply Touches.after; (with_reducible apply State.tryStart_touches); rfl)
    | (apply Touches.after; (with_reducible apply State.enterRunning_touches); rfl)
    | (apply Touches.after; (with_reducible apply State.setPart_touches); rfl)
    | (apply Touches.after; (with_reducible apply State.stopSweep_touches); rfl)
    | (apply Touches.after; (with_reducible apply State.tryStop_touches); rfl)
    | split

theorem State.storeControl_touches (s : State) (c : Control) :
    Touches [.part, .control, .intake, .notices] s (s.storeControl c) := by
  unfold State.storeControl
  try dsimp only
  repeat' first
    | with_reducible exact Touches.refl _ _
    | (apply Touches.after; (with_reducible apply State.changeAnswerMode_touches); rfl)
    | (apply Touches.after; (with_reducible apply State.changeSweepMs_touches); rfl)
    | (apply Touches.after; (with_reducible apply State.changeIntake_touches); rfl)
    | (apply Touches.after; (with_reducible apply State.actOnRun_touches); rfl)
    | split
    | ((with_reducible apply touches_exchange); (refine ⟨fun p hp => ?_⟩; cases p <;> first | exact absurd (by decide) hp | (and_intros <;> rfl)))
    | (refine ⟨fun p hp => ?_⟩; cases p <;> first | exact absurd (by decide) hp | (and_intros <;> rfl))

theorem State.writeControl_touches (s : State) (w : Word) :
    Touches [.part, .control, .intake, .ports, .arbiters, .records, .notices] s (s.writeControl w) := by
  unfold State.writeControl
  try dsimp only
  repeat' first
    | with_reducible exact Touches.refl _ _
    | (apply Touches.after; (with_reducible apply State.storeControl_touches); rfl)
    | (apply Touches.after; (with_reducible apply State.requestRestart_touches); rfl)
    | (apply Touches.after; (with_reducible apply State.beginRecords_touches); rfl)
    | split

theorem State.cleared_touches (s : State) :
    Touches [.part, .control, .intake, .held, .awaiting, .answers, .answerQueue, .lapseQueue, .ports, .loans, .fifos, .staging, .engine, .capture, .notices]
      s (s.cleared) := by
  unfold State.cleared
  try dsimp only
  repeat' first
    | with_reducible exact Touches.refl _ _
    | split
    | ((with_reducible apply touches_exchange); (refine ⟨fun p hp => ?_⟩; cases p <;> first | exact absurd (by decide) hp | (and_intros <;> rfl)))
    | ((with_reducible apply touches_staging); (refine ⟨fun p hp => ?_⟩; cases p <;> first | exact absurd (by decide) hp | (and_intros <;> rfl)))
    | ((with_reducible apply touches_capture); (refine ⟨fun p hp => ?_⟩; cases p <;> first | exact absurd (by decide) hp | (and_intros <;> rfl)))
    | ((with_reducible apply touches_notices); (refine ⟨fun p hp => ?_⟩; cases p <;> first | exact absurd (by decide) hp | (and_intros <;> rfl)))
    | ((with_reducible apply touches_engine); (refine ⟨fun p hp => ?_⟩; cases p <;> first | exact absurd (by decide) hp | (and_intros <;> rfl)))
    | (refine ⟨fun p hp => ?_⟩; cases p <;> first | exact absurd (by decide) hp | (and_intros <;> rfl))

theorem State.restartEffects_touches (s : State) :
    Touches [.part, .control, .intake, .held, .awaiting, .answers, .answerQueue, .lapseQueue, .ports, .loans, .fifos, .arbiters, .staging, .engine, .records, .capture, .notices]
      s (s.restartEffects) := by
  unfold State.restartEffects
  try dsimp only
  repeat' first
    | with_reducible exact Touches.refl _ _
    | (apply Touches.after; (with_reducible apply State.cleared_touches); rfl)
    | (apply Touches.after; (with_reducible apply State.setArbiter_touches); rfl)
    | (apply Touches.after; (with_reducible apply State.setBay_touches); rfl)
    | (apply Touches.after; (with_reducible apply State.requestSummary_touches); rfl)
    | (apply Touches.after; (with_reducible apply State.beginRecords_touches); rfl)
    | (with_reducible apply Touches.foldl); intro _ _
    | (with_reducible apply overBays_touches); intro _ _
    | split

end Sys2Proof.Machine
end

