-- ==== Sys2Proof/Laws/CommandFootprints.lean ====
section
/-! SUPPORT. The footprint of every operation that one family of commands uses. -/
namespace Sys2Proof.Machine

theorem State.writeBase_touches (s : State) (high : Bool) (w : Word) :
    Touches [.part, .base, .intake, .ports] s (s.writeBase high w) := by
  unfold State.writeBase
  try dsimp only
  repeat' first
    | with_reducible exact Touches.refl _ _
    | (apply Touches.after; (with_reducible apply State.tryStart_touches); rfl)
    | (apply Touches.after; (with_reducible apply State.beginRecords_touches); rfl)
    | split
    | ((with_reducible apply touches_exchange); (refine ⟨fun p hp => ?_⟩; cases p <;> first | exact absurd (by decide) hp | (and_intros <;> rfl)))
    | (refine ⟨fun p hp => ?_⟩; cases p <;> first | exact absurd (by decide) hp | (and_intros <;> rfl))

theorem State.writePost_touches (s : State) (w : Word) :
    Touches [.intake, .notices] s (s.writePost w) := by
  unfold State.writePost
  try dsimp only
  repeat' first
    | with_reducible exact Touches.refl _ _
    | (apply Touches.after; (with_reducible apply State.noticeOverflow_touches); rfl)
    | split
    | ((with_reducible apply touches_exchange); (refine ⟨fun p hp => ?_⟩; cases p <;> first | exact absurd (by decide) hp | (and_intros <;> rfl)))
    | (refine ⟨fun p hp => ?_⟩; cases p <;> first | exact absurd (by decide) hp | (and_intros <;> rfl))

theorem State.returned_touches (s : State) (w : Option Word) :
    Touches [.link] s (s.returned w) := by
  unfold State.returned
  (repeat' split) <;> (refine ⟨fun p hp => ?_⟩; cases p <;> first | exact absurd (by decide) hp | (and_intros <;> rfl))

theorem State.readAnswer_touches (s : State) :
    Touches [.link, .answerQueue, .notices] s (s.readAnswer) := by
  unfold State.readAnswer
  try dsimp only
  repeat' first
    | with_reducible exact Touches.refl _ _
    | (apply Touches.after; (with_reducible apply State.returned_touches); rfl)
    | (apply Touches.after; (with_reducible apply State.shrinkAnswers_touches); rfl)
    | split

theorem State.readLapse_touches (s : State) :
    Touches [.link, .lapseQueue, .notices] s (s.readLapse) := by
  unfold State.readLapse
  try dsimp only
  repeat' first
    | with_reducible exact Touches.refl _ _
    | (apply Touches.after; (with_reducible apply State.returned_touches); rfl)
    | (apply Touches.after; (with_reducible apply State.setLapseQueue_touches); rfl)
    | split

theorem State.writeNotice_touches (s : State) (w : Word) :
    Touches [.notices] s (s.writeNotice w) := by
  unfold State.writeNotice
  try dsimp only
  repeat' first
    | with_reducible exact Touches.refl _ _
    | (apply Touches.after; (with_reducible apply State.setFlags_touches); rfl)
    | split

theorem State.writeEnable_touches (s : State) (w : Word) :
    Touches [.notices] s (s.writeEnable w) := by
  unfold State.writeEnable
  try dsimp only
  repeat' first
    | with_reducible exact Touches.refl _ _
    | split
    | ((with_reducible apply touches_notices); (refine ⟨fun p hp => ?_⟩; cases p <;> first | exact absurd (by decide) hp | (and_intros <;> rfl)))
    | (refine ⟨fun p hp => ?_⟩; cases p <;> first | exact absurd (by decide) hp | (and_intros <;> rfl))

theorem State.samplePresence_touches (s : State) (b : Nat) :
    Touches [.ports, .records] s (s.samplePresence b) := by
  unfold State.samplePresence
  try dsimp only
  repeat' first
    | with_reducible exact Touches.refl _ _
    | (apply Touches.after; (with_reducible apply State.putBay_touches); rfl)
    | split

theorem State.bringupEnd_touches (s : State) (badSlots : BitVec 256) :
    Touches [.part, .ports, .staging, .records] s (s.bringupEnd badSlots) := by
  unfold State.bringupEnd
  try dsimp only
  repeat' first
    | with_reducible exact Touches.refl _ _
    | (apply Touches.after; (with_reducible apply State.samplePresence_touches); rfl)
    | (apply Touches.after; (with_reducible apply State.setPart_touches); rfl)
    | (apply Touches.after; (with_reducible apply State.beginRecords_touches); rfl)
    | (with_reducible apply Touches.foldl); intro _ _
    | (with_reducible apply overBays_touches); intro _ _
    | split
    | ((with_reducible apply touches_staging); (refine ⟨fun p hp => ?_⟩; cases p <;> first | exact absurd (by decide) hp | (and_intros <;> rfl)))
    | (refine ⟨fun p hp => ?_⟩; cases p <;> first | exact absurd (by decide) hp | (and_intros <;> rfl))

theorem State.linkReset_touches (s : State) :
    Touches [.link, .part, .intake, .arbiters, .records, .notices] s (s.linkReset) := by
  unfold State.linkReset
  try dsimp only
  repeat' first
    | with_reducible exact Touches.refl _ _
    | (apply Touches.after; (with_reducible apply State.requestRestart_touches); rfl)
    | split
    | ((with_reducible apply touches_link); (refine ⟨fun p hp => ?_⟩; cases p <;> first | exact absurd (by decide) hp | (and_intros <;> rfl)))
    | ((with_reducible apply touches_notices); (refine ⟨fun p hp => ?_⟩; cases p <;> first | exact absurd (by decide) hp | (and_intros <;> rfl)))
    | (refine ⟨fun p hp => ?_⟩; cases p <;> first | exact absurd (by decide) hp | (and_intros <;> rfl))

theorem State.takePosted_touches (s : State) :
    Touches [.intake] s (s.takePosted) := by
  unfold State.takePosted
  try dsimp only
  repeat' first
    | with_reducible exact Touches.refl _ _
    | (apply Touches.after; (with_reducible apply State.strayPost_touches); rfl)
    | (apply Touches.after; (with_reducible apply State.setTake_touches); rfl)
    | split
    | ((with_reducible apply touches_exchange); (refine ⟨fun p hp => ?_⟩; cases p <;> first | exact absurd (by decide) hp | (and_intros <;> rfl)))
    | (refine ⟨fun p hp => ?_⟩; cases p <;> first | exact absurd (by decide) hp | (and_intros <;> rfl))

theorem State.firstVisit_touches (s : State) :
    Touches [.intake] s (s.firstVisit) := by
  unfold State.firstVisit
  try dsimp only
  repeat' first
    | with_reducible exact Touches.refl _ _
    | (apply Touches.after; (with_reducible apply State.setSweep_touches); rfl)
    | (apply Touches.after; (with_reducible apply State.sweepOn_touches); rfl)
    | split

theorem State.beginSweep_touches (s : State) :
    Touches [.intake] s (s.beginSweep) := by
  unfold State.beginSweep
  try dsimp only
  repeat' first
    | with_reducible exact Touches.refl _ _
    | (apply Touches.after; (with_reducible apply State.setSweepTimer_touches); rfl)
    | (apply Touches.after; (with_reducible apply State.firstVisit_touches); rfl)
    | split

theorem State.foundPosted_touches (s : State) (c : Nat) :
    Touches [.intake] s (s.foundPosted c) := by
  unfold State.foundPosted
  try dsimp only
  repeat' first
    | with_reducible exact Touches.refl _ _
    | (apply Touches.after; (with_reducible apply State.setSweep_touches); rfl)
    | (apply Touches.after; (with_reducible apply State.setTake_touches); rfl)
    | split

theorem State.leftoverEnds_touches (s : State) :
    Touches [.intake] s (s.leftoverEnds) := by
  unfold State.leftoverEnds
  try dsimp only
  repeat' first
    | with_reducible exact Touches.refl _ _
    | (apply Touches.after; (with_reducible apply State.setSweep_touches); rfl)
    | (apply Touches.after; (with_reducible apply State.sweepOn_touches); rfl)
    | split

theorem State.visited_touches (s : State) (lead : BitVec 64) :
    Touches [.intake] s (s.visited lead) := by
  unfold State.visited
  try dsimp only
  repeat' first
    | with_reducible exact Touches.refl _ _
    | (apply Touches.after; (with_reducible apply State.leftoverEnds_touches); rfl)
    | (apply Touches.after; (with_reducible apply State.sweepOn_touches); rfl)
    | (apply Touches.after; (with_reducible apply State.foundPosted_touches); rfl)
    | split

theorem State.dropAnswered_touches (s : State) (c : Nat) :
    Touches [.answerQueue, .notices] s (s.dropAnswered c) := by
  unfold State.dropAnswered
  try dsimp only
  repeat' first
    | with_reducible exact Touches.refl _ _
    | (apply Touches.after; (with_reducible apply State.shrinkAnswers_touches); rfl)
    | split

theorem State.markTaken_touches (s : State) (c : Nat) :
    Touches [.answerQueue, .notices, .hostMem] s (s.markTaken c) := by
  unfold State.markTaken
  try dsimp only
  repeat' first
    | with_reducible exact Touches.refl _ _
    | (apply Touches.after; (with_reducible apply State.dropAnswered_touches); rfl)
    | (apply Touches.after; (with_reducible apply State.poke_touches); rfl)
    | split

theorem State.hold_touches (s : State) (c : Nat) (copy : Copy) :
    Touches [.held, .awaiting, .answers] s (s.hold c copy) := by
  unfold State.hold
  try dsimp only
  repeat' first
    | with_reducible exact Touches.refl _ _
    | (apply Touches.after; (with_reducible apply State.reply_touches); rfl)
    | split
    | ((with_reducible apply touches_exchange); (refine ⟨fun p hp => ?_⟩; cases p <;> first | exact absurd (by decide) hp | (and_intros <;> rfl)))
    | (refine ⟨fun p hp => ?_⟩; cases p <;> first | exact absurd (by decide) hp | (and_intros <;> rfl))

theorem State.resumeSweep_touches (s : State) (t : Take) :
    Touches [.intake] s (s.resumeSweep t) := by
  unfold State.resumeSweep
  try dsimp only
  repeat' first
    | with_reducible exact Touches.refl _ _
    | (apply Touches.after; (with_reducible apply State.sweepOn_touches); rfl)
    | (apply Touches.after; (with_reducible apply State.foundPosted_touches); rfl)
    | split

theorem State.endTake_touches (s : State) (copy : Copy) :
    Touches [.part, .intake, .held, .awaiting, .answers, .answerQueue, .notices, .hostMem] s (s.endTake copy) := by
  unfold State.endTake
  try dsimp only
  repeat' first
    | with_reducible exact Touches.refl _ _
    | (apply Touches.after; (with_reducible apply State.setTake_touches); rfl)
    | (apply Touches.after; (with_reducible apply State.markTaken_touches); rfl)
    | (apply Touches.after; (with_reducible apply State.hold_touches); rfl)
    | (apply Touches.after; (with_reducible apply State.strayPost_touches); rfl)
    | (apply Touches.after; (with_reducible apply State.resumeSweep_touches); rfl)
    | (apply Touches.after; (with_reducible apply State.tryStop_touches); rfl)
    | split

/-- An order that is handled touches what its own operation touches, the place it waits in and the record ports. -/
theorem State.handling_touches {ps : List Part} {s t : State} {k c act} (h : State.handling s k c act = .next t)
  (ha : ∀ u x, Touches ps u (act u x)) (w1 : within [.awaiting] ps = true) (w2 : within [.ports] ps = true) : Touches ps s t := by
  unfold State.handling at h
  split at h <;> cases h
  · exact (State.beginRecords_touches _).after w2 (((State.validated_touches ..).mono w1).trans (ha _ _))
  · exact Touches.refl _ _

theorem State.openLoan_touches (s : State) (cell : Nat) (c : Copy) :
    Touches [.answers, .loans] s (s.openLoan cell c) := by
  unfold State.openLoan
  try dsimp only
  repeat' first
    | with_reducible exact Touches.refl _ _
    | (apply Touches.after; (with_reducible apply State.reply_touches); rfl)
    | (apply Touches.after; (with_reducible apply State.setLoan_touches); rfl)
    | (apply Touches.after; (with_reducible apply State.setWaiting_touches); rfl)
    | (apply Touches.after; (with_reducible apply State.putAnswer_touches); rfl)
    | split

theorem State.renewLoan_touches (s : State) (cell : Nat) (c : Copy) :
    Touches [.answers, .loans] s (s.renewLoan cell c) := by
  unfold State.renewLoan
  try dsimp only
  repeat' first
    | with_reducible exact Touches.refl _ _
    | (apply Touches.after; (with_reducible apply State.reply_touches); rfl)
    | (apply Touches.after; (with_reducible apply State.setLoan_touches); rfl)
    | split

theorem State.holdReturn_touches (s : State) (n cell : Nat) (st : LoanState) :
    Touches [.loans] s (s.holdReturn n cell st) := by
  unfold State.holdReturn
  try dsimp only
  repeat' first
    | with_reducible exact Touches.refl _ _
    | (apply Touches.after; (with_reducible apply State.setLoan_touches); rfl)
    | split

theorem State.returnLoan_touches (s : State) (cell : Nat) (c : Copy) :
    Touches [.answers, .lapseQueue, .loans, .records, .notices] s (s.returnLoan cell c) := by
  unfold State.returnLoan
  try dsimp only
  repeat' first
    | with_reducible exact Touches.refl _ _
    | (apply Touches.after; (with_reducible apply State.reply_touches); rfl)
    | (apply Touches.after; (with_reducible apply State.freeLoan_touches); rfl)
    | (apply Touches.after; (with_reducible apply State.examine_touches); rfl)
    | (apply Touches.after; (with_reducible apply State.completionTest_touches); rfl)
    | (apply Touches.after; (with_reducible apply State.holdReturn_touches); rfl)
    | (apply Touches.after; (with_reducible apply State.replyOpt_touches); rfl)
    | split

theorem State.queryLoan_touches (s : State) (cell : Nat) (c : Copy) :
    Touches [.answers] s (s.queryLoan cell c) := by
  unfold State.queryLoan
  try dsimp only
  repeat' first
    | with_reducible exact Touches.refl _ _
    | (apply Touches.after; (with_reducible apply State.putAnswer_touches); rfl)
    | split

theorem State.path_touches (s : State) (cell : Nat) (t : Transfer) :
    Touches [.ports, .fifos, .staging, .engine, .records, .meters] s (s.path cell t) := by
  unfold State.path
  try dsimp only
  repeat' first
    | with_reducible exact Touches.refl _ _
    | (apply Touches.after; (with_reducible apply State.joinSlot_touches); rfl)
    | (apply Touches.after; (with_reducible apply State.enqueue_touches); rfl)
    | split

theorem State.takeUp_touches (s : State) (cell : Nat) (t : Transfer) :
    Touches [.held, .ports, .fifos, .staging, .engine, .records, .meters] s (s.takeUp cell t) := by
  unfold State.takeUp
  try dsimp only
  repeat' first
    | with_reducible exact Touches.refl _ _
    | (apply Touches.after; (with_reducible apply State.setTransfer_touches); rfl)
    | (apply Touches.after; (with_reducible apply State.path_touches); rfl)
    | split

theorem State.raiseInFlight_touches (s : State) (n : Nat) :
    Touches [.loans] s (s.raiseInFlight n) := by
  unfold State.raiseInFlight
  try dsimp only
  repeat' first
    | with_reducible exact Touches.refl _ _
    | (apply Touches.after; (with_reducible apply State.setLoan_touches); rfl)
    | split

theorem State.loanTransfer_touches (s : State) (k : OrderKind) (cell : Nat) (c : Copy) :
    Touches [.held, .answers, .ports, .loans, .fifos, .staging, .engine, .records, .meters] s (s.loanTransfer k cell c) := by
  unfold State.loanTransfer
  try dsimp only
  repeat' first
    | with_reducible exact Touches.refl _ _
    | (apply Touches.after; (with_reducible apply State.reply_touches); rfl)
    | (apply Touches.after; (with_reducible apply State.raiseInFlight_touches); rfl)
    | (apply Touches.after; (with_reducible apply State.takeUp_touches); rfl)
    | split

theorem State.serviceTransfer_touches (s : State) (k : OrderKind) (cell : Nat) (c : Copy) :
    Touches [.held, .answers, .ports, .fifos, .staging, .engine, .records, .meters] s (s.serviceTransfer k cell c) := by
  unfold State.serviceTransfer
  try dsimp only
  repeat' first
    | with_reducible exact Touches.refl _ _
    | (apply Touches.after; (with_reducible apply State.reply_touches); rfl)
    | (apply Touches.after; (with_reducible apply State.takeUp_touches); rfl)
    | split

theorem State.setAppend_touches (s : State) (n : Nat) (a : AppendRecord) :
    Touches [.loans] s (s.setAppend n a) := by
  unfold State.setAppend
  try dsimp only
  repeat' first
    | with_reducible exact Touches.refl _ _
    | (apply Touches.after; (with_reducible apply State.setLoan_touches); rfl)
    | split

theorem State.placeAppend_touches (s : State) (cell : Nat) (l : Loan) (a : AppendRecord) (loan count : Nat) :
    Touches [.held, .answers, .ports, .loans, .fifos, .staging, .engine, .records, .meters]
      s (s.placeAppend cell l a loan count) := by
  unfold State.placeAppend
  try dsimp only
  repeat' first
    | with_reducible exact Touches.refl _ _
    | (apply Touches.after; (with_reducible apply State.setTransfer_touches); rfl)
    | (apply Touches.after; (with_reducible apply State.reply_touches); rfl)
    | (apply Touches.after; (with_reducible apply State.setAppend_touches); rfl)
    | (apply Touches.after; (with_reducible apply State.takeUp_touches); rfl)
    | split

theorem State.appendOrder_touches (s : State) (cell : Nat) (c : Copy) :
    Touches [.held, .answers, .ports, .loans, .fifos, .staging, .engine, .records, .meters] s (s.appendOrder cell c) := by
  unfold State.appendOrder
  try dsimp only
  repeat' first
    | with_reducible exact Touches.refl _ _
    | (apply Touches.after; (with_reducible apply State.reply_touches); rfl)
    | (apply Touches.after; (with_reducible apply State.raiseInFlight_touches); rfl)
    | (apply Touches.after; (with_reducible apply State.placeAppend_touches); rfl)
    | split

theorem State.policy_touches {ps : List Part} (s : State) (cell : Nat) (c : Copy) (checks : List (Nat × Bool))
    (act : State → State) (h : Touches ps s (act s)) (w : within [.answers] ps = true) :
    Touches ps s (s.policy cell c checks act) := by
  unfold State.policy
  split
  · exact (State.reply_touches ..).mono w
  · exact h

theorem State.setShare_touches (s : State) (g weight cap : Nat) :
    Touches [.ports, .groups, .fifos, .records] s (s.setShare g weight cap) := by
  unfold State.setShare
  try dsimp only
  repeat' first
    | with_reducible exact Touches.refl _ _
    | (apply Touches.after; (with_reducible apply State.setGroup_touches); rfl)
    | (apply Touches.after; (with_reducible apply State.tagHead_touches); rfl)
    | (apply Touches.after; (with_reducible apply State.requestSpinUps_touches); rfl)
    | (with_reducible apply Touches.foldl); intro _ _
    | split

theorem State.setDisk_touches (s : State) (c : Copy) :
    Touches [.arbiters, .records] s (s.setDisk c) := by
  unfold State.setDisk
  try dsimp only
  repeat' first
    | with_reducible exact Touches.refl _ _
    | (apply Touches.after; (with_reducible apply State.setArbiter_touches); rfl)
    | (apply Touches.after; (with_reducible apply State.setBay_touches); rfl)
    | split

theorem State.setClock_touches (s : State) (cell : Nat) (c : Copy) :
    Touches [.answers, .clock] s (s.setClock cell c) := by
  unfold State.setClock
  try dsimp only
  repeat' first
    | with_reducible exact Touches.refl _ _
    | (apply Touches.after; (with_reducible apply State.reply_touches); rfl)
    | split
    | ((with_reducible apply touches_clock); (refine ⟨fun p hp => ?_⟩; cases p <;> first | exact absurd (by decide) hp | (and_intros <;> rfl)))
    | (refine ⟨fun p hp => ?_⟩; cases p <;> first | exact absurd (by decide) hp | (and_intros <;> rfl))

theorem State.beginAdmission_touches (s : State) (b cell : Nat) :
    Touches [.ports, .records] s (s.beginAdmission b cell) := by
  unfold State.beginAdmission
  try dsimp only
  repeat' first
    | with_reducible exact Touches.refl _ _
    | (apply Touches.after; (with_reducible apply State.putBay_touches); rfl)
    | (apply Touches.after; (with_reducible apply State.send_touches); rfl)
    | split

theorem State.admitBay_touches (s : State) (cell b : Nat) :
    Touches [.answers, .ports, .records] s (s.admitBay cell b) := by
  unfold State.admitBay
  try dsimp only
  repeat' first
    | with_reducible exact Touches.refl _ _
    | (apply Touches.after; (with_reducible apply State.beginAdmission_touches); rfl)
    | (apply Touches.after; (with_reducible apply State.reply_touches); rfl)
    | split

theorem State.retireBay_touches {s t : State} {b : Nat} (h : s.retireBay b = some t) :
    Touches [.ports, .arbiters, .staging, .records] s t := by
  unfold State.retireBay at h
  dsimp only at h
  split at h <;> cases h
  · exact (State.completionTest_touches ..).after rfl ((State.putBay_touches ..).mono rfl)
  · exact (State.retireSpunDown_touches ..).mono rfl
  · exact (State.setBay_touches ..).mono rfl
  · exact (State.setBay_touches ..).mono rfl

theorem State.answerRetire_touches (s : State) (cell b : Nat) :
    Touches [.answers, .ports, .arbiters, .staging, .records] s (s.answerRetire cell b) := by
  unfold State.answerRetire
  split
  · exact ((State.reply_touches ..).after rfl ((State.retireBay_touches ‹_›).mono rfl))
  · exact (State.reply_touches ..).mono rfl

theorem State.watchBay_touches (s : State) (c : Copy) (b : Nat) :
    Touches [.ports, .records] s (s.watchBay c b) := by
  unfold State.watchBay
  try dsimp only
  repeat' first
    | with_reducible exact Touches.refl _ _
    | (apply Touches.after; (with_reducible apply State.putBay_touches); rfl)
    | split

theorem State.watchBays_touches (s : State) (cell : Nat) (c : Copy) :
    Touches [.answers, .ports, .records] s (s.watchBays cell c) := by
  unfold State.watchBays
  try dsimp only
  repeat' first
    | with_reducible exact Touches.refl _ _
    | (apply Touches.after; (with_reducible apply State.watchBay_touches); rfl)
    | (apply Touches.after; (with_reducible apply State.reply_touches); rfl)
    | (with_reducible apply Touches.foldl); intro _ _
    | split

theorem State.flush_touches (s : State) (cell b first count : Nat) :
    Touches [.answers, .staging] s (s.flush cell b first count) := by
  unfold State.flush
  try dsimp only
  repeat' first
    | with_reducible exact Touches.refl _ _
    | (apply Touches.after; (with_reducible apply State.discardResident_touches); rfl)
    | (apply Touches.after; (with_reducible apply State.reply_touches); rfl)
    | split

theorem State.setHold_touches (s : State) (cell : Nat) (mask : BitVec 16) (rearm : Bool) :
    Touches [.answers, .ports, .records, .capture] s (s.setHold cell mask rearm) := by
  unfold State.setHold
  try dsimp only
  repeat' first
    | with_reducible exact Touches.refl _ _
    | (apply Touches.after; (with_reducible apply State.requestSpinUps_touches); rfl)
    | (apply Touches.after; (with_reducible apply State.reply_touches); rfl)
    | split
    | ((with_reducible apply touches_capture); (refine ⟨fun p hp => ?_⟩; cases p <;> first | exact absurd (by decide) hp | (and_intros <;> rfl)))
    | (refine ⟨fun p hp => ?_⟩; cases p <;> first | exact absurd (by decide) hp | (and_intros <;> rfl))

theorem State.clearFault_touches (s : State) (cell : Nat) :
    Touches [.answers, .ports, .records, .capture] s (s.clearFault cell) := by
  unfold State.clearFault
  try dsimp only
  repeat' first
    | with_reducible exact Touches.refl _ _
    | (apply Touches.after; (with_reducible apply State.reply_touches); rfl)
    | (apply Touches.after; (with_reducible apply State.requestSpinUps_touches); rfl)
    | split
    | ((with_reducible apply touches_capture); (refine ⟨fun p hp => ?_⟩; cases p <;> first | exact absurd (by decide) hp | (and_intros <;> rfl)))
    | (refine ⟨fun p hp => ?_⟩; cases p <;> first | exact absurd (by decide) hp | (and_intros <;> rfl))

theorem State.idleTick_touches (s : State) (b : Nat) :
    Touches [.ports, .records] s (s.idleTick b) := by
  unfold State.idleTick
  try dsimp only
  repeat' first
    | with_reducible exact Touches.refl _ _
    | (apply Touches.after; (with_reducible apply State.putBay_touches); rfl)
    | (apply Touches.after; (with_reducible apply State.send_touches); rfl)
    | (apply Touches.after; (with_reducible apply State.setBay_touches); rfl)
    | split

theorem State.periodEnd_touches (s : State) :
    Touches [.ports, .groups, .records, .meters] s (s.periodEnd) := by
  unfold State.periodEnd
  try dsimp only
  repeat' first
    | with_reducible exact Touches.refl _ _
    | (apply Touches.after; (with_reducible apply State.setMeter_touches); rfl)
    | (apply Touches.after; (with_reducible apply State.setGroup_touches); rfl)
    | (apply Touches.after; (with_reducible apply State.requestSpinUps_touches); rfl)
    | (apply Touches.after; (with_reducible apply State.requestMeter_touches); rfl)
    | (with_reducible apply Touches.foldl); intro _ _
    | split
    | ((with_reducible apply touches_meters); (refine ⟨fun p hp => ?_⟩; cases p <;> first | exact absurd (by decide) hp | (and_intros <;> rfl)))
    | (refine ⟨fun p hp => ?_⟩; cases p <;> first | exact absurd (by decide) hp | (and_intros <;> rfl))

theorem State.meterTick_touches (s : State) :
    Touches [.ports, .groups, .records, .clock, .meters] s (s.meterTick) := by
  unfold State.meterTick
  try dsimp only
  repeat' first
    | with_reducible exact Touches.refl _ _
    | (apply Touches.after; (with_reducible apply State.periodEnd_touches); rfl)
    | split
    | ((with_reducible apply touches_clock); (refine ⟨fun p hp => ?_⟩; cases p <;> first | exact absurd (by decide) hp | (and_intros <;> rfl)))
    | (refine ⟨fun p hp => ?_⟩; cases p <;> first | exact absurd (by decide) hp | (and_intros <;> rfl))

theorem State.takeTick_touches (s : State) :
    Touches [.answers, .lapseQueue, .ports, .loans, .groups, .fifos, .staging, .engine, .records, .clock, .meters, .notices]
      s (s.takeTick) := by
  unfold State.takeTick
  try dsimp only
  repeat' first
    | with_reducible exact Touches.refl _ _
    | (apply Touches.after; (with_reducible apply State.idleTick_touches); rfl)
    | (apply Touches.after; (with_reducible apply State.loanTick_touches); rfl)
    | (apply Touches.after; (with_reducible apply State.meterTick_touches); rfl)
    | (apply Touches.after; (with_reducible apply State.beginRecords_touches); rfl)
    | (with_reducible apply Touches.foldl); intro _ _
    | split

theorem State.tick_touches (s : State) :
    Touches [.answers, .lapseQueue, .ports, .loans, .groups, .fifos, .staging, .engine, .records, .clock, .meters, .notices]
      s (s.tick) := by
  unfold State.tick
  try dsimp only
  repeat' first
    | with_reducible exact Touches.refl _ _
    | (apply Touches.after; (with_reducible apply State.takeTick_touches); rfl)
    | split
    | ((with_reducible apply touches_clock); (refine ⟨fun p hp => ?_⟩; cases p <;> first | exact absurd (by decide) hp | (and_intros <;> rfl)))
    | (refine ⟨fun p hp => ?_⟩; cases p <;> first | exact absurd (by decide) hp | (and_intros <;> rfl))

theorem State.returnSlot_touches (s : State) (k : Nat) :
    Touches [.staging] s (s.returnSlot k) := by
  unfold State.returnSlot
  try dsimp only
  repeat' first
    | with_reducible exact Touches.refl _ _
    | (apply Touches.after; (with_reducible apply State.setSlot_touches); rfl)
    | (apply Touches.after; (with_reducible apply State.offerSlot_touches); rfl)
    | split

theorem State.returnSlots_touches (s : State) (b : Nat) :
    Touches [.staging] s (s.returnSlots b) := by
  unfold State.returnSlots
  try dsimp only
  repeat' first
    | with_reducible exact Touches.refl _ _
    | (apply Touches.after; (with_reducible apply State.returnSlot_touches); rfl)
    | (with_reducible apply Touches.foldl); intro _ _
    | split

theorem State.waitForSlot_touches (s : State) (b : Nat) :
    Touches [.staging] s (s.waitForSlot b) := by
  unfold State.waitForSlot
  (repeat' split) <;> (refine ⟨fun p hp => ?_⟩; cases p <;> first | exact absurd (by decide) hp | (and_intros <;> rfl))

theorem State.giveBoth_touches (s : State) (c tag k : Nat) (x : Transfer) :
    Touches [.arbiters, .staging] s (s.giveBoth c tag k x) := by
  unfold State.giveBoth
  try dsimp only
  repeat' first
    | with_reducible exact Touches.refl _ _
    | (apply Touches.after; (with_reducible apply State.setTag_touches); rfl)
    | (apply Touches.after; (with_reducible apply State.giveSlot_touches); rfl)

theorem State.leaveFifo_touches (s : State) (g : Nat) (x : Transfer) (start : Nat) :
    Touches [.ports, .groups, .fifos, .arbiters, .staging, .engine, .records, .meters] s (s.leaveFifo g x start) := by
  unfold State.leaveFifo
  try dsimp only
  repeat' first
    | with_reducible exact Touches.refl _ _
    | (apply Touches.after; (with_reducible apply State.setOrders_touches); rfl)
    | (apply Touches.after; (with_reducible apply State.setArbiter_touches); rfl)
    | (apply Touches.after; (with_reducible apply State.rebase_touches); rfl)
    | (apply Touches.after; (with_reducible apply State.meterDisk_touches); rfl)
    | (apply Touches.after; (with_reducible apply State.applyCap_touches); rfl)
    | (apply Touches.after; (with_reducible apply State.becomeHead_touches); rfl)
    | split

theorem State.beginWork_touches (s : State) (c k : Nat) (x : Transfer) :
    Touches [.staging, .engine, .records] s (s.beginWork c k x) := by
  unfold State.beginWork
  repeat' first
    | with_reducible exact Touches.refl _ _
    | (apply Touches.after; (with_reducible apply State.sendRead_touches); rfl)
    | (apply Touches.after; (with_reducible apply State.startItem_touches); rfl)
    | (apply Touches.after; (with_reducible apply State.snoop_touches); rfl)
    | split

theorem State.dispatchHead_touches (s : State) (g c : Nat) (tags : Tags) (x : Transfer) :
    Touches [.ports, .groups, .fifos, .arbiters, .staging, .engine, .records, .meters] s (s.dispatchHead g c tags x) := by
  unfold State.dispatchHead
  try dsimp only
  repeat' first
    | with_reducible exact Touches.refl _ _
    | (apply Touches.after; (with_reducible apply State.waitForSlot_touches); rfl)
    | (apply Touches.after; (with_reducible apply State.giveBoth_touches); rfl)
    | (apply Touches.after; (with_reducible apply State.leaveFifo_touches); rfl)
    | (apply Touches.after; (with_reducible apply State.beginWork_touches); rfl)
    | split

theorem State.dispatch_touches (s : State) (b : Nat) :
    Touches [.ports, .groups, .fifos, .arbiters, .staging, .engine, .records, .meters] s (s.dispatch b) := by
  unfold State.dispatch
  try dsimp only
  repeat' first
    | with_reducible exact Touches.refl _ _
    | (apply Touches.after; (with_reducible apply State.returnSlots_touches); rfl)
    | (apply Touches.after; (with_reducible apply State.dispatchHead_touches); rfl)
    | split

theorem State.setItems_touches (s : State) (l : List Item) :
    Touches [.engine] s (s.setItems l) := by
  unfold State.setItems
  (repeat' split) <;> (refine ⟨fun p hp => ?_⟩; cases p <;> first | exact absurd (by decide) hp | (and_intros <;> rfl))

theorem State.startChannel_touches (s : State) (ch : Nat) :
    Touches [.engine] s (s.startChannel ch) := by
  unfold State.startChannel
  try dsimp only
  repeat' first
    | with_reducible exact Touches.refl _ _
    | (apply Touches.after; (with_reducible apply State.setItems_touches); rfl)
    | split

theorem State.endItem_touches (s : State) (ch : Nat) :
    Touches [.engine] s (s.endItem ch) := by
  unfold State.endItem
  try dsimp only
  repeat' first
    | with_reducible exact Touches.refl _ _
    | (apply Touches.after; (with_reducible apply State.setItems_touches); rfl)
    | split

theorem State.answerDelivery_touches (s : State) (it : Item) (r : DeliveryResult) :
    Touches [.answers] s (s.answerDelivery it r) := by
  unfold State.answerDelivery
  try dsimp only
  repeat' first
    | with_reducible exact Touches.refl _ _
    | (apply Touches.after; (with_reducible apply State.answerWith_touches); rfl)
    | split

theorem State.lowerDeliveries_touches (s : State) (k : Nat) :
    Touches [.staging] s (s.lowerDeliveries k) := by
  unfold State.lowerDeliveries
  try dsimp only
  repeat' first
    | with_reducible exact Touches.refl _ _
    | (apply Touches.after; (with_reducible apply State.freeSlot_touches); rfl)
    | (apply Touches.after; (with_reducible apply State.setSlot_touches); rfl)
    | split

theorem State.deliveryEnd_touches (s : State) (ch : Nat) (r : DeliveryResult) :
    Touches [.answers, .staging, .engine, .hostMem] s (s.deliveryEnd ch r) := by
  unfold State.deliveryEnd
  try dsimp only
  repeat' first
    | with_reducible exact Touches.refl _ _
    | (apply Touches.after; (with_reducible apply State.deliverBytes_touches); rfl)
    | (apply Touches.after; (with_reducible apply State.endItem_touches); rfl)
    | (apply Touches.after; (with_reducible apply State.answerDelivery_touches); rfl)
    | (apply Touches.after; (with_reducible apply State.lowerDeliveries_touches); rfl)
    | (apply Touches.after; (with_reducible apply State.offerSlot_touches); rfl)
    | split

theorem State.sendWrite_touches (s : State) (k : Nat) :
    Touches [.records] s (s.sendWrite k) := by
  unfold State.sendWrite
  try dsimp only
  repeat' first
    | with_reducible exact Touches.refl _ _
    | (apply Touches.after; (with_reducible apply State.send_touches); rfl)
    | split

theorem State.toDisk_touches (s : State) (k : Nat) (data : Option Nat) :
    Touches [.staging] s (s.toDisk k data) := by
  unfold State.toDisk
  try dsimp only
  repeat' first
    | with_reducible exact Touches.refl _ _
    | (apply Touches.after; (with_reducible apply State.setSlot_touches); rfl)
    | split

theorem State.workEnded_touches (s : State) (b : Nat) :
    Touches [.ports, .records] s (s.workEnded b) := by
  unfold State.workEnded
  try dsimp only
  repeat' first
    | with_reducible exact Touches.refl _ _
    | (apply Touches.after; (with_reducible apply State.requestSpinUp_touches); rfl)
    | (apply Touches.after; (with_reducible apply State.completionTest_touches); rfl)
    | (apply Touches.after; (with_reducible apply State.beginRecords_touches); rfl)
    | split

theorem State.endDoomed_touches (s : State) (k c : Nat) (cause : Cause) :
    Touches [.answers, .staging, .records] s (s.endDoomed k c cause) := by
  unfold State.endDoomed
  try dsimp only
  repeat' first
    | with_reducible exact Touches.refl _ _
    | (apply Touches.after; (with_reducible apply State.reply_touches); rfl)
    | (apply Touches.after; (with_reducible apply State.endDrain_touches); rfl)
    | split

theorem State.fetchServed_touches (s : State) (k c : Nat) (r : FetchResult) :
    Touches [.answers, .arbiters, .staging, .records, .capture] s (s.fetchServed k c r) := by
  unfold State.fetchServed
  try dsimp only
  repeat' first
    | with_reducible exact Touches.refl _ _
    | (apply Touches.after; (with_reducible apply State.endDoomed_touches); rfl)
    | (apply Touches.after; (with_reducible apply State.toDisk_touches); rfl)
    | (apply Touches.after; (with_reducible apply State.sendWrite_touches); rfl)
    | (apply Touches.after; (with_reducible apply State.reply_touches); rfl)
    | (apply Touches.after; (with_reducible apply State.releaseTag_touches); rfl)
    | (apply Touches.after; (with_reducible apply State.endDrain_touches); rfl)
    | (apply Touches.after; (with_reducible apply State.spoilSlot_touches); rfl)
    | (apply Touches.after; (with_reducible apply State.unblock_touches); rfl)
    | (apply Touches.after; (with_reducible apply State.offer_touches); rfl)
    | split

theorem State.releaseHalted_touches (s : State) (b c : Nat) :
    Touches [.arbiters] s (s.releaseHalted b c) := by
  unfold State.releaseHalted
  try dsimp only
  repeat' first
    | with_reducible exact Touches.refl _ _
    | (apply Touches.after; (with_reducible apply State.releaseTag_touches); rfl)
    | split

theorem State.fetchUnserved_touches (s : State) (k c : Nat) (r : FetchResult) :
    Touches [.arbiters, .staging, .capture] s (s.fetchUnserved k c r) := by
  unfold State.fetchUnserved
  try dsimp only
  repeat' first
    | with_reducible exact Touches.refl _ _
    | (apply Touches.after; (with_reducible apply State.toDisk_touches); rfl)
    | (apply Touches.after; (with_reducible apply State.spoilSlot_touches); rfl)
    | (apply Touches.after; (with_reducible apply State.offer_touches); rfl)
    | (apply Touches.after; (with_reducible apply State.releaseHalted_touches); rfl)
    | split

theorem State.fetchEnd_touches (s : State) (ch : Nat) (r : FetchResult) :
    Touches [.answers, .ports, .arbiters, .staging, .engine, .records, .capture] s (s.fetchEnd ch r) := by
  unfold State.fetchEnd
  try dsimp only
  repeat' first
    | with_reducible exact Touches.refl _ _
    | (apply Touches.after; (with_reducible apply State.endItem_touches); rfl)
    | (apply Touches.after; (with_reducible apply State.fetchServed_touches); rfl)
    | (apply Touches.after; (with_reducible apply State.workEnded_touches); rfl)
    | (apply Touches.after; (with_reducible apply State.fetchUnserved_touches); rfl)
    | split

theorem State.leaveCopied_touches (s : State) (copied : List Nat) (it : Item) :
    Touches [.hostMem] s (s.leaveCopied copied it) := by
  unfold State.leaveCopied
  try dsimp only
  repeat' first
    | with_reducible exact Touches.refl _ _
    | (apply Touches.after; (with_reducible apply State.deliverBytes_touches); rfl)
    | split

theorem State.answerSpoiled_touches (s : State) (copied : List Nat) (it : Item) :
    Touches [.answers] s (s.answerSpoiled copied it) := by
  unfold State.answerSpoiled
  try dsimp only
  repeat' first
    | with_reducible exact Touches.refl _ _
    | (apply Touches.after; (with_reducible apply State.answerWith_touches); rfl)
    | split

theorem State.spoiled_touches (s : State) (k : Nat) (copied : List Nat) :
    Touches [.answers, .ports, .staging, .engine, .capture, .hostMem] s (s.spoiled k copied) := by
  unfold State.spoiled
  try dsimp only
  repeat' first
    | with_reducible exact Touches.refl _ _
    | (apply Touches.after; (with_reducible apply State.leaveCopied_touches); rfl)
    | (apply Touches.after; (with_reducible apply State.answerSpoiled_touches); rfl)
    | (apply Touches.after; (with_reducible apply State.setItems_touches); rfl)
    | (apply Touches.after; (with_reducible apply State.spoilSlot_touches); rfl)
    | (apply Touches.after; (with_reducible apply State.offer_touches); rfl)
    | (apply Touches.after; (with_reducible apply State.beginRecords_touches); rfl)
    | (with_reducible apply Touches.foldl); intro _ _
    | split

theorem State.stagingErrorOn_touches (s : State) (ch : Nat) (copied : List Nat) :
    Touches [.answers, .ports, .staging, .engine, .capture, .hostMem] s (s.stagingErrorOn ch copied) := by
  unfold State.stagingErrorOn
  try dsimp only
  repeat' first
    | with_reducible exact Touches.refl _ _
    | (apply Touches.after; (with_reducible apply State.spoiled_touches); rfl)
    | split

theorem State.endCommand_touches (s : State) (b : Nat) (tag : Option (Fin 4)) (number : Nat) :
    Touches [.records] s (s.endCommand b tag number) := by
  unfold State.endCommand
  try dsimp only
  repeat' first
    | with_reducible exact Touches.refl _ _
    | (apply Touches.after; (with_reducible apply State.setBay_touches); rfl)
    | split

theorem State.discardReport_touches (s : State) (b t : Nat) :
    Touches [.arbiters] s (s.discardReport b t) := by
  unfold State.discardReport
  try dsimp only
  repeat' first
    | with_reducible exact Touches.refl _ _
    | (apply Touches.after; (with_reducible apply State.setTag_touches); rfl)
    | split

theorem State.deliverJoiner_touches (s : State) (k c : Nat) :
    Touches [.engine, .meters] s (s.deliverJoiner k c) := by
  unfold State.deliverJoiner
  try dsimp only
  repeat' first
    | with_reducible exact Touches.refl _ _
    | (apply Touches.after; (with_reducible apply State.startItem_touches); rfl)
    | (apply Touches.after; (with_reducible apply State.meterStaged_touches); rfl)
    | split

theorem State.fillGood_touches (s : State) (k b t data : Nat) :
    Touches [.arbiters, .staging, .engine, .meters] s (s.fillGood k b t data) := by
  unfold State.fillGood
  try dsimp only
  repeat' first
    | with_reducible exact Touches.refl _ _
    | (apply Touches.after; (with_reducible apply State.setSlot_touches); rfl)
    | (apply Touches.after; (with_reducible apply State.touch_touches); rfl)
    | (apply Touches.after; (with_reducible apply State.startItem_touches); rfl)
    | (apply Touches.after; (with_reducible apply State.deliverJoiner_touches); rfl)
    | (apply Touches.after; (with_reducible apply State.setTag_touches); rfl)
    | (with_reducible apply Touches.foldl); intro _ _
    | split

theorem State.fillFails_touches (s : State) (k b t : Nat) (r : Result) (detail : Nat) :
    Touches [.answers, .arbiters, .staging] s (s.fillFails k b t r detail) := by
  unfold State.fillFails
  try dsimp only
  repeat' first
    | with_reducible exact Touches.refl _ _
    | (apply Touches.after; (with_reducible apply State.replyAll_touches); rfl)
    | (apply Touches.after; (with_reducible apply State.freeSlot_touches); rfl)
    | (apply Touches.after; (with_reducible apply State.setTag_touches); rfl)
    | (apply Touches.after; (with_reducible apply State.offerSlot_touches); rfl)
    | split

theorem State.fillAgain_touches (s : State) (k : Nat) :
    Touches [.staging, .records] s (s.fillAgain k) := by
  unfold State.fillAgain
  try dsimp only
  repeat' first
    | with_reducible exact Touches.refl _ _
    | (apply Touches.after; (with_reducible apply State.setSlot_touches); rfl)
    | (apply Touches.after; (with_reducible apply State.reissue_touches); rfl)
    | split

theorem State.fillEnds_touches (s : State) (k b t data : Nat) :
    Touches [.answers, .arbiters, .staging, .engine, .records, .meters] s (s.fillEnds k b t data) := by
  unfold State.fillEnds
  try dsimp only
  repeat' first
    | with_reducible exact Touches.refl _ _
    | (apply Touches.after; (with_reducible apply State.fillFails_touches); rfl)
    | (apply Touches.after; (with_reducible apply State.fillAgain_touches); rfl)
    | (apply Touches.after; (with_reducible apply State.fillGood_touches); rfl)
    | split

theorem State.diskReadEnd_touches (s : State) (b : Nat) (tag : Fin 4) (number data : Nat) :
    Touches [.answers, .ports, .arbiters, .staging, .engine, .records, .meters] s (s.diskReadEnd b tag number data) := by
  unfold State.diskReadEnd
  try dsimp only
  repeat' first
    | with_reducible exact Touches.refl _ _
    | (apply Touches.after; (with_reducible apply State.endCommand_touches); rfl)
    | (apply Touches.after; (with_reducible apply State.fillEnds_touches); rfl)
    | (apply Touches.after; (with_reducible apply State.workEnded_touches); rfl)
    | (apply Touches.after; (with_reducible apply State.discardReport_touches); rfl)
    | split

theorem State.answerWrite_touches (s : State) (c : Nat) :
    Touches [.answers] s (s.answerWrite c) := by
  unfold State.answerWrite
  try dsimp only
  repeat' first
    | with_reducible exact Touches.refl _ _
    | (apply Touches.after; (with_reducible apply State.answerWith_touches); rfl)
    | split

theorem State.drainGood_touches (s : State) (k b t : Nat) :
    Touches [.answers, .arbiters, .staging, .records] s (s.drainGood k b t) := by
  unfold State.drainGood
  try dsimp only
  repeat' first
    | with_reducible exact Touches.refl _ _
    | (apply Touches.after; (with_reducible apply State.setSlot_touches); rfl)
    | (apply Touches.after; (with_reducible apply State.touch_touches); rfl)
    | (apply Touches.after; (with_reducible apply State.setTag_touches); rfl)
    | (apply Touches.after; (with_reducible apply State.answerWrite_touches); rfl)
    | (apply Touches.after; (with_reducible apply State.unblock_touches); rfl)
    | (apply Touches.after; (with_reducible apply State.offerSlot_touches); rfl)
    | split

theorem State.diskWriteEnd_touches (s : State) (b : Nat) (tag : Fin 4) (number : Nat) :
    Touches [.answers, .ports, .arbiters, .staging, .records] s (s.diskWriteEnd b tag number) := by
  unfold State.diskWriteEnd
  try dsimp only
  repeat' first
    | with_reducible exact Touches.refl _ _
    | (apply Touches.after; (with_reducible apply State.endCommand_touches); rfl)
    | (apply Touches.after; (with_reducible apply State.drainGood_touches); rfl)
    | (apply Touches.after; (with_reducible apply State.workEnded_touches); rfl)
    | (apply Touches.after; (with_reducible apply State.discardReport_touches); rfl)
    | split

theorem State.resend_touches (s : State) (b : Nat) (c : Command) :
    Touches [.arbiters, .records] s (s.resend b c) := by
  unfold State.resend
  try dsimp only
  repeat' first
    | with_reducible exact Touches.refl _ _
    | (apply Touches.after; (with_reducible apply State.releaseEnded_touches); rfl)
    | (apply Touches.after; (with_reducible apply State.send_touches); rfl)
    | split

theorem State.linkFails_touches (s : State) (b : Nat) (c : Command) :
    Touches [.answers, .lapseQueue, .ports, .loans, .fifos, .arbiters, .staging, .records, .capture, .notices]
      s (s.linkFails b c) := by
  unfold State.linkFails
  try dsimp only
  repeat' first
    | with_reducible exact Touches.refl _ _
    | (apply Touches.after; (with_reducible apply State.bayFault_touches); rfl)
    | (apply Touches.after; (with_reducible apply State.operationFails_touches); rfl)
    | split

theorem State.linkError_touches (s : State) (b : Nat) (tag : Option (Fin 4)) (number : Nat) :
    Touches [.answers, .lapseQueue, .ports, .loans, .fifos, .arbiters, .staging, .records, .capture, .notices]
      s (s.linkError b tag number) := by
  unfold State.linkError
  try dsimp only
  repeat' first
    | with_reducible exact Touches.refl _ _
    | (apply Touches.after; (with_reducible apply State.endCommand_touches); rfl)
    | (apply Touches.after; (with_reducible apply State.resend_touches); rfl)
    | (apply Touches.after; (with_reducible apply State.linkFails_touches); rfl)
    | (apply Touches.after; (with_reducible apply State.beginRecords_touches); rfl)
    | split

theorem State.countMediaError_touches (s : State) (b : Nat) :
    Touches [.ports, .records] s (s.countMediaError b) := by
  unfold State.countMediaError
  try dsimp only
  repeat' first
    | with_reducible exact Touches.refl _ _
    | (apply Touches.after; (with_reducible apply State.putBay_touches); rfl)
    | split

theorem State.answerMediaWrite_touches (s : State) (c firstBad : Nat) :
    Touches [.answers] s (s.answerMediaWrite c firstBad) := by
  unfold State.answerMediaWrite
  try dsimp only
  repeat' first
    | with_reducible exact Touches.refl _ _
    | (apply Touches.after; (with_reducible apply State.answerWith_touches); rfl)
    | split

theorem State.drainFails_touches (s : State) (k b t firstBad : Nat) :
    Touches [.answers, .arbiters, .staging, .records] s (s.drainFails k b t firstBad) := by
  unfold State.drainFails
  try dsimp only
  repeat' first
    | with_reducible exact Touches.refl _ _
    | (apply Touches.after; (with_reducible apply State.answerMediaWrite_touches); rfl)
    | (apply Touches.after; (with_reducible apply State.setTag_touches); rfl)
    | (apply Touches.after; (with_reducible apply State.endDrain_touches); rfl)
    | split

theorem State.mediaOn_touches (s : State) (b : Nat) (tag : Fin 4) (number : Nat) (k : CommandKind) (firstBad : Nat) :
    Touches [.answers, .ports, .arbiters, .staging, .records] s (s.mediaOn b tag number k firstBad) := by
  unfold State.mediaOn
  try dsimp only
  repeat' first
    | with_reducible exact Touches.refl _ _
    | (apply Touches.after; (with_reducible apply State.endCommand_touches); rfl)
    | (apply Touches.after; (with_reducible apply State.countMediaError_touches); rfl)
    | (apply Touches.after; (with_reducible apply State.beginRecords_touches); rfl)
    | (apply Touches.after; (with_reducible apply State.fillFails_touches); rfl)
    | (apply Touches.after; (with_reducible apply State.drainFails_touches); rfl)
    | (apply Touches.after; (with_reducible apply State.workEnded_touches); rfl)
    | split

theorem State.mediaError_touches (s : State) (b : Nat) (tag : Option (Fin 4)) (number firstBad : Nat) :
    Touches [.answers, .lapseQueue, .ports, .loans, .fifos, .arbiters, .staging, .records, .capture, .notices]
      s (s.mediaError b tag number firstBad) := by
  unfold State.mediaError
  try dsimp only
  repeat' first
    | with_reducible exact Touches.refl _ _
    | (apply Touches.after; (with_reducible apply State.mediaOn_touches); rfl)
    | (apply Touches.after; (with_reducible apply State.endCommand_touches); rfl)
    | (apply Touches.after; (with_reducible apply State.discardReport_touches); rfl)
    | (apply Touches.after; (with_reducible apply State.linkError_touches); rfl)
    | split

theorem State.cmdTimeout_touches (s : State) (b : Nat) (tag : Option (Fin 4)) (number : Nat) :
    Touches [.answers, .lapseQueue, .ports, .loans, .fifos, .arbiters, .staging, .records, .capture, .notices]
      s (s.cmdTimeout b tag number) := by
  unfold State.cmdTimeout
  try dsimp only
  repeat' first
    | with_reducible exact Touches.refl _ _
    | (apply Touches.after; (with_reducible apply State.bayFault_touches); rfl)
    | (apply Touches.after; (with_reducible apply State.beginRecords_touches); rfl)
    | split

theorem State.spunDown_touches (s : State) (b : Nat) :
    Touches [.ports, .staging, .records] s (s.spunDown b) := by
  unfold State.spunDown
  try dsimp only
  repeat' first
    | with_reducible exact Touches.refl _ _
    | (apply Touches.after; (with_reducible apply State.putBay_touches); rfl)
    | (apply Touches.after; (with_reducible apply State.setBay_touches); rfl)
    | (apply Touches.after; (with_reducible apply State.startSpinUp_touches); rfl)
    | (apply Touches.after; (with_reducible apply State.retireSpunDown_touches); rfl)
    | split

theorem State.standbyEnd_touches (s : State) (b number : Nat) :
    Touches [.ports, .staging, .records] s (s.standbyEnd b number) := by
  unfold State.standbyEnd
  try dsimp only
  repeat' first
    | with_reducible exact Touches.refl _ _
    | (apply Touches.after; (with_reducible apply State.endCommand_touches); rfl)
    | (apply Touches.after; (with_reducible apply State.spunDown_touches); rfl)
    | (apply Touches.after; (with_reducible apply State.beginRecords_touches); rfl)
    | (apply Touches.after; (with_reducible apply State.retired_touches); rfl)
    | split

theorem State.spunUp_touches (s : State) (b : Nat) :
    Touches [.ports, .records] s (s.spunUp b) := by
  unfold State.spunUp
  try dsimp only
  repeat' first
    | with_reducible exact Touches.refl _ _
    | (apply Touches.after; (with_reducible apply State.putBay_touches); rfl)
    | (apply Touches.after; (with_reducible apply State.completionTest_touches); rfl)
    | split

theorem State.startDone_touches (s : State) (b : Nat) :
    Touches [.ports, .records] s (s.startDone b) := by
  unfold State.startDone
  try dsimp only
  repeat' first
    | with_reducible exact Touches.refl _ _
    | (apply Touches.after; (with_reducible apply State.send_touches); rfl)
    | (apply Touches.after; (with_reducible apply State.spunUp_touches); rfl)
    | split

theorem State.startEnd_touches (s : State) (b number : Nat) :
    Touches [.ports, .records] s (s.startEnd b number) := by
  unfold State.startEnd
  try dsimp only
  repeat' first
    | with_reducible exact Touches.refl _ _
    | (apply Touches.after; (with_reducible apply State.endCommand_touches); rfl)
    | (apply Touches.after; (with_reducible apply State.startDone_touches); rfl)
    | (apply Touches.after; (with_reducible apply State.beginRecords_touches); rfl)
    | split

theorem State.resetShares_touches (s : State) (b : Nat) :
    Touches [.fifos, .arbiters] s (s.resetShares b) := by
  unfold State.resetShares
  try dsimp only
  repeat' first
    | with_reducible exact Touches.refl _ _
    | (apply Touches.after; (with_reducible apply State.setFifo_touches); rfl)
    | (apply Touches.after; (with_reducible apply State.setArbiter_touches); rfl)
    | (with_reducible apply Touches.foldl); intro _ _
    | split

theorem State.admitted_touches (s : State) (b capacity : Nat) :
    Touches [.answers, .ports, .fifos, .arbiters, .staging, .records] s (s.admitted b capacity) := by
  unfold State.admitted
  try dsimp only
  repeat' first
    | with_reducible exact Touches.refl _ _
    | (apply Touches.after; (with_reducible apply State.putBay_touches); rfl)
    | (apply Touches.after; (with_reducible apply State.discardBay_touches); rfl)
    | (apply Touches.after; (with_reducible apply State.resetShares_touches); rfl)
    | (apply Touches.after; (with_reducible apply State.answerAdmit_touches); rfl)
    | split

theorem State.identifyEnd_touches (s : State) (b number : Nat) (size : BitVec 64) :
    Touches [.answers, .lapseQueue, .ports, .loans, .fifos, .arbiters, .staging, .records, .capture, .notices]
      s (s.identifyEnd b number size) := by
  unfold State.identifyEnd
  try dsimp only
  repeat' first
    | with_reducible exact Touches.refl _ _
    | (apply Touches.after; (with_reducible apply State.endCommand_touches); rfl)
    | (apply Touches.after; (with_reducible apply State.operationFails_touches); rfl)
    | (apply Touches.after; (with_reducible apply State.admitted_touches); rfl)
    | (apply Touches.after; (with_reducible apply State.beginRecords_touches); rfl)
    | split

theorem State.clearReadyLow_touches (s : State) (b : Nat) :
    Touches [.records] s (s.clearReadyLow b) := by
  unfold State.clearReadyLow
  try dsimp only
  repeat' first
    | with_reducible exact Touches.refl _ _
    | (apply Touches.after; (with_reducible apply State.setBay_touches); rfl)
    | split

theorem State.setReady_touches (s : State) (b : Nat) (level : Bool) :
    Touches [.lines] s (s.setReady b level) := by
  unfold State.setReady
  try dsimp only
  repeat' first
    | with_reducible exact Touches.refl _ _
    | (apply Touches.after; (with_reducible apply State.setLines_touches); rfl)
    | split

theorem State.sendAll_touches (s : State) (b : Nat) :
    Touches [.records] s (s.sendAll b) := by
  unfold State.sendAll
  try dsimp only
  repeat' first
    | with_reducible exact Touches.refl _ _
    | (apply Touches.after; (with_reducible apply State.send_touches); rfl)
    | (apply Touches.after; (with_reducible apply State.setBay_touches); rfl)
    | (with_reducible apply Touches.foldl); intro _ _
    | split

theorem State.readyRise_touches (s : State) (b : Nat) :
    Touches [.ports, .records, .lines] s (s.readyRise b) := by
  unfold State.readyRise
  try dsimp only
  repeat' first
    | with_reducible exact Touches.refl _ _
    | (apply Touches.after; (with_reducible apply State.setReady_touches); rfl)
    | (apply Touches.after; (with_reducible apply State.clearReadyLow_touches); rfl)
    | (apply Touches.after; (with_reducible apply State.sendAll_touches); rfl)
    | (apply Touches.after; (with_reducible apply State.startDone_touches); rfl)
    | (apply Touches.after; (with_reducible apply State.beginRecords_touches); rfl)
    | split

theorem State.readyFall_touches (s : State) (b : Nat) :
    Touches [.records, .lines] s (s.readyFall b) := by
  unfold State.readyFall
  try dsimp only
  repeat' first
    | with_reducible exact Touches.refl _ _
    | (apply Touches.after; (with_reducible apply State.setReady_touches); rfl)
    | (apply Touches.after; (with_reducible apply State.clearReadyLow_touches); rfl)
    | split

theorem State.readyLost_touches (s : State) (b : Nat) :
    Touches [.answers, .lapseQueue, .ports, .loans, .fifos, .arbiters, .staging, .records, .capture, .notices]
      s (s.readyLost b) := by
  unfold State.readyLost
  try dsimp only
  repeat' first
    | with_reducible exact Touches.refl _ _
    | (apply Touches.after; (with_reducible apply State.bayFault_touches); rfl)
    | (apply Touches.after; (with_reducible apply State.beginRecords_touches); rfl)
    | split

theorem State.setPresence_touches (s : State) (b : Nat) (level : Bool) :
    Touches [.lines] s (s.setPresence b level) := by
  unfold State.setPresence
  try dsimp only
  repeat' first
    | with_reducible exact Touches.refl _ _
    | (apply Touches.after; (with_reducible apply State.setLines_touches); rfl)
    | split

theorem State.inserted_touches (s : State) (b : Nat) :
    Touches [.ports, .records] s (s.inserted b) := by
  unfold State.inserted
  try dsimp only
  repeat' first
    | with_reducible exact Touches.refl _ _
    | (apply Touches.after; (with_reducible apply State.putBay_touches); rfl)
    | split

theorem State.presenceRise_touches (s : State) (b : Nat) :
    Touches [.ports, .records, .lines, .notices] s (s.presenceRise b) := by
  unfold State.presenceRise
  try dsimp only
  repeat' first
    | with_reducible exact Touches.refl _ _
    | (apply Touches.after; (with_reducible apply State.setPresence_touches); rfl)
    | (apply Touches.after; (with_reducible apply State.capturePresence_touches); rfl)
    | (apply Touches.after; (with_reducible apply State.inserted_touches); rfl)
    | (apply Touches.after; (with_reducible apply State.beginRecords_touches); rfl)
    | split

theorem State.removed_touches (s : State) (b : Nat) :
    Touches [.answers, .lapseQueue, .ports, .loans, .fifos, .arbiters, .staging, .records, .capture, .notices]
      s (s.removed b) := by
  unfold State.removed
  try dsimp only
  repeat' first
    | with_reducible exact Touches.refl _ _
    | (apply Touches.after; (with_reducible apply State.bayFault_touches); rfl)
    | (apply Touches.after; (with_reducible apply State.putBay_touches); rfl)
    | (apply Touches.after; (with_reducible apply State.answerAdmit_touches); rfl)
    | (apply Touches.after; (with_reducible apply State.discardBay_touches); rfl)
    | split

theorem State.presenceFall_touches (s : State) (b : Nat) :
    Touches [.answers, .lapseQueue, .ports, .loans, .fifos, .arbiters, .staging, .records, .lines, .capture, .notices]
      s (s.presenceFall b) := by
  unfold State.presenceFall
  try dsimp only
  repeat' first
    | with_reducible exact Touches.refl _ _
    | (apply Touches.after; (with_reducible apply State.setPresence_touches); rfl)
    | (apply Touches.after; (with_reducible apply State.capturePresence_touches); rfl)
    | (apply Touches.after; (with_reducible apply State.removed_touches); rfl)
    | (apply Touches.after; (with_reducible apply State.beginRecords_touches); rfl)
    | split

theorem State.pokeAnswer_touches (s : State) (a : Answer) :
    Touches [.hostMem] s (s.pokeAnswer a) := by
  unfold State.pokeAnswer
  try dsimp only
  repeat' first
    | with_reducible exact Touches.refl _ _
    | (apply Touches.after; (with_reducible apply State.poke_touches); rfl)
    | split

theorem State.pokeHand_touches (s : State) (c : Nat) :
    Touches [.hostMem] s (s.pokeHand c) := by
  unfold State.pokeHand
  try dsimp only
  repeat' first
    | with_reducible exact Touches.refl _ _
    | (apply Touches.after; (with_reducible apply State.poke_touches); rfl)
    | split

theorem State.nextAnswer_touches (s : State) (rest : List AnswerWrite) :
    Touches [.answers] s (s.nextAnswer rest) := by
  unfold State.nextAnswer
  (repeat' split) <;> (refine ⟨fun p hp => ?_⟩; cases p <;> first | exact absurd (by decide) hp | (and_intros <;> rfl))

theorem State.idleAnswers_touches (s : State) :
    Touches [.answers] s (s.idleAnswers) := by
  unfold State.idleAnswers
  (repeat' split) <;> (refine ⟨fun p hp => ?_⟩; cases p <;> first | exact absurd (by decide) hp | (and_intros <;> rfl))

theorem State.reportAnswer_touches (s : State) (a : Answer) (t : Option Transfer) :
    Touches [.answers, .lapseQueue, .loans, .records, .meters, .notices] s (s.reportAnswer a t) := by
  unfold State.reportAnswer
  try dsimp only
  repeat' first
    | with_reducible exact Touches.refl _ _
    | (apply Touches.after; (with_reducible apply State.meterAnswered_touches); rfl)
    | (apply Touches.after; (with_reducible apply State.transferEnded_touches); rfl)
    | split

theorem State.finishAnswer_touches (s : State) (a : Answer) (rest : List AnswerWrite) :
    Touches [.part, .held, .answers, .answerQueue, .lapseQueue, .loans, .records, .meters, .notices]
      s (s.finishAnswer a rest) := by
  unfold State.finishAnswer
  try dsimp only
  repeat' first
    | with_reducible exact Touches.refl _ _
    | (apply Touches.after; (with_reducible apply State.nextAnswer_touches); rfl)
    | (apply Touches.after; (with_reducible apply State.growAnswers_touches); rfl)
    | (apply Touches.after; (with_reducible apply State.unhold_touches); rfl)
    | (apply Touches.after; (with_reducible apply State.reportAnswer_touches); rfl)
    | (apply Touches.after; (with_reducible apply State.tryStop_touches); rfl)
    | split

theorem State.answerWritten_touches (s : State) :
    Touches [.part, .held, .answers, .answerQueue, .lapseQueue, .ports, .loans, .records, .meters, .notices, .hostMem]
      s (s.answerWritten) := by
  unfold State.answerWritten
  try dsimp only
  repeat' first
    | with_reducible exact Touches.refl _ _
    | (apply Touches.after; (with_reducible apply State.pokeAnswer_touches); rfl)
    | (apply Touches.after; (with_reducible apply State.pokeHand_touches); rfl)
    | (apply Touches.after; (with_reducible apply State.finishAnswer_touches); rfl)
    | (apply Touches.after; (with_reducible apply State.beginRecords_touches); rfl)
    | (apply Touches.after; (with_reducible apply State.idleAnswers_touches); rfl)
    | split

theorem State.interimWritten_touches (s : State) :
    Touches [.part, .answers, .hostMem] s (s.interimWritten) := by
  unfold State.interimWritten
  try dsimp only
  repeat' first
    | with_reducible exact Touches.refl _ _
    | (apply Touches.after; (with_reducible apply State.poke_touches); rfl)
    | (apply Touches.after; (with_reducible apply State.nextAnswer_touches); rfl)
    | (apply Touches.after; (with_reducible apply State.tryStop_touches); rfl)
    | (apply Touches.after; (with_reducible apply State.idleAnswers_touches); rfl)
    | split

theorem State.faultNotice_touches (s : State) :
    Touches [.notices] s (s.faultNotice) := by
  unfold State.faultNotice
  try dsimp only
  repeat' first
    | with_reducible exact Touches.refl _ _
    | (apply Touches.after; (with_reducible apply State.noticeFault_touches); rfl)
    | split

theorem State.rearmed_touches (s : State) :
    Touches [.ports, .records] s (s.rearmed) := by
  unfold State.rearmed
  try dsimp only
  repeat' first
    | with_reducible exact Touches.refl _ _
    | (apply Touches.after; (with_reducible apply State.requestSpinUps_touches); rfl)
    | split

theorem State.faultRecordWritten_touches (s : State) :
    Touches [.ports, .records, .capture, .notices, .hostMem] s (s.faultRecordWritten) := by
  unfold State.faultRecordWritten
  try dsimp only
  repeat' first
    | with_reducible exact Touches.refl _ _
    | (apply Touches.after; (with_reducible apply State.pokeParts_touches); rfl)
    | (apply Touches.after; (with_reducible apply State.faultNotice_touches); rfl)
    | (apply Touches.after; (with_reducible apply State.rearmed_touches); rfl)
    | (apply Touches.after; (with_reducible apply State.beginRecords_touches); rfl)
    | split
    | ((with_reducible apply touches_capture); (refine ⟨fun p hp => ?_⟩; cases p <;> first | exact absurd (by decide) hp | (and_intros <;> rfl)))
    | (refine ⟨fun p hp => ?_⟩; cases p <;> first | exact absurd (by decide) hp | (and_intros <;> rfl))

theorem State.meterNotice_touches (s : State) :
    Touches [.notices] s (s.meterNotice) := by
  unfold State.meterNotice
  try dsimp only
  repeat' first
    | with_reducible exact Touches.refl _ _
    | (apply Touches.after; (with_reducible apply State.noticeMeter_touches); rfl)
    | split

theorem State.endMeterWrite_touches (s : State) :
    Touches [.ports] s (s.endMeterWrite) := by
  unfold State.endMeterWrite
  (repeat' split) <;> (refine ⟨fun p hp => ?_⟩; cases p <;> first | exact absurd (by decide) hp | (and_intros <;> rfl))

theorem State.endSummaryWrite_touches (s : State) :
    Touches [.ports] s (s.endSummaryWrite) := by
  unfold State.endSummaryWrite
  (repeat' split) <;> (refine ⟨fun p hp => ?_⟩; cases p <;> first | exact absurd (by decide) hp | (and_intros <;> rfl))

theorem State.meterBlockWritten_touches (s : State) :
    Touches [.ports, .notices, .hostMem] s (s.meterBlockWritten) := by
  unfold State.meterBlockWritten
  try dsimp only
  repeat' first
    | with_reducible exact Touches.refl _ _
    | (apply Touches.after; (with_reducible apply State.pokeParts_touches); rfl)
    | (apply Touches.after; (with_reducible apply State.endMeterWrite_touches); rfl)
    | (apply Touches.after; (with_reducible apply State.meterNotice_touches); rfl)
    | (apply Touches.after; (with_reducible apply State.beginRecords_touches); rfl)
    | split

theorem State.baySummaryWritten_touches (s : State) :
    Touches [.ports, .hostMem] s (s.baySummaryWritten) := by
  unfold State.baySummaryWritten
  try dsimp only
  repeat' first
    | with_reducible exact Touches.refl _ _
    | (apply Touches.after; (with_reducible apply State.pokeParts_touches); rfl)
    | (apply Touches.after; (with_reducible apply State.endSummaryWrite_touches); rfl)
    | (apply Touches.after; (with_reducible apply State.beginRecords_touches); rfl)
    | split

theorem State.visitFails_touches (s : State) :
    Touches [.part, .intake, .arbiters, .records] s (s.visitFails) := by
  unfold State.visitFails
  try dsimp only
  repeat' first
    | with_reducible exact Touches.refl _ _
    | (apply Touches.after; (with_reducible apply State.setSweep_touches); rfl)
    | (apply Touches.after; (with_reducible apply State.areaError_touches); rfl)
    | split

theorem State.takeReadFails_touches (s : State) :
    Touches [.part, .intake, .arbiters, .records] s (s.takeReadFails) := by
  unfold State.takeReadFails
  try dsimp only
  repeat' first
    | with_reducible exact Touches.refl _ _
    | (apply Touches.after; (with_reducible apply State.setTake_touches); rfl)
    | (apply Touches.after; (with_reducible apply State.areaError_touches); rfl)
    | split

theorem State.takenWriteFails_touches (s : State) :
    Touches [.part, .intake, .answerQueue, .arbiters, .records, .notices, .hostMem] s (s.takenWriteFails) := by
  unfold State.takenWriteFails
  try dsimp only
  repeat' first
    | with_reducible exact Touches.refl _ _
    | (apply Touches.after; (with_reducible apply State.setTake_touches); rfl)
    | (apply Touches.after; (with_reducible apply State.markTaken_touches); rfl)
    | (apply Touches.after; (with_reducible apply State.areaError_touches); rfl)
    | split

theorem State.fieldsFail_touches (s : State) (a : Answer) :
    Touches [.part, .intake, .answers, .arbiters, .records, .hostMem] s (s.fieldsFail a) := by
  unfold State.fieldsFail
  try dsimp only
  repeat' first
    | with_reducible exact Touches.refl _ _
    | (apply Touches.after; (with_reducible apply State.smudge_touches); rfl)
    | (apply Touches.after; (with_reducible apply State.idleAnswers_touches); rfl)
    | (apply Touches.after; (with_reducible apply State.areaError_touches); rfl)
    | split

theorem State.handFails_touches (s : State) (a : Answer) :
    Touches [.part, .intake, .answers, .arbiters, .records, .hostMem] s (s.handFails a) := by
  unfold State.handFails
  try dsimp only
  repeat' first
    | with_reducible exact Touches.refl _ _
    | (apply Touches.after; (with_reducible apply State.pokeAnswer_touches); rfl)
    | (apply Touches.after; (with_reducible apply State.smudge_touches); rfl)
    | (apply Touches.after; (with_reducible apply State.idleAnswers_touches); rfl)
    | (apply Touches.after; (with_reducible apply State.areaError_touches); rfl)
    | split

theorem State.answerFails_touches (s : State) (access : AreaAccess) :
    Touches [.part, .intake, .answers, .arbiters, .records, .hostMem] s (s.answerFails access) := by
  unfold State.answerFails
  try dsimp only
  repeat' first
    | with_reducible exact Touches.refl _ _
    | (apply Touches.after; (with_reducible apply State.fieldsFail_touches); rfl)
    | (apply Touches.after; (with_reducible apply State.handFails_touches); rfl)
    | (apply Touches.after; (with_reducible apply State.smudge_touches); rfl)
    | (apply Touches.after; (with_reducible apply State.idleAnswers_touches); rfl)
    | (apply Touches.after; (with_reducible apply State.areaError_touches); rfl)
    | split

theorem State.faultRecordFails_touches (s : State) (part : Nat) :
    Touches [.part, .intake, .ports, .arbiters, .records, .capture, .hostMem] s (s.faultRecordFails part) := by
  unfold State.faultRecordFails
  try dsimp only
  repeat' first
    | with_reducible exact Touches.refl _ _
    | (apply Touches.after; (with_reducible apply State.failParts_touches); rfl)
    | (apply Touches.after; (with_reducible apply State.areaError_touches); rfl)
    | split
    | ((with_reducible apply touches_capture); (refine ⟨fun p hp => ?_⟩; cases p <;> first | exact absurd (by decide) hp | (and_intros <;> rfl)))
    | (refine ⟨fun p hp => ?_⟩; cases p <;> first | exact absurd (by decide) hp | (and_intros <;> rfl))

theorem State.meterBlockFails_touches (s : State) (part : Nat) :
    Touches [.part, .intake, .ports, .arbiters, .records, .hostMem] s (s.meterBlockFails part) := by
  unfold State.meterBlockFails
  try dsimp only
  repeat' first
    | with_reducible exact Touches.refl _ _
    | (apply Touches.after; (with_reducible apply State.failParts_touches); rfl)
    | (apply Touches.after; (with_reducible apply State.endMeterWrite_touches); rfl)
    | (apply Touches.after; (with_reducible apply State.areaError_touches); rfl)
    | split

theorem State.baySummaryFails_touches (s : State) (part : Nat) :
    Touches [.part, .intake, .ports, .arbiters, .records, .hostMem] s (s.baySummaryFails part) := by
  unfold State.baySummaryFails
  try dsimp only
  repeat' first
    | with_reducible exact Touches.refl _ _
    | (apply Touches.after; (with_reducible apply State.failParts_touches); rfl)
    | (apply Touches.after; (with_reducible apply State.endSummaryWrite_touches); rfl)
    | (apply Touches.after; (with_reducible apply State.areaError_touches); rfl)
    | split

theorem State.accessFails_touches (s : State) (access : AreaAccess) :
    Touches [.part, .intake, .answers, .answerQueue, .ports, .arbiters, .records, .capture, .notices, .hostMem]
      s (s.accessFails access) := by
  unfold State.accessFails
  try dsimp only
  repeat' first
    | with_reducible exact Touches.refl _ _
    | (apply Touches.after; (with_reducible apply State.visitFails_touches); rfl)
    | (apply Touches.after; (with_reducible apply State.takeReadFails_touches); rfl)
    | (apply Touches.after; (with_reducible apply State.takenWriteFails_touches); rfl)
    | (apply Touches.after; (with_reducible apply State.answerFails_touches); rfl)
    | (apply Touches.after; (with_reducible apply State.faultRecordFails_touches); rfl)
    | (apply Touches.after; (with_reducible apply State.meterBlockFails_touches); rfl)
    | (apply Touches.after; (with_reducible apply State.baySummaryFails_touches); rfl)
    | split

theorem State.queue_touches (s : State) (cs : List Instr) :
    Touches [.pending] s (s.queue cs) := by
  unfold State.queue
  (repeat' split) <;> (refine ⟨fun p hp => ?_⟩; cases p <;> first | exact absurd (by decide) hp | (and_intros <;> rfl))

theorem State.cycleClock_touches (s : State) :
    Touches [.clock, .pending] s (s.cycleClock) := by
  unfold State.cycleClock
  try dsimp only
  repeat' first
    | with_reducible exact Touches.refl _ _
    | (apply Touches.after; (with_reducible apply State.queue_touches); rfl)
    | split
    | ((with_reducible apply touches_clock); (refine ⟨fun p hp => ?_⟩; cases p <;> first | exact absurd (by decide) hp | (and_intros <;> rfl)))
    | (refine ⟨fun p hp => ?_⟩; cases p <;> first | exact absurd (by decide) hp | (and_intros <;> rfl))

theorem State.cycleBay_touches (s : State) (b : Fin 24) :
    Touches [.records, .pending] s (s.cycleBay b) := by
  unfold State.cycleBay
  try dsimp only
  repeat' first
    | with_reducible exact Touches.refl _ _
    | (apply Touches.after; (with_reducible apply State.setBay_touches); rfl)
    | (apply Touches.after; (with_reducible apply State.queue_touches); rfl)
    | split

theorem State.milliSweep_touches (s : State) :
    Touches [.intake, .pending] s (s.milliSweep) := by
  unfold State.milliSweep
  try dsimp only
  repeat' first
    | with_reducible exact Touches.refl _ _
    | (apply Touches.after; (with_reducible apply State.queue_touches); rfl)
    | split
    | ((with_reducible apply touches_exchange); (refine ⟨fun p hp => ?_⟩; cases p <;> first | exact absurd (by decide) hp | (and_intros <;> rfl)))
    | (refine ⟨fun p hp => ?_⟩; cases p <;> first | exact absurd (by decide) hp | (and_intros <;> rfl))

theorem State.milliReady_touches (s : State) (b : Fin 24) :
    Touches [.records, .pending] s (s.milliReady b) := by
  unfold State.milliReady
  try dsimp only
  repeat' first
    | with_reducible exact Touches.refl _ _
    | (apply Touches.after; (with_reducible apply State.setBay_touches); rfl)
    | (apply Touches.after; (with_reducible apply State.queue_touches); rfl)
    | split

theorem State.milliOperation_touches (s : State) (b : Fin 24) :
    Touches [.records, .pending] s (s.milliOperation b) := by
  unfold State.milliOperation
  try dsimp only
  repeat' first
    | with_reducible exact Touches.refl _ _
    | (apply Touches.after; (with_reducible apply State.setBay_touches); rfl)
    | (apply Touches.after; (with_reducible apply State.queue_touches); rfl)
    | split

theorem State.millisecond_touches (s : State) :
    Touches [.intake, .records, .pending] s (s.millisecond) := by
  unfold State.millisecond
  try dsimp only
  repeat' first
    | with_reducible exact Touches.refl _ _
    | (apply Touches.after; (with_reducible apply State.milliReady_touches); rfl)
    | (apply Touches.after; (with_reducible apply State.milliOperation_touches); rfl)
    | (apply Touches.after; (with_reducible apply State.milliSweep_touches); rfl)
    | (with_reducible apply Touches.foldl); intro _ _
    | split

theorem State.divide_touches (s : State) :
    Touches [.intake, .records, .clock, .pending] s (s.divide) := by
  unfold State.divide
  try dsimp only
  repeat' first
    | with_reducible exact Touches.refl _ _
    | (apply Touches.after; (with_reducible apply State.millisecond_touches); rfl)
    | split
    | ((with_reducible apply touches_clock); (refine ⟨fun p hp => ?_⟩; cases p <;> first | exact absurd (by decide) hp | (and_intros <;> rfl)))
    | (refine ⟨fun p hp => ?_⟩; cases p <;> first | exact absurd (by decide) hp | (and_intros <;> rfl))

theorem State.microsecond_touches (s : State) :
    Touches [.intake, .records, .clock, .pending] s (s.microsecond) := by
  unfold State.microsecond
  try dsimp only
  repeat' first
    | with_reducible exact Touches.refl _ _
    | (apply Touches.after; (with_reducible apply State.cycleClock_touches); rfl)
    | (apply Touches.after; (with_reducible apply State.cycleBay_touches); rfl)
    | (apply Touches.after; (with_reducible apply State.divide_touches); rfl)
    | (with_reducible apply Touches.foldl); intro _ _
    | split

end Sys2Proof.Machine
end

