-- ==== Sys2Proof/Laws/Layouts.lean ====
section
/-! SUPPORT. Reading a field of a layout: a layout is a chain of fields, and a field is found by leaving out those before it. -/
namespace Sys2Proof.Machine

variable {bytes rest : List Byte} {off n w v : Nat}

@[simp] theorem leBytes_length : (leBytes w v).length = w := by
  induction w generalizing v with
  | zero => rfl
  | succ k ih => simp [leBytes, ih]

theorem leBytes_value : (leBytes w v).foldr (fun b v => b.toNat + 256 * v) 0 = v % 256 ^ w := by
  induction w generalizing v with
  | zero => simp [leBytes, Nat.mod_one]
  | succ k ih => rw [leBytes, List.foldr_cons, ih, BitVec.toNat_ofNat, pow_succ' 256 k, Nat.mod_mul (x := v) (a := 256)]

/-- The first field of a chain. -/
theorem fieldAt_here : fieldAt (leBytes n v ++ rest) 0 n = v % 256 ^ n := by
  simp [fieldAt, leBytes_value]

/-- The only field of a chain. -/
theorem fieldAt_last : fieldAt (leBytes n v) 0 n = v % 256 ^ n := by
  simpa using fieldAt_here (rest := [])

/-- A field behind the bytes that come first. -/
theorem fieldAt_behind (h : bytes.length ≤ off) : fieldAt (bytes ++ rest) off n = fieldAt rest (off - bytes.length) n := by
  simp [fieldAt, List.drop_append, List.drop_eq_nil_of_le h]

/-- A field that lies within the bytes that come first. -/
theorem fieldAt_within (h : off + n ≤ bytes.length) : fieldAt (bytes ++ rest) off n = fieldAt bytes off n := by
  have : off ≤ bytes.length := by omega
  simp [fieldAt, List.drop_append_of_le_length this, List.take_append_of_le_length (show n ≤ (bytes.drop off).length by simp; omega)]

/-- A field of one of the equal entries of a record. -/
theorem fieldAt_entry {α : Type} {f : α → List Byte} {l : List α} {i : Nat} {a : α} (size : ∀ a, (f a).length = w) (at_i : l[i]? = some a)
    (fits : off + n ≤ w) : fieldAt (l.flatMap f) (w * i + off) n = fieldAt (f a) off n := by
  induction l generalizing i with
  | nil => simp at at_i
  | cons b l ih =>
    rw [List.flatMap_cons]
    cases i with
    | zero =>
      obtain rfl : b = a := by simpa using at_i
      rw [Nat.mul_zero, Nat.zero_add, fieldAt_within (by rw [size]; exact fits)]
    | succ i =>
      rw [fieldAt_behind (by rw [size]; exact Nat.le_trans (Nat.le_mul_of_pos_right w (Nat.succ_pos i)) (Nat.le_add_right ..)), size,
        show w * (i + 1) + off - w = w * i + off by rw [Nat.mul_succ]; omega]
      exact ih (by simpa using at_i)

end Sys2Proof.Machine
end

