-- ==== Sys2Proof/Laws/Memory.lean ====
section
/-! SUPPORT. Host memory: what a byte reads after a write or an erasure, and the canonical form every operation keeps. -/
namespace Sys2Proof.Machine.Memory

theorem read_filter (m : List Host.Cell) (p : Host.Cell → Bool) (q : Nat → Bool) (h : ∀ e, p e = q e.1) (x : Nat) :
    read (m.filter p) x = if q x then read m x else none := by
  induction m with
  | nil => simp [read]
  | cons e m ih =>
    obtain ⟨y, c⟩ := e
    by_cases hy : y = x
    · subst hy; cases hq : q y <;> simp [h, hq, read, ih]
    · cases hq : q y <;> simp [h, hq, read, ih, hy]

theorem read_append (m n : List Host.Cell) (x : Nat) : read (m ++ n) x = (read m x).or (read n x) := by
  induction m with
  | nil => simp [read]
  | cons e m ih =>
    obtain ⟨y, c⟩ := e
    by_cases hy : y = x <;> simp [read, hy, ih]

theorem read_cells (a : Nat) (bs : List Byte) (x : Nat) : read (cells a bs) x = if a ≤ x then bs[x - a]? else none := by
  induction bs generalizing a with
  | nil => simp [cells, read]
  | cons b bs ih =>
    simp only [cells, read, ih]
    rcases Nat.lt_trichotomy a x with h | h | h
    · rw [if_neg (by omega), if_pos (by omega), if_pos (by omega), show x - a = x - (a + 1) + 1 by omega]; rfl
    · subst h; simp
    · rw [if_neg (by omega), if_neg (by omega), if_neg (by omega)]

/-- A byte after a run was written: the run's own byte inside it, the byte of before outside it. -/
theorem read_writeRun (m : List Host.Cell) (a : Nat) (bs : List Byte) (x : Nat) :
    read (writeRun m a bs) x = if a ≤ x ∧ x < a + bs.length then bs[x - a]? else read m x := by
  rw [writeRun, read_append, read_append, read_cells,
    read_filter m _ (fun y => decide (y < a)) (fun _ => rfl), read_filter m _ (fun y => decide (a + bs.length ≤ y)) (fun _ => rfl)]
  simp only [decide_eq_true_eq]
  by_cases h1 : x < a
  · rw [if_pos h1, if_neg (show ¬a ≤ x by omega), if_neg (show ¬a + bs.length ≤ x by omega),
      if_neg (show ¬(a ≤ x ∧ x < a + bs.length) by omega)]
    simp
  · by_cases h2 : x < a + bs.length
    · rw [if_neg h1, if_pos (show a ≤ x by omega), if_neg (show ¬a + bs.length ≤ x by omega),
        if_pos (show a ≤ x ∧ x < a + bs.length by omega)]
      simp
    · rw [if_neg h1, if_pos (show a ≤ x by omega), if_neg (show ¬(a ≤ x ∧ x < a + bs.length) by omega),
        if_pos (show a + bs.length ≤ x by omega), List.getElem?_eq_none (show bs.length ≤ x - a by omega)]
      simp

/-- A byte after a run was erased. -/
theorem read_eraseRun (m : List Host.Cell) (a n x : Nat) :
    read (eraseRun m a n) x = if a ≤ x ∧ x < a + n then none else read m x := by
  rw [eraseRun, read_filter m _ (fun y => decide (y < a) || decide (a + n ≤ y)) (fun _ => rfl)]
  by_cases h : a ≤ x ∧ x < a + n
  · rw [if_pos h, if_neg (by simp; omega)]
  · rw [if_neg h, if_pos (by simp; omega)]

theorem rising_filter (m : List Host.Cell) (p : Host.Cell → Bool) (h : rising m = true) : rising (m.filter p) = true := by
  induction m with
  | nil => rfl
  | cons e m ih =>
    obtain ⟨y, c⟩ := e
    simp only [rising, Bool.and_eq_true, List.all_eq_true, decide_eq_true_eq] at h
    cases hp : p (y, c)
    · simpa [hp] using ih h.2
    · simp only [List.filter_cons, hp, if_true, rising, Bool.and_eq_true, List.all_eq_true, decide_eq_true_eq]
      exact ⟨fun e he => h.1 e (List.mem_of_mem_filter he), ih h.2⟩

theorem rising_append (m n : List Host.Cell) (hm : rising m = true) (hn : rising n = true)
    (h : ∀ e ∈ m, ∀ f ∈ n, e.1 < f.1) : rising (m ++ n) = true := by
  induction m with
  | nil => simpa using hn
  | cons e m ih =>
    obtain ⟨y, c⟩ := e
    simp only [rising, Bool.and_eq_true, List.all_eq_true, decide_eq_true_eq, List.cons_append, List.mem_append] at hm ⊢
    exact ⟨fun f hf => hf.elim (hm.1 f) (h (y, c) (by simp) f), ih hm.2 (fun e he => h e (List.mem_cons_of_mem _ he))⟩

theorem mem_cells (a : Nat) (bs : List Byte) (e : Host.Cell) (he : e ∈ cells a bs) : a ≤ e.1 ∧ e.1 < a + bs.length := by
  induction bs generalizing a with
  | nil => simp [cells] at he
  | cons b bs ih =>
    simp only [cells, List.mem_cons] at he
    rcases he with rfl | he
    · simp
    · have := ih (a + 1) he; simp only [List.length_cons]; omega

theorem rising_cells (a : Nat) (bs : List Byte) : rising (cells a bs) = true := by
  induction bs generalizing a with
  | nil => rfl
  | cons b bs ih =>
    simp only [cells, rising, Bool.and_eq_true, List.all_eq_true, decide_eq_true_eq]
    exact ⟨fun e he => (mem_cells _ _ e he).1, ih _⟩

theorem wf_writeRun (m : List Host.Cell) (a : Nat) (bs : List Byte) (h : wf m = true) (hb : a + bs.length ≤ Config.addressSpace) :
    wf (writeRun m a bs) = true := by
  simp only [wf, bounded, Bool.and_eq_true, List.all_eq_true, decide_eq_true_eq] at h ⊢
  refine ⟨rising_append _ _ (rising_append _ _ (rising_filter _ _ h.1) (rising_cells _ _) ?_) (rising_filter _ _ h.1) ?_, ?_⟩
  · intro e he f hf
    have h1 := List.of_mem_filter he
    have h2 := mem_cells _ _ f hf
    simp only [decide_eq_true_eq] at h1; omega
  · intro e he f hf
    have h2 := List.of_mem_filter hf
    simp only [decide_eq_true_eq] at h2
    rcases List.mem_append.1 he with he | he
    · have h1 := List.of_mem_filter he; simp only [decide_eq_true_eq] at h1; omega
    · have h1 := mem_cells _ _ e he; omega
  · intro e he
    rcases List.mem_append.1 he with he | he
    · rcases List.mem_append.1 he with he | he
      · exact h.2 e (List.mem_of_mem_filter he)
      · have := mem_cells _ _ e he; omega
    · exact h.2 e (List.mem_of_mem_filter he)

theorem wf_eraseRun (m : List Host.Cell) (a n : Nat) (h : wf m = true) : wf (eraseRun m a n) = true := by
  simp only [wf, bounded, Bool.and_eq_true, List.all_eq_true, decide_eq_true_eq] at h ⊢
  exact ⟨rising_filter _ _ h.1, fun e he => h.2 e (List.mem_of_mem_filter he)⟩

/-- Writing keeps the canonical form, while no run is longer than the address space. -/
theorem wf_writeBytes (m : List Host.Cell) (a : Nat) (bs : List Byte) (h : wf m = true) (hb : bs.length ≤ Config.addressSpace) :
    wf (writeBytes m a bs) = true := by
  have ha : a % Config.addressSpace < Config.addressSpace := Nat.mod_lt _ (by decide)
  refine wf_writeRun _ _ _ (wf_writeRun _ _ _ h ?_) ?_
  · simp only [List.length_take, room]; omega
  · simp only [List.length_drop, room]; omega

/-- Erasing keeps the canonical form. -/
theorem wf_eraseBytes (m : List Host.Cell) (a n : Nat) (h : wf m = true) : wf (eraseBytes m a n) = true :=
  wf_eraseRun _ _ _ (wf_eraseRun _ _ _ h)

/-- A byte after bytes were written that do not pass the end of the address space. -/
theorem read_writeBytes (m : List Host.Cell) (a : Nat) (bs : List Byte) (x : Nat)
    (h : a % Config.addressSpace + bs.length ≤ Config.addressSpace) :
    read (writeBytes m a bs) x =
      if a % Config.addressSpace ≤ x ∧ x < a % Config.addressSpace + bs.length then bs[x - a % Config.addressSpace]?
      else read m x := by
  have h1 : bs.take (room (a % Config.addressSpace)) = bs := List.take_of_length_le (by simp only [room]; omega)
  have h2 : bs.drop (room (a % Config.addressSpace)) = [] := List.drop_of_length_le (by simp only [room]; omega)
  rw [writeBytes, read_writeRun, h1, h2, read_writeRun]
  simp

/-- A byte of the address space after bytes were written, whether or not they pass its end: with k its distance from the first,
byte k of them, or the byte of before. -/
theorem read_writeBytes_wrap (m : List Host.Cell) (a : Nat) (bs : List Byte) (x : Nat) (hx : x < Config.addressSpace)
    (hb : bs.length ≤ Config.addressSpace) :
    read (writeBytes m a bs) x =
      if (x + Config.addressSpace - a % Config.addressSpace) % Config.addressSpace < bs.length then
        bs[(x + Config.addressSpace - a % Config.addressSpace) % Config.addressSpace]?
      else read m x := by
  have hs : Config.addressSpace = 18446744073709551616 := rfl
  have ha : a % Config.addressSpace < Config.addressSpace := Nat.mod_lt _ (by decide)
  rw [writeBytes, read_writeRun, read_writeRun]
  simp only [room, hs, List.length_drop, List.length_take, List.getElem?_drop, List.getElem?_take]
  generalize a % 18446744073709551616 = r at ha ⊢
  by_cases h : r ≤ x
  · rw [show x + 18446744073709551616 - r = (x - r) + 18446744073709551616 by omega, Nat.add_mod_right,
      Nat.mod_eq_of_lt (show x - r < 18446744073709551616 by omega), if_neg (show ¬(0 ≤ x ∧ _) by omega)]
    by_cases h2 : x - r < bs.length
    · rw [if_pos (by omega), if_pos h2, if_pos (by omega)]
    · rw [if_neg (by omega), if_neg h2]
  · rw [Nat.mod_eq_of_lt (show x + 18446744073709551616 - r < 18446744073709551616 by omega)]
    by_cases h2 : x + 18446744073709551616 - r < bs.length
    · rw [if_pos (by omega), if_pos h2, show 18446744073709551616 - r + (x - 0) = x + 18446744073709551616 - r by omega]
    · rw [if_neg (by omega), if_neg (by omega), if_neg h2]

/-- A byte that none of the addresses of a write or of an erased run names is as it was. -/
theorem read_writeBytes_other (m : List Host.Cell) (a : Nat) (bs : List Byte) (x : Nat) (hb : bs.length ≤ Config.addressSpace)
    (h : ∀ i, i < bs.length → x ≠ (a + i) % Config.addressSpace) : read (writeBytes m a bs) x = read m x := by
  have hs : Config.addressSpace = 18446744073709551616 := rfl
  simp only [hs] at h
  rw [writeBytes, read_writeRun, read_writeRun]
  simp only [room, hs, List.length_drop, List.length_take]
  rw [if_neg, if_neg]
  · intro hx
    exact h (x - a % 18446744073709551616) (by omega) (by omega)
  · intro hx
    exact h (x + 18446744073709551616 - a % 18446744073709551616) (by omega) (by omega)

theorem read_eraseBytes_other (m : List Host.Cell) (a n x : Nat) (hn : n ≤ Config.addressSpace)
    (h : ∀ i, i < n → x ≠ (a + i) % Config.addressSpace) : read (eraseBytes m a n) x = read m x := by
  have hs : Config.addressSpace = 18446744073709551616 := rfl
  simp only [hs] at h
  rw [eraseBytes, read_eraseRun, read_eraseRun]
  simp only [room, hs]
  rw [if_neg, if_neg]
  · intro hx
    exact h (x - a % 18446744073709551616) (by omega) (by omega)
  · intro hx
    exact h (x + 18446744073709551616 - a % 18446744073709551616) (by omega) (by omega)

end Sys2Proof.Machine.Memory

namespace Sys2Proof.Machine

/-- After a reset host memory has its canonical form. -/
theorem State.reset_hostMem_wf : Memory.wf State.reset.hostMem = true := rfl

theorem State.poke_wf (s : State) (a : Nat) (bs : List Byte) (h : Memory.wf s.hostMem = true)
    (hb : bs.length ≤ Config.addressSpace) : Memory.wf (s.poke a bs).hostMem = true := Memory.wf_writeBytes _ _ _ h hb

theorem State.smudge_wf (s : State) (a n : Nat) (h : Memory.wf s.hostMem = true) : Memory.wf (s.smudge a n).hostMem = true :=
  Memory.wf_eraseBytes _ _ _ h

end Sys2Proof.Machine
end

