-- ==== Sys2Proof/Laws/State.lean ====
section
/-! SUPPORT. What each update of the state leaves in each field, so that no proof unfolds a record update: first the fields an update
gives a value, then those it leaves alone, then the records read by their numbers. -/
namespace Sys2Proof.Machine

theorem Notices.renew_flags (n : Notices) (f e : NoticeBits) : (n.renew f e).flags = f := by
  simp only [Notices.renew]
  split <;> rfl

theorem Notices.renew_enable (n : Notices) (f e : NoticeBits) : (n.renew f e).enable = e := by
  simp only [Notices.renew]
  split <;> rfl

section
variable (s : State)


@[simp] theorem State.setLoan_loans_table (n : Nat) (l : Loan) : (s.setLoan n l).loans.table = Table.set .free s.loans.table n l := rfl
@[simp] theorem State.setLoan_loans_waiting (n : Nat) (l : Loan) : (s.setLoan n l).loans.waiting = s.loans.waiting := rfl
@[simp] theorem State.setLoan_link (n : Nat) (l : Loan) : (s.setLoan n l).link = s.link := rfl
@[simp] theorem State.setLoan_exchange (n : Nat) (l : Loan) : (s.setLoan n l).exchange = s.exchange := rfl
@[simp] theorem State.setLoan_shares (n : Nat) (l : Loan) : (s.setLoan n l).shares = s.shares := rfl
@[simp] theorem State.setLoan_staging (n : Nat) (l : Loan) : (s.setLoan n l).staging = s.staging := rfl
@[simp] theorem State.setLoan_engine (n : Nat) (l : Loan) : (s.setLoan n l).engine = s.engine := rfl
@[simp] theorem State.setLoan_bays (n : Nat) (l : Loan) : (s.setLoan n l).bays = s.bays := rfl
@[simp] theorem State.setLoan_clock (n : Nat) (l : Loan) : (s.setLoan n l).clock = s.clock := rfl
@[simp] theorem State.setLoan_meters (n : Nat) (l : Loan) : (s.setLoan n l).meters = s.meters := rfl
@[simp] theorem State.setLoan_capture (n : Nat) (l : Loan) : (s.setLoan n l).capture = s.capture := rfl
@[simp] theorem State.setLoan_notices (n : Nat) (l : Loan) : (s.setLoan n l).notices = s.notices := rfl
@[simp] theorem State.setLoan_hostMem (n : Nat) (l : Loan) : (s.setLoan n l).hostMem = s.hostMem := rfl
@[simp] theorem State.setLoan_pending (n : Nat) (l : Loan) : (s.setLoan n l).pending = s.pending := rfl

@[simp] theorem State.setWaiting_loans_waiting (b : Nat) (l : List Nat) :
    (s.setWaiting b l).loans.waiting = Table.set [] s.loans.waiting b l := rfl
@[simp] theorem State.setWaiting_loans_table (b : Nat) (l : List Nat) : (s.setWaiting b l).loans.table = s.loans.table := rfl
@[simp] theorem State.setWaiting_link (b : Nat) (l : List Nat) : (s.setWaiting b l).link = s.link := rfl
@[simp] theorem State.setWaiting_exchange (b : Nat) (l : List Nat) : (s.setWaiting b l).exchange = s.exchange := rfl
@[simp] theorem State.setWaiting_shares (b : Nat) (l : List Nat) : (s.setWaiting b l).shares = s.shares := rfl
@[simp] theorem State.setWaiting_staging (b : Nat) (l : List Nat) : (s.setWaiting b l).staging = s.staging := rfl
@[simp] theorem State.setWaiting_engine (b : Nat) (l : List Nat) : (s.setWaiting b l).engine = s.engine := rfl
@[simp] theorem State.setWaiting_bays (b : Nat) (l : List Nat) : (s.setWaiting b l).bays = s.bays := rfl
@[simp] theorem State.setWaiting_clock (b : Nat) (l : List Nat) : (s.setWaiting b l).clock = s.clock := rfl
@[simp] theorem State.setWaiting_meters (b : Nat) (l : List Nat) : (s.setWaiting b l).meters = s.meters := rfl
@[simp] theorem State.setWaiting_capture (b : Nat) (l : List Nat) : (s.setWaiting b l).capture = s.capture := rfl
@[simp] theorem State.setWaiting_notices (b : Nat) (l : List Nat) : (s.setWaiting b l).notices = s.notices := rfl
@[simp] theorem State.setWaiting_hostMem (b : Nat) (l : List Nat) : (s.setWaiting b l).hostMem = s.hostMem := rfl
@[simp] theorem State.setWaiting_pending (b : Nat) (l : List Nat) : (s.setWaiting b l).pending = s.pending := rfl

@[simp] theorem State.mapLoans_loans_table (f : Loan → Loan) : (s.mapLoans f).loans.table = s.loans.table.map (fun e => (e.1, f e.2)) := rfl
@[simp] theorem State.mapLoans_loans_waiting (f : Loan → Loan) : (s.mapLoans f).loans.waiting = s.loans.waiting := rfl
@[simp] theorem State.mapLoans_link (f : Loan → Loan) : (s.mapLoans f).link = s.link := rfl
@[simp] theorem State.mapLoans_exchange (f : Loan → Loan) : (s.mapLoans f).exchange = s.exchange := rfl
@[simp] theorem State.mapLoans_shares (f : Loan → Loan) : (s.mapLoans f).shares = s.shares := rfl
@[simp] theorem State.mapLoans_staging (f : Loan → Loan) : (s.mapLoans f).staging = s.staging := rfl
@[simp] theorem State.mapLoans_engine (f : Loan → Loan) : (s.mapLoans f).engine = s.engine := rfl
@[simp] theorem State.mapLoans_bays (f : Loan → Loan) : (s.mapLoans f).bays = s.bays := rfl
@[simp] theorem State.mapLoans_clock (f : Loan → Loan) : (s.mapLoans f).clock = s.clock := rfl
@[simp] theorem State.mapLoans_meters (f : Loan → Loan) : (s.mapLoans f).meters = s.meters := rfl
@[simp] theorem State.mapLoans_capture (f : Loan → Loan) : (s.mapLoans f).capture = s.capture := rfl
@[simp] theorem State.mapLoans_notices (f : Loan → Loan) : (s.mapLoans f).notices = s.notices := rfl
@[simp] theorem State.mapLoans_hostMem (f : Loan → Loan) : (s.mapLoans f).hostMem = s.hostMem := rfl
@[simp] theorem State.mapLoans_pending (f : Loan → Loan) : (s.mapLoans f).pending = s.pending := rfl

@[simp] theorem State.setGroup_shares_groups (g : Nat) (v : Group) :
    (s.setGroup g v).shares.groups = Table.set .initial s.shares.groups g v := rfl
@[simp] theorem State.setGroup_shares_fifos (g : Nat) (v : Group) : (s.setGroup g v).shares.fifos = s.shares.fifos := rfl
@[simp] theorem State.setGroup_shares_arbiters (g : Nat) (v : Group) : (s.setGroup g v).shares.arbiters = s.shares.arbiters := rfl
@[simp] theorem State.setGroup_link (g : Nat) (v : Group) : (s.setGroup g v).link = s.link := rfl
@[simp] theorem State.setGroup_exchange (g : Nat) (v : Group) : (s.setGroup g v).exchange = s.exchange := rfl
@[simp] theorem State.setGroup_loans (g : Nat) (v : Group) : (s.setGroup g v).loans = s.loans := rfl
@[simp] theorem State.setGroup_staging (g : Nat) (v : Group) : (s.setGroup g v).staging = s.staging := rfl
@[simp] theorem State.setGroup_engine (g : Nat) (v : Group) : (s.setGroup g v).engine = s.engine := rfl
@[simp] theorem State.setGroup_bays (g : Nat) (v : Group) : (s.setGroup g v).bays = s.bays := rfl
@[simp] theorem State.setGroup_clock (g : Nat) (v : Group) : (s.setGroup g v).clock = s.clock := rfl
@[simp] theorem State.setGroup_meters (g : Nat) (v : Group) : (s.setGroup g v).meters = s.meters := rfl
@[simp] theorem State.setGroup_capture (g : Nat) (v : Group) : (s.setGroup g v).capture = s.capture := rfl
@[simp] theorem State.setGroup_notices (g : Nat) (v : Group) : (s.setGroup g v).notices = s.notices := rfl
@[simp] theorem State.setGroup_hostMem (g : Nat) (v : Group) : (s.setGroup g v).hostMem = s.hostMem := rfl
@[simp] theorem State.setGroup_pending (g : Nat) (v : Group) : (s.setGroup g v).pending = s.pending := rfl

@[simp] theorem State.setFifo_shares_fifos (b g : Nat) (q : Fifo) :
    (s.setFifo b g q).shares.fifos = Table.set .initial s.shares.fifos (fifoNumber b g) q := rfl
@[simp] theorem State.setFifo_shares_groups (b g : Nat) (q : Fifo) : (s.setFifo b g q).shares.groups = s.shares.groups := rfl
@[simp] theorem State.setFifo_shares_arbiters (b g : Nat) (q : Fifo) : (s.setFifo b g q).shares.arbiters = s.shares.arbiters := rfl
@[simp] theorem State.setFifo_link (b g : Nat) (q : Fifo) : (s.setFifo b g q).link = s.link := rfl
@[simp] theorem State.setFifo_exchange (b g : Nat) (q : Fifo) : (s.setFifo b g q).exchange = s.exchange := rfl
@[simp] theorem State.setFifo_loans (b g : Nat) (q : Fifo) : (s.setFifo b g q).loans = s.loans := rfl
@[simp] theorem State.setFifo_staging (b g : Nat) (q : Fifo) : (s.setFifo b g q).staging = s.staging := rfl
@[simp] theorem State.setFifo_engine (b g : Nat) (q : Fifo) : (s.setFifo b g q).engine = s.engine := rfl
@[simp] theorem State.setFifo_bays (b g : Nat) (q : Fifo) : (s.setFifo b g q).bays = s.bays := rfl
@[simp] theorem State.setFifo_clock (b g : Nat) (q : Fifo) : (s.setFifo b g q).clock = s.clock := rfl
@[simp] theorem State.setFifo_meters (b g : Nat) (q : Fifo) : (s.setFifo b g q).meters = s.meters := rfl
@[simp] theorem State.setFifo_capture (b g : Nat) (q : Fifo) : (s.setFifo b g q).capture = s.capture := rfl
@[simp] theorem State.setFifo_notices (b g : Nat) (q : Fifo) : (s.setFifo b g q).notices = s.notices := rfl
@[simp] theorem State.setFifo_hostMem (b g : Nat) (q : Fifo) : (s.setFifo b g q).hostMem = s.hostMem := rfl
@[simp] theorem State.setFifo_pending (b g : Nat) (q : Fifo) : (s.setFifo b g q).pending = s.pending := rfl

@[simp] theorem State.setArbiter_shares_arbiters (b : Nat) (v : Arbiter) :
    (s.setArbiter b v).shares.arbiters = Table.set .initial s.shares.arbiters b v := rfl
@[simp] theorem State.setArbiter_shares_groups (b : Nat) (v : Arbiter) : (s.setArbiter b v).shares.groups = s.shares.groups := rfl
@[simp] theorem State.setArbiter_shares_fifos (b : Nat) (v : Arbiter) : (s.setArbiter b v).shares.fifos = s.shares.fifos := rfl
@[simp] theorem State.setArbiter_link (b : Nat) (v : Arbiter) : (s.setArbiter b v).link = s.link := rfl
@[simp] theorem State.setArbiter_exchange (b : Nat) (v : Arbiter) : (s.setArbiter b v).exchange = s.exchange := rfl
@[simp] theorem State.setArbiter_loans (b : Nat) (v : Arbiter) : (s.setArbiter b v).loans = s.loans := rfl
@[simp] theorem State.setArbiter_staging (b : Nat) (v : Arbiter) : (s.setArbiter b v).staging = s.staging := rfl
@[simp] theorem State.setArbiter_engine (b : Nat) (v : Arbiter) : (s.setArbiter b v).engine = s.engine := rfl
@[simp] theorem State.setArbiter_bays (b : Nat) (v : Arbiter) : (s.setArbiter b v).bays = s.bays := rfl
@[simp] theorem State.setArbiter_clock (b : Nat) (v : Arbiter) : (s.setArbiter b v).clock = s.clock := rfl
@[simp] theorem State.setArbiter_meters (b : Nat) (v : Arbiter) : (s.setArbiter b v).meters = s.meters := rfl
@[simp] theorem State.setArbiter_capture (b : Nat) (v : Arbiter) : (s.setArbiter b v).capture = s.capture := rfl
@[simp] theorem State.setArbiter_notices (b : Nat) (v : Arbiter) : (s.setArbiter b v).notices = s.notices := rfl
@[simp] theorem State.setArbiter_hostMem (b : Nat) (v : Arbiter) : (s.setArbiter b v).hostMem = s.hostMem := rfl
@[simp] theorem State.setArbiter_pending (b : Nat) (v : Arbiter) : (s.setArbiter b v).pending = s.pending := rfl

@[simp] theorem State.setSlot_staging_slots (k : Nat) (v : Slot) :
    (s.setSlot k v).staging.slots = Table.set .free s.staging.slots k v := rfl
@[simp] theorem State.setSlot_staging_residency (k : Nat) (v : Slot) : (s.setSlot k v).staging.residency = s.staging.residency := rfl
@[simp] theorem State.setSlot_staging_slotWait (k : Nat) (v : Slot) : (s.setSlot k v).staging.slotWait = s.staging.slotWait := rfl
@[simp] theorem State.setSlot_link (k : Nat) (v : Slot) : (s.setSlot k v).link = s.link := rfl
@[simp] theorem State.setSlot_exchange (k : Nat) (v : Slot) : (s.setSlot k v).exchange = s.exchange := rfl
@[simp] theorem State.setSlot_loans (k : Nat) (v : Slot) : (s.setSlot k v).loans = s.loans := rfl
@[simp] theorem State.setSlot_shares (k : Nat) (v : Slot) : (s.setSlot k v).shares = s.shares := rfl
@[simp] theorem State.setSlot_engine (k : Nat) (v : Slot) : (s.setSlot k v).engine = s.engine := rfl
@[simp] theorem State.setSlot_bays (k : Nat) (v : Slot) : (s.setSlot k v).bays = s.bays := rfl
@[simp] theorem State.setSlot_clock (k : Nat) (v : Slot) : (s.setSlot k v).clock = s.clock := rfl
@[simp] theorem State.setSlot_meters (k : Nat) (v : Slot) : (s.setSlot k v).meters = s.meters := rfl
@[simp] theorem State.setSlot_capture (k : Nat) (v : Slot) : (s.setSlot k v).capture = s.capture := rfl
@[simp] theorem State.setSlot_notices (k : Nat) (v : Slot) : (s.setSlot k v).notices = s.notices := rfl
@[simp] theorem State.setSlot_hostMem (k : Nat) (v : Slot) : (s.setSlot k v).hostMem = s.hostMem := rfl
@[simp] theorem State.setSlot_pending (k : Nat) (v : Slot) : (s.setSlot k v).pending = s.pending := rfl

@[simp] theorem State.setResidency_staging_residency (l : List Nat) : (s.setResidency l).staging.residency = l := rfl
@[simp] theorem State.setResidency_staging_slots (l : List Nat) : (s.setResidency l).staging.slots = s.staging.slots := rfl
@[simp] theorem State.setResidency_staging_slotWait (l : List Nat) : (s.setResidency l).staging.slotWait = s.staging.slotWait := rfl
@[simp] theorem State.setResidency_link (l : List Nat) : (s.setResidency l).link = s.link := rfl
@[simp] theorem State.setResidency_exchange (l : List Nat) : (s.setResidency l).exchange = s.exchange := rfl
@[simp] theorem State.setResidency_loans (l : List Nat) : (s.setResidency l).loans = s.loans := rfl
@[simp] theorem State.setResidency_shares (l : List Nat) : (s.setResidency l).shares = s.shares := rfl
@[simp] theorem State.setResidency_engine (l : List Nat) : (s.setResidency l).engine = s.engine := rfl
@[simp] theorem State.setResidency_bays (l : List Nat) : (s.setResidency l).bays = s.bays := rfl
@[simp] theorem State.setResidency_clock (l : List Nat) : (s.setResidency l).clock = s.clock := rfl
@[simp] theorem State.setResidency_meters (l : List Nat) : (s.setResidency l).meters = s.meters := rfl
@[simp] theorem State.setResidency_capture (l : List Nat) : (s.setResidency l).capture = s.capture := rfl
@[simp] theorem State.setResidency_notices (l : List Nat) : (s.setResidency l).notices = s.notices := rfl
@[simp] theorem State.setResidency_hostMem (l : List Nat) : (s.setResidency l).hostMem = s.hostMem := rfl
@[simp] theorem State.setResidency_pending (l : List Nat) : (s.setResidency l).pending = s.pending := rfl

@[simp] theorem State.waitForSlot_staging_slotWait (b : Nat) : (s.waitForSlot b).staging.slotWait = s.staging.slotWait ++ [b] := rfl
@[simp] theorem State.waitForSlot_staging_slots (b : Nat) : (s.waitForSlot b).staging.slots = s.staging.slots := rfl
@[simp] theorem State.waitForSlot_staging_residency (b : Nat) : (s.waitForSlot b).staging.residency = s.staging.residency := rfl
@[simp] theorem State.waitForSlot_link (b : Nat) : (s.waitForSlot b).link = s.link := rfl
@[simp] theorem State.waitForSlot_exchange (b : Nat) : (s.waitForSlot b).exchange = s.exchange := rfl
@[simp] theorem State.waitForSlot_loans (b : Nat) : (s.waitForSlot b).loans = s.loans := rfl
@[simp] theorem State.waitForSlot_shares (b : Nat) : (s.waitForSlot b).shares = s.shares := rfl
@[simp] theorem State.waitForSlot_engine (b : Nat) : (s.waitForSlot b).engine = s.engine := rfl
@[simp] theorem State.waitForSlot_bays (b : Nat) : (s.waitForSlot b).bays = s.bays := rfl
@[simp] theorem State.waitForSlot_clock (b : Nat) : (s.waitForSlot b).clock = s.clock := rfl
@[simp] theorem State.waitForSlot_meters (b : Nat) : (s.waitForSlot b).meters = s.meters := rfl
@[simp] theorem State.waitForSlot_capture (b : Nat) : (s.waitForSlot b).capture = s.capture := rfl
@[simp] theorem State.waitForSlot_notices (b : Nat) : (s.waitForSlot b).notices = s.notices := rfl
@[simp] theorem State.waitForSlot_hostMem (b : Nat) : (s.waitForSlot b).hostMem = s.hostMem := rfl
@[simp] theorem State.waitForSlot_pending (b : Nat) : (s.waitForSlot b).pending = s.pending := rfl

@[simp] theorem State.leaveSlotWait_staging_slotWait (b : Nat) :
    (s.leaveSlotWait b).staging.slotWait = s.staging.slotWait.filter (fun x => x != b) := rfl
@[simp] theorem State.leaveSlotWait_staging_slots (b : Nat) : (s.leaveSlotWait b).staging.slots = s.staging.slots := rfl
@[simp] theorem State.leaveSlotWait_staging_residency (b : Nat) : (s.leaveSlotWait b).staging.residency = s.staging.residency := rfl
@[simp] theorem State.leaveSlotWait_link (b : Nat) : (s.leaveSlotWait b).link = s.link := rfl
@[simp] theorem State.leaveSlotWait_exchange (b : Nat) : (s.leaveSlotWait b).exchange = s.exchange := rfl
@[simp] theorem State.leaveSlotWait_loans (b : Nat) : (s.leaveSlotWait b).loans = s.loans := rfl
@[simp] theorem State.leaveSlotWait_shares (b : Nat) : (s.leaveSlotWait b).shares = s.shares := rfl
@[simp] theorem State.leaveSlotWait_engine (b : Nat) : (s.leaveSlotWait b).engine = s.engine := rfl
@[simp] theorem State.leaveSlotWait_bays (b : Nat) : (s.leaveSlotWait b).bays = s.bays := rfl
@[simp] theorem State.leaveSlotWait_clock (b : Nat) : (s.leaveSlotWait b).clock = s.clock := rfl
@[simp] theorem State.leaveSlotWait_meters (b : Nat) : (s.leaveSlotWait b).meters = s.meters := rfl
@[simp] theorem State.leaveSlotWait_capture (b : Nat) : (s.leaveSlotWait b).capture = s.capture := rfl
@[simp] theorem State.leaveSlotWait_notices (b : Nat) : (s.leaveSlotWait b).notices = s.notices := rfl
@[simp] theorem State.leaveSlotWait_hostMem (b : Nat) : (s.leaveSlotWait b).hostMem = s.hostMem := rfl
@[simp] theorem State.leaveSlotWait_pending (b : Nat) : (s.leaveSlotWait b).pending = s.pending := rfl

@[simp] theorem State.setItems_engine_items (l : List Item) : (s.setItems l).engine.items = l := rfl
@[simp] theorem State.setItems_link (l : List Item) : (s.setItems l).link = s.link := rfl
@[simp] theorem State.setItems_exchange (l : List Item) : (s.setItems l).exchange = s.exchange := rfl
@[simp] theorem State.setItems_loans (l : List Item) : (s.setItems l).loans = s.loans := rfl
@[simp] theorem State.setItems_shares (l : List Item) : (s.setItems l).shares = s.shares := rfl
@[simp] theorem State.setItems_staging (l : List Item) : (s.setItems l).staging = s.staging := rfl
@[simp] theorem State.setItems_bays (l : List Item) : (s.setItems l).bays = s.bays := rfl
@[simp] theorem State.setItems_clock (l : List Item) : (s.setItems l).clock = s.clock := rfl
@[simp] theorem State.setItems_meters (l : List Item) : (s.setItems l).meters = s.meters := rfl
@[simp] theorem State.setItems_capture (l : List Item) : (s.setItems l).capture = s.capture := rfl
@[simp] theorem State.setItems_notices (l : List Item) : (s.setItems l).notices = s.notices := rfl
@[simp] theorem State.setItems_hostMem (l : List Item) : (s.setItems l).hostMem = s.hostMem := rfl
@[simp] theorem State.setItems_pending (l : List Item) : (s.setItems l).pending = s.pending := rfl

@[simp] theorem State.startItem_engine_items (it : Item) : (s.startItem it).engine.items = s.engine.items ++ [it] := rfl
@[simp] theorem State.startItem_link (it : Item) : (s.startItem it).link = s.link := rfl
@[simp] theorem State.startItem_exchange (it : Item) : (s.startItem it).exchange = s.exchange := rfl
@[simp] theorem State.startItem_loans (it : Item) : (s.startItem it).loans = s.loans := rfl
@[simp] theorem State.startItem_shares (it : Item) : (s.startItem it).shares = s.shares := rfl
@[simp] theorem State.startItem_staging (it : Item) : (s.startItem it).staging = s.staging := rfl
@[simp] theorem State.startItem_bays (it : Item) : (s.startItem it).bays = s.bays := rfl
@[simp] theorem State.startItem_clock (it : Item) : (s.startItem it).clock = s.clock := rfl
@[simp] theorem State.startItem_meters (it : Item) : (s.startItem it).meters = s.meters := rfl
@[simp] theorem State.startItem_capture (it : Item) : (s.startItem it).capture = s.capture := rfl
@[simp] theorem State.startItem_notices (it : Item) : (s.startItem it).notices = s.notices := rfl
@[simp] theorem State.startItem_hostMem (it : Item) : (s.startItem it).hostMem = s.hostMem := rfl
@[simp] theorem State.startItem_pending (it : Item) : (s.startItem it).pending = s.pending := rfl

@[simp] theorem State.setBay_bays_records (b : Nat) (v : Bay) : (s.setBay b v).bays.records = Table.set .initial s.bays.records b v := rfl
@[simp] theorem State.setBay_bays_lines (b : Nat) (v : Bay) : (s.setBay b v).bays.lines = s.bays.lines := rfl
@[simp] theorem State.setBay_link (b : Nat) (v : Bay) : (s.setBay b v).link = s.link := rfl
@[simp] theorem State.setBay_exchange (b : Nat) (v : Bay) : (s.setBay b v).exchange = s.exchange := rfl
@[simp] theorem State.setBay_loans (b : Nat) (v : Bay) : (s.setBay b v).loans = s.loans := rfl
@[simp] theorem State.setBay_shares (b : Nat) (v : Bay) : (s.setBay b v).shares = s.shares := rfl
@[simp] theorem State.setBay_staging (b : Nat) (v : Bay) : (s.setBay b v).staging = s.staging := rfl
@[simp] theorem State.setBay_engine (b : Nat) (v : Bay) : (s.setBay b v).engine = s.engine := rfl
@[simp] theorem State.setBay_clock (b : Nat) (v : Bay) : (s.setBay b v).clock = s.clock := rfl
@[simp] theorem State.setBay_meters (b : Nat) (v : Bay) : (s.setBay b v).meters = s.meters := rfl
@[simp] theorem State.setBay_capture (b : Nat) (v : Bay) : (s.setBay b v).capture = s.capture := rfl
@[simp] theorem State.setBay_notices (b : Nat) (v : Bay) : (s.setBay b v).notices = s.notices := rfl
@[simp] theorem State.setBay_hostMem (b : Nat) (v : Bay) : (s.setBay b v).hostMem = s.hostMem := rfl
@[simp] theorem State.setBay_pending (b : Nat) (v : Bay) : (s.setBay b v).pending = s.pending := rfl

@[simp] theorem State.setLines_bays_lines (b : Nat) (v : Lines) : (s.setLines b v).bays.lines = Table.set .low s.bays.lines b v := rfl
@[simp] theorem State.setLines_bays_records (b : Nat) (v : Lines) : (s.setLines b v).bays.records = s.bays.records := rfl
@[simp] theorem State.setLines_link (b : Nat) (v : Lines) : (s.setLines b v).link = s.link := rfl
@[simp] theorem State.setLines_exchange (b : Nat) (v : Lines) : (s.setLines b v).exchange = s.exchange := rfl
@[simp] theorem State.setLines_loans (b : Nat) (v : Lines) : (s.setLines b v).loans = s.loans := rfl
@[simp] theorem State.setLines_shares (b : Nat) (v : Lines) : (s.setLines b v).shares = s.shares := rfl
@[simp] theorem State.setLines_staging (b : Nat) (v : Lines) : (s.setLines b v).staging = s.staging := rfl
@[simp] theorem State.setLines_engine (b : Nat) (v : Lines) : (s.setLines b v).engine = s.engine := rfl
@[simp] theorem State.setLines_clock (b : Nat) (v : Lines) : (s.setLines b v).clock = s.clock := rfl
@[simp] theorem State.setLines_meters (b : Nat) (v : Lines) : (s.setLines b v).meters = s.meters := rfl
@[simp] theorem State.setLines_capture (b : Nat) (v : Lines) : (s.setLines b v).capture = s.capture := rfl
@[simp] theorem State.setLines_notices (b : Nat) (v : Lines) : (s.setLines b v).notices = s.notices := rfl
@[simp] theorem State.setLines_hostMem (b : Nat) (v : Lines) : (s.setLines b v).hostMem = s.hostMem := rfl
@[simp] theorem State.setLines_pending (b : Nat) (v : Lines) : (s.setLines b v).pending = s.pending := rfl

@[simp] theorem State.setMeter_meters_groups (g : Nat) (v : GroupMeter) :
    (s.setMeter g v).meters.groups = Table.set .zero s.meters.groups g v := rfl
@[simp] theorem State.setMeter_meters_noGroup (g : Nat) (v : GroupMeter) : (s.setMeter g v).meters.noGroup = s.meters.noGroup := rfl
@[simp] theorem State.setMeter_meters_periodSeq (g : Nat) (v : GroupMeter) : (s.setMeter g v).meters.periodSeq = s.meters.periodSeq := rfl
@[simp] theorem State.setMeter_meters_endStamp (g : Nat) (v : GroupMeter) : (s.setMeter g v).meters.endStamp = s.meters.endStamp := rfl
@[simp] theorem State.setMeter_link (g : Nat) (v : GroupMeter) : (s.setMeter g v).link = s.link := rfl
@[simp] theorem State.setMeter_exchange (g : Nat) (v : GroupMeter) : (s.setMeter g v).exchange = s.exchange := rfl
@[simp] theorem State.setMeter_loans (g : Nat) (v : GroupMeter) : (s.setMeter g v).loans = s.loans := rfl
@[simp] theorem State.setMeter_shares (g : Nat) (v : GroupMeter) : (s.setMeter g v).shares = s.shares := rfl
@[simp] theorem State.setMeter_staging (g : Nat) (v : GroupMeter) : (s.setMeter g v).staging = s.staging := rfl
@[simp] theorem State.setMeter_engine (g : Nat) (v : GroupMeter) : (s.setMeter g v).engine = s.engine := rfl
@[simp] theorem State.setMeter_bays (g : Nat) (v : GroupMeter) : (s.setMeter g v).bays = s.bays := rfl
@[simp] theorem State.setMeter_clock (g : Nat) (v : GroupMeter) : (s.setMeter g v).clock = s.clock := rfl
@[simp] theorem State.setMeter_capture (g : Nat) (v : GroupMeter) : (s.setMeter g v).capture = s.capture := rfl
@[simp] theorem State.setMeter_notices (g : Nat) (v : GroupMeter) : (s.setMeter g v).notices = s.notices := rfl
@[simp] theorem State.setMeter_hostMem (g : Nat) (v : GroupMeter) : (s.setMeter g v).hostMem = s.hostMem := rfl
@[simp] theorem State.setMeter_pending (g : Nat) (v : GroupMeter) : (s.setMeter g v).pending = s.pending := rfl

@[simp] theorem State.setFlags_notices_enable (f : NoticeBits) : (s.setFlags f).notices.enable = s.notices.enable := by
  show (Notices.renew _ _ _).enable = _; exact Notices.renew_enable _ _ _
@[simp] theorem State.setFlags_link (f : NoticeBits) : (s.setFlags f).link = s.link := rfl
@[simp] theorem State.setFlags_exchange (f : NoticeBits) : (s.setFlags f).exchange = s.exchange := rfl
@[simp] theorem State.setFlags_loans (f : NoticeBits) : (s.setFlags f).loans = s.loans := rfl
@[simp] theorem State.setFlags_shares (f : NoticeBits) : (s.setFlags f).shares = s.shares := rfl
@[simp] theorem State.setFlags_staging (f : NoticeBits) : (s.setFlags f).staging = s.staging := rfl
@[simp] theorem State.setFlags_engine (f : NoticeBits) : (s.setFlags f).engine = s.engine := rfl
@[simp] theorem State.setFlags_bays (f : NoticeBits) : (s.setFlags f).bays = s.bays := rfl
@[simp] theorem State.setFlags_clock (f : NoticeBits) : (s.setFlags f).clock = s.clock := rfl
@[simp] theorem State.setFlags_meters (f : NoticeBits) : (s.setFlags f).meters = s.meters := rfl
@[simp] theorem State.setFlags_capture (f : NoticeBits) : (s.setFlags f).capture = s.capture := rfl
@[simp] theorem State.setFlags_hostMem (f : NoticeBits) : (s.setFlags f).hostMem = s.hostMem := rfl
@[simp] theorem State.setFlags_pending (f : NoticeBits) : (s.setFlags f).pending = s.pending := rfl

@[simp] theorem State.poke_hostMem (a : Nat) (bs : List Byte) : (s.poke a bs).hostMem = Memory.writeBytes s.hostMem a bs := rfl
@[simp] theorem State.poke_link (a : Nat) (bs : List Byte) : (s.poke a bs).link = s.link := rfl
@[simp] theorem State.poke_exchange (a : Nat) (bs : List Byte) : (s.poke a bs).exchange = s.exchange := rfl
@[simp] theorem State.poke_loans (a : Nat) (bs : List Byte) : (s.poke a bs).loans = s.loans := rfl
@[simp] theorem State.poke_shares (a : Nat) (bs : List Byte) : (s.poke a bs).shares = s.shares := rfl
@[simp] theorem State.poke_staging (a : Nat) (bs : List Byte) : (s.poke a bs).staging = s.staging := rfl
@[simp] theorem State.poke_engine (a : Nat) (bs : List Byte) : (s.poke a bs).engine = s.engine := rfl
@[simp] theorem State.poke_bays (a : Nat) (bs : List Byte) : (s.poke a bs).bays = s.bays := rfl
@[simp] theorem State.poke_clock (a : Nat) (bs : List Byte) : (s.poke a bs).clock = s.clock := rfl
@[simp] theorem State.poke_meters (a : Nat) (bs : List Byte) : (s.poke a bs).meters = s.meters := rfl
@[simp] theorem State.poke_capture (a : Nat) (bs : List Byte) : (s.poke a bs).capture = s.capture := rfl
@[simp] theorem State.poke_notices (a : Nat) (bs : List Byte) : (s.poke a bs).notices = s.notices := rfl
@[simp] theorem State.poke_pending (a : Nat) (bs : List Byte) : (s.poke a bs).pending = s.pending := rfl

@[simp] theorem State.smudge_hostMem (a n : Nat) : (s.smudge a n).hostMem = Memory.eraseBytes s.hostMem a n := rfl
@[simp] theorem State.smudge_link (a n : Nat) : (s.smudge a n).link = s.link := rfl
@[simp] theorem State.smudge_exchange (a n : Nat) : (s.smudge a n).exchange = s.exchange := rfl
@[simp] theorem State.smudge_loans (a n : Nat) : (s.smudge a n).loans = s.loans := rfl
@[simp] theorem State.smudge_shares (a n : Nat) : (s.smudge a n).shares = s.shares := rfl
@[simp] theorem State.smudge_staging (a n : Nat) : (s.smudge a n).staging = s.staging := rfl
@[simp] theorem State.smudge_engine (a n : Nat) : (s.smudge a n).engine = s.engine := rfl
@[simp] theorem State.smudge_bays (a n : Nat) : (s.smudge a n).bays = s.bays := rfl
@[simp] theorem State.smudge_clock (a n : Nat) : (s.smudge a n).clock = s.clock := rfl
@[simp] theorem State.smudge_meters (a n : Nat) : (s.smudge a n).meters = s.meters := rfl
@[simp] theorem State.smudge_capture (a n : Nat) : (s.smudge a n).capture = s.capture := rfl
@[simp] theorem State.smudge_notices (a n : Nat) : (s.smudge a n).notices = s.notices := rfl
@[simp] theorem State.smudge_pending (a n : Nat) : (s.smudge a n).pending = s.pending := rfl

@[simp] theorem State.queue_pending (cs : List Instr) : (s.queue cs).pending = s.pending ++ cs := rfl
@[simp] theorem State.queue_link (cs : List Instr) : (s.queue cs).link = s.link := rfl
@[simp] theorem State.queue_exchange (cs : List Instr) : (s.queue cs).exchange = s.exchange := rfl
@[simp] theorem State.queue_loans (cs : List Instr) : (s.queue cs).loans = s.loans := rfl
@[simp] theorem State.queue_shares (cs : List Instr) : (s.queue cs).shares = s.shares := rfl
@[simp] theorem State.queue_staging (cs : List Instr) : (s.queue cs).staging = s.staging := rfl
@[simp] theorem State.queue_engine (cs : List Instr) : (s.queue cs).engine = s.engine := rfl
@[simp] theorem State.queue_bays (cs : List Instr) : (s.queue cs).bays = s.bays := rfl
@[simp] theorem State.queue_clock (cs : List Instr) : (s.queue cs).clock = s.clock := rfl
@[simp] theorem State.queue_meters (cs : List Instr) : (s.queue cs).meters = s.meters := rfl
@[simp] theorem State.queue_capture (cs : List Instr) : (s.queue cs).capture = s.capture := rfl
@[simp] theorem State.queue_notices (cs : List Instr) : (s.queue cs).notices = s.notices := rfl
@[simp] theorem State.queue_hostMem (cs : List Instr) : (s.queue cs).hostMem = s.hostMem := rfl

@[simp] theorem State.returned_link_lastRead (w : Option Word) : (s.returned w).link.lastRead = w := rfl
@[simp] theorem State.returned_link_up (w : Option Word) : (s.returned w).link.up = s.link.up := rfl
@[simp] theorem State.returned_exchange (w : Option Word) : (s.returned w).exchange = s.exchange := rfl
@[simp] theorem State.returned_loans (w : Option Word) : (s.returned w).loans = s.loans := rfl
@[simp] theorem State.returned_shares (w : Option Word) : (s.returned w).shares = s.shares := rfl
@[simp] theorem State.returned_staging (w : Option Word) : (s.returned w).staging = s.staging := rfl
@[simp] theorem State.returned_engine (w : Option Word) : (s.returned w).engine = s.engine := rfl
@[simp] theorem State.returned_bays (w : Option Word) : (s.returned w).bays = s.bays := rfl
@[simp] theorem State.returned_clock (w : Option Word) : (s.returned w).clock = s.clock := rfl
@[simp] theorem State.returned_meters (w : Option Word) : (s.returned w).meters = s.meters := rfl
@[simp] theorem State.returned_capture (w : Option Word) : (s.returned w).capture = s.capture := rfl
@[simp] theorem State.returned_notices (w : Option Word) : (s.returned w).notices = s.notices := rfl
@[simp] theorem State.returned_hostMem (w : Option Word) : (s.returned w).hostMem = s.hostMem := rfl
@[simp] theorem State.returned_pending (w : Option Word) : (s.returned w).pending = s.pending := rfl

@[simp] theorem State.setPart_exchange_part (p : PartState) : (s.setPart p).exchange.part = p := rfl
@[simp] theorem State.setPart_exchange_resetCause (p : PartState) : (s.setPart p).exchange.resetCause = s.exchange.resetCause := rfl
@[simp] theorem State.setPart_exchange_haltCause (p : PartState) : (s.setPart p).exchange.haltCause = s.exchange.haltCause := rfl
@[simp] theorem State.setPart_exchange_errorInRestart (p : PartState) :
    (s.setPart p).exchange.errorInRestart = s.exchange.errorInRestart := rfl
@[simp] theorem State.setPart_exchange_base (p : PartState) : (s.setPart p).exchange.base = s.exchange.base := rfl
@[simp] theorem State.setPart_exchange_control (p : PartState) : (s.setPart p).exchange.control = s.exchange.control := rfl
@[simp] theorem State.setPart_exchange_postFifo (p : PartState) : (s.setPart p).exchange.postFifo = s.exchange.postFifo := rfl
@[simp] theorem State.setPart_exchange_strayPosts (p : PartState) : (s.setPart p).exchange.strayPosts = s.exchange.strayPosts := rfl
@[simp] theorem State.setPart_exchange_sweepTimer (p : PartState) : (s.setPart p).exchange.sweepTimer = s.exchange.sweepTimer := rfl
@[simp] theorem State.setPart_exchange_sweepTimerOn (p : PartState) : (s.setPart p).exchange.sweepTimerOn = s.exchange.sweepTimerOn := rfl
@[simp] theorem State.setPart_exchange_sweep (p : PartState) : (s.setPart p).exchange.sweep = s.exchange.sweep := rfl
@[simp] theorem State.setPart_exchange_take (p : PartState) : (s.setPart p).exchange.take = s.exchange.take := rfl
@[simp] theorem State.setPart_exchange_held (p : PartState) : (s.setPart p).exchange.held = s.exchange.held := rfl
@[simp] theorem State.setPart_exchange_awaiting (p : PartState) : (s.setPart p).exchange.awaiting = s.exchange.awaiting := rfl
@[simp] theorem State.setPart_exchange_answerList (p : PartState) : (s.setPart p).exchange.answerList = s.exchange.answerList := rfl
@[simp] theorem State.setPart_exchange_answerBusy (p : PartState) : (s.setPart p).exchange.answerBusy = s.exchange.answerBusy := rfl
@[simp] theorem State.setPart_exchange_answerQueue (p : PartState) : (s.setPart p).exchange.answerQueue = s.exchange.answerQueue := rfl
@[simp] theorem State.setPart_exchange_lapseQueue (p : PartState) : (s.setPart p).exchange.lapseQueue = s.exchange.lapseQueue := rfl
@[simp] theorem State.setPart_exchange_meterPort (p : PartState) : (s.setPart p).exchange.meterPort = s.exchange.meterPort := rfl
@[simp] theorem State.setPart_exchange_summaryPort (p : PartState) : (s.setPart p).exchange.summaryPort = s.exchange.summaryPort := rfl
@[simp] theorem State.setPart_exchange_summarySeq (p : PartState) : (s.setPart p).exchange.summarySeq = s.exchange.summarySeq := rfl
@[simp] theorem State.setPart_link (p : PartState) : (s.setPart p).link = s.link := rfl
@[simp] theorem State.setPart_loans (p : PartState) : (s.setPart p).loans = s.loans := rfl
@[simp] theorem State.setPart_shares (p : PartState) : (s.setPart p).shares = s.shares := rfl
@[simp] theorem State.setPart_staging (p : PartState) : (s.setPart p).staging = s.staging := rfl
@[simp] theorem State.setPart_engine (p : PartState) : (s.setPart p).engine = s.engine := rfl
@[simp] theorem State.setPart_bays (p : PartState) : (s.setPart p).bays = s.bays := rfl
@[simp] theorem State.setPart_clock (p : PartState) : (s.setPart p).clock = s.clock := rfl
@[simp] theorem State.setPart_meters (p : PartState) : (s.setPart p).meters = s.meters := rfl
@[simp] theorem State.setPart_capture (p : PartState) : (s.setPart p).capture = s.capture := rfl
@[simp] theorem State.setPart_notices (p : PartState) : (s.setPart p).notices = s.notices := rfl
@[simp] theorem State.setPart_hostMem (p : PartState) : (s.setPart p).hostMem = s.hostMem := rfl
@[simp] theorem State.setPart_pending (p : PartState) : (s.setPart p).pending = s.pending := rfl

@[simp] theorem State.setSweepTimer_exchange_sweepTimer (on : Bool) : (s.setSweepTimer on).exchange.sweepTimer = 0 := rfl
@[simp] theorem State.setSweepTimer_exchange_sweepTimerOn (on : Bool) : (s.setSweepTimer on).exchange.sweepTimerOn = on := rfl
@[simp] theorem State.setSweepTimer_exchange_part (on : Bool) : (s.setSweepTimer on).exchange.part = s.exchange.part := rfl
@[simp] theorem State.setSweepTimer_exchange_resetCause (on : Bool) :
    (s.setSweepTimer on).exchange.resetCause = s.exchange.resetCause := rfl
@[simp] theorem State.setSweepTimer_exchange_haltCause (on : Bool) : (s.setSweepTimer on).exchange.haltCause = s.exchange.haltCause := rfl
@[simp] theorem State.setSweepTimer_exchange_errorInRestart (on : Bool) :
    (s.setSweepTimer on).exchange.errorInRestart = s.exchange.errorInRestart := rfl
@[simp] theorem State.setSweepTimer_exchange_base (on : Bool) : (s.setSweepTimer on).exchange.base = s.exchange.base := rfl
@[simp] theorem State.setSweepTimer_exchange_control (on : Bool) : (s.setSweepTimer on).exchange.control = s.exchange.control := rfl
@[simp] theorem State.setSweepTimer_exchange_postFifo (on : Bool) : (s.setSweepTimer on).exchange.postFifo = s.exchange.postFifo := rfl
@[simp] theorem State.setSweepTimer_exchange_strayPosts (on : Bool) :
    (s.setSweepTimer on).exchange.strayPosts = s.exchange.strayPosts := rfl
@[simp] theorem State.setSweepTimer_exchange_sweep (on : Bool) : (s.setSweepTimer on).exchange.sweep = s.exchange.sweep := rfl
@[simp] theorem State.setSweepTimer_exchange_take (on : Bool) : (s.setSweepTimer on).exchange.take = s.exchange.take := rfl
@[simp] theorem State.setSweepTimer_exchange_held (on : Bool) : (s.setSweepTimer on).exchange.held = s.exchange.held := rfl
@[simp] theorem State.setSweepTimer_exchange_awaiting (on : Bool) : (s.setSweepTimer on).exchange.awaiting = s.exchange.awaiting := rfl
@[simp] theorem State.setSweepTimer_exchange_answerList (on : Bool) :
    (s.setSweepTimer on).exchange.answerList = s.exchange.answerList := rfl
@[simp] theorem State.setSweepTimer_exchange_answerBusy (on : Bool) :
    (s.setSweepTimer on).exchange.answerBusy = s.exchange.answerBusy := rfl
@[simp] theorem State.setSweepTimer_exchange_answerQueue (on : Bool) :
    (s.setSweepTimer on).exchange.answerQueue = s.exchange.answerQueue := rfl
@[simp] theorem State.setSweepTimer_exchange_lapseQueue (on : Bool) :
    (s.setSweepTimer on).exchange.lapseQueue = s.exchange.lapseQueue := rfl
@[simp] theorem State.setSweepTimer_exchange_meterPort (on : Bool) : (s.setSweepTimer on).exchange.meterPort = s.exchange.meterPort := rfl
@[simp] theorem State.setSweepTimer_exchange_summaryPort (on : Bool) :
    (s.setSweepTimer on).exchange.summaryPort = s.exchange.summaryPort := rfl
@[simp] theorem State.setSweepTimer_exchange_summarySeq (on : Bool) :
    (s.setSweepTimer on).exchange.summarySeq = s.exchange.summarySeq := rfl
@[simp] theorem State.setSweepTimer_link (on : Bool) : (s.setSweepTimer on).link = s.link := rfl
@[simp] theorem State.setSweepTimer_loans (on : Bool) : (s.setSweepTimer on).loans = s.loans := rfl
@[simp] theorem State.setSweepTimer_shares (on : Bool) : (s.setSweepTimer on).shares = s.shares := rfl
@[simp] theorem State.setSweepTimer_staging (on : Bool) : (s.setSweepTimer on).staging = s.staging := rfl
@[simp] theorem State.setSweepTimer_engine (on : Bool) : (s.setSweepTimer on).engine = s.engine := rfl
@[simp] theorem State.setSweepTimer_bays (on : Bool) : (s.setSweepTimer on).bays = s.bays := rfl
@[simp] theorem State.setSweepTimer_clock (on : Bool) : (s.setSweepTimer on).clock = s.clock := rfl
@[simp] theorem State.setSweepTimer_meters (on : Bool) : (s.setSweepTimer on).meters = s.meters := rfl
@[simp] theorem State.setSweepTimer_capture (on : Bool) : (s.setSweepTimer on).capture = s.capture := rfl
@[simp] theorem State.setSweepTimer_notices (on : Bool) : (s.setSweepTimer on).notices = s.notices := rfl
@[simp] theorem State.setSweepTimer_hostMem (on : Bool) : (s.setSweepTimer on).hostMem = s.hostMem := rfl
@[simp] theorem State.setSweepTimer_pending (on : Bool) : (s.setSweepTimer on).pending = s.pending := rfl

@[simp] theorem State.setSweep_exchange_sweep (w : Sweep) : (s.setSweep w).exchange.sweep = w := rfl
@[simp] theorem State.setSweep_exchange_part (w : Sweep) : (s.setSweep w).exchange.part = s.exchange.part := rfl
@[simp] theorem State.setSweep_exchange_resetCause (w : Sweep) : (s.setSweep w).exchange.resetCause = s.exchange.resetCause := rfl
@[simp] theorem State.setSweep_exchange_haltCause (w : Sweep) : (s.setSweep w).exchange.haltCause = s.exchange.haltCause := rfl
@[simp] theorem State.setSweep_exchange_errorInRestart (w : Sweep) :
    (s.setSweep w).exchange.errorInRestart = s.exchange.errorInRestart := rfl
@[simp] theorem State.setSweep_exchange_base (w : Sweep) : (s.setSweep w).exchange.base = s.exchange.base := rfl
@[simp] theorem State.setSweep_exchange_control (w : Sweep) : (s.setSweep w).exchange.control = s.exchange.control := rfl
@[simp] theorem State.setSweep_exchange_postFifo (w : Sweep) : (s.setSweep w).exchange.postFifo = s.exchange.postFifo := rfl
@[simp] theorem State.setSweep_exchange_strayPosts (w : Sweep) : (s.setSweep w).exchange.strayPosts = s.exchange.strayPosts := rfl
@[simp] theorem State.setSweep_exchange_sweepTimer (w : Sweep) : (s.setSweep w).exchange.sweepTimer = s.exchange.sweepTimer := rfl
@[simp] theorem State.setSweep_exchange_sweepTimerOn (w : Sweep) : (s.setSweep w).exchange.sweepTimerOn = s.exchange.sweepTimerOn := rfl
@[simp] theorem State.setSweep_exchange_take (w : Sweep) : (s.setSweep w).exchange.take = s.exchange.take := rfl
@[simp] theorem State.setSweep_exchange_held (w : Sweep) : (s.setSweep w).exchange.held = s.exchange.held := rfl
@[simp] theorem State.setSweep_exchange_awaiting (w : Sweep) : (s.setSweep w).exchange.awaiting = s.exchange.awaiting := rfl
@[simp] theorem State.setSweep_exchange_answerList (w : Sweep) : (s.setSweep w).exchange.answerList = s.exchange.answerList := rfl
@[simp] theorem State.setSweep_exchange_answerBusy (w : Sweep) : (s.setSweep w).exchange.answerBusy = s.exchange.answerBusy := rfl
@[simp] theorem State.setSweep_exchange_answerQueue (w : Sweep) : (s.setSweep w).exchange.answerQueue = s.exchange.answerQueue := rfl
@[simp] theorem State.setSweep_exchange_lapseQueue (w : Sweep) : (s.setSweep w).exchange.lapseQueue = s.exchange.lapseQueue := rfl
@[simp] theorem State.setSweep_exchange_meterPort (w : Sweep) : (s.setSweep w).exchange.meterPort = s.exchange.meterPort := rfl
@[simp] theorem State.setSweep_exchange_summaryPort (w : Sweep) : (s.setSweep w).exchange.summaryPort = s.exchange.summaryPort := rfl
@[simp] theorem State.setSweep_exchange_summarySeq (w : Sweep) : (s.setSweep w).exchange.summarySeq = s.exchange.summarySeq := rfl
@[simp] theorem State.setSweep_link (w : Sweep) : (s.setSweep w).link = s.link := rfl
@[simp] theorem State.setSweep_loans (w : Sweep) : (s.setSweep w).loans = s.loans := rfl
@[simp] theorem State.setSweep_shares (w : Sweep) : (s.setSweep w).shares = s.shares := rfl
@[simp] theorem State.setSweep_staging (w : Sweep) : (s.setSweep w).staging = s.staging := rfl
@[simp] theorem State.setSweep_engine (w : Sweep) : (s.setSweep w).engine = s.engine := rfl
@[simp] theorem State.setSweep_bays (w : Sweep) : (s.setSweep w).bays = s.bays := rfl
@[simp] theorem State.setSweep_clock (w : Sweep) : (s.setSweep w).clock = s.clock := rfl
@[simp] theorem State.setSweep_meters (w : Sweep) : (s.setSweep w).meters = s.meters := rfl
@[simp] theorem State.setSweep_capture (w : Sweep) : (s.setSweep w).capture = s.capture := rfl
@[simp] theorem State.setSweep_notices (w : Sweep) : (s.setSweep w).notices = s.notices := rfl
@[simp] theorem State.setSweep_hostMem (w : Sweep) : (s.setSweep w).hostMem = s.hostMem := rfl
@[simp] theorem State.setSweep_pending (w : Sweep) : (s.setSweep w).pending = s.pending := rfl

@[simp] theorem State.setTake_exchange_take (t : Option Take) : (s.setTake t).exchange.take = t := rfl
@[simp] theorem State.setTake_exchange_part (t : Option Take) : (s.setTake t).exchange.part = s.exchange.part := rfl
@[simp] theorem State.setTake_exchange_resetCause (t : Option Take) : (s.setTake t).exchange.resetCause = s.exchange.resetCause := rfl
@[simp] theorem State.setTake_exchange_haltCause (t : Option Take) : (s.setTake t).exchange.haltCause = s.exchange.haltCause := rfl
@[simp] theorem State.setTake_exchange_errorInRestart (t : Option Take) :
    (s.setTake t).exchange.errorInRestart = s.exchange.errorInRestart := rfl
@[simp] theorem State.setTake_exchange_base (t : Option Take) : (s.setTake t).exchange.base = s.exchange.base := rfl
@[simp] theorem State.setTake_exchange_control (t : Option Take) : (s.setTake t).exchange.control = s.exchange.control := rfl
@[simp] theorem State.setTake_exchange_postFifo (t : Option Take) : (s.setTake t).exchange.postFifo = s.exchange.postFifo := rfl
@[simp] theorem State.setTake_exchange_strayPosts (t : Option Take) : (s.setTake t).exchange.strayPosts = s.exchange.strayPosts := rfl
@[simp] theorem State.setTake_exchange_sweepTimer (t : Option Take) : (s.setTake t).exchange.sweepTimer = s.exchange.sweepTimer := rfl
@[simp] theorem State.setTake_exchange_sweepTimerOn (t : Option Take) : (s.setTake t).exchange.sweepTimerOn = s.exchange.sweepTimerOn := rfl
@[simp] theorem State.setTake_exchange_sweep (t : Option Take) : (s.setTake t).exchange.sweep = s.exchange.sweep := rfl
@[simp] theorem State.setTake_exchange_held (t : Option Take) : (s.setTake t).exchange.held = s.exchange.held := rfl
@[simp] theorem State.setTake_exchange_awaiting (t : Option Take) : (s.setTake t).exchange.awaiting = s.exchange.awaiting := rfl
@[simp] theorem State.setTake_exchange_answerList (t : Option Take) : (s.setTake t).exchange.answerList = s.exchange.answerList := rfl
@[simp] theorem State.setTake_exchange_answerBusy (t : Option Take) : (s.setTake t).exchange.answerBusy = s.exchange.answerBusy := rfl
@[simp] theorem State.setTake_exchange_answerQueue (t : Option Take) : (s.setTake t).exchange.answerQueue = s.exchange.answerQueue := rfl
@[simp] theorem State.setTake_exchange_lapseQueue (t : Option Take) : (s.setTake t).exchange.lapseQueue = s.exchange.lapseQueue := rfl
@[simp] theorem State.setTake_exchange_meterPort (t : Option Take) : (s.setTake t).exchange.meterPort = s.exchange.meterPort := rfl
@[simp] theorem State.setTake_exchange_summaryPort (t : Option Take) : (s.setTake t).exchange.summaryPort = s.exchange.summaryPort := rfl
@[simp] theorem State.setTake_exchange_summarySeq (t : Option Take) : (s.setTake t).exchange.summarySeq = s.exchange.summarySeq := rfl
@[simp] theorem State.setTake_link (t : Option Take) : (s.setTake t).link = s.link := rfl
@[simp] theorem State.setTake_loans (t : Option Take) : (s.setTake t).loans = s.loans := rfl
@[simp] theorem State.setTake_shares (t : Option Take) : (s.setTake t).shares = s.shares := rfl
@[simp] theorem State.setTake_staging (t : Option Take) : (s.setTake t).staging = s.staging := rfl
@[simp] theorem State.setTake_engine (t : Option Take) : (s.setTake t).engine = s.engine := rfl
@[simp] theorem State.setTake_bays (t : Option Take) : (s.setTake t).bays = s.bays := rfl
@[simp] theorem State.setTake_clock (t : Option Take) : (s.setTake t).clock = s.clock := rfl
@[simp] theorem State.setTake_meters (t : Option Take) : (s.setTake t).meters = s.meters := rfl
@[simp] theorem State.setTake_capture (t : Option Take) : (s.setTake t).capture = s.capture := rfl
@[simp] theorem State.setTake_notices (t : Option Take) : (s.setTake t).notices = s.notices := rfl
@[simp] theorem State.setTake_hostMem (t : Option Take) : (s.setTake t).hostMem = s.hostMem := rfl
@[simp] theorem State.setTake_pending (t : Option Take) : (s.setTake t).pending = s.pending := rfl

@[simp] theorem State.strayPost_exchange_strayPosts : s.strayPost.exchange.strayPosts = min 255 (s.exchange.strayPosts + 1) := rfl
@[simp] theorem State.strayPost_exchange_part : s.strayPost.exchange.part = s.exchange.part := rfl
@[simp] theorem State.strayPost_exchange_resetCause : s.strayPost.exchange.resetCause = s.exchange.resetCause := rfl
@[simp] theorem State.strayPost_exchange_haltCause : s.strayPost.exchange.haltCause = s.exchange.haltCause := rfl
@[simp] theorem State.strayPost_exchange_errorInRestart : s.strayPost.exchange.errorInRestart = s.exchange.errorInRestart := rfl
@[simp] theorem State.strayPost_exchange_base : s.strayPost.exchange.base = s.exchange.base := rfl
@[simp] theorem State.strayPost_exchange_control : s.strayPost.exchange.control = s.exchange.control := rfl
@[simp] theorem State.strayPost_exchange_postFifo : s.strayPost.exchange.postFifo = s.exchange.postFifo := rfl
@[simp] theorem State.strayPost_exchange_sweepTimer : s.strayPost.exchange.sweepTimer = s.exchange.sweepTimer := rfl
@[simp] theorem State.strayPost_exchange_sweepTimerOn : s.strayPost.exchange.sweepTimerOn = s.exchange.sweepTimerOn := rfl
@[simp] theorem State.strayPost_exchange_sweep : s.strayPost.exchange.sweep = s.exchange.sweep := rfl
@[simp] theorem State.strayPost_exchange_take : s.strayPost.exchange.take = s.exchange.take := rfl
@[simp] theorem State.strayPost_exchange_held : s.strayPost.exchange.held = s.exchange.held := rfl
@[simp] theorem State.strayPost_exchange_awaiting : s.strayPost.exchange.awaiting = s.exchange.awaiting := rfl
@[simp] theorem State.strayPost_exchange_answerList : s.strayPost.exchange.answerList = s.exchange.answerList := rfl
@[simp] theorem State.strayPost_exchange_answerBusy : s.strayPost.exchange.answerBusy = s.exchange.answerBusy := rfl
@[simp] theorem State.strayPost_exchange_answerQueue : s.strayPost.exchange.answerQueue = s.exchange.answerQueue := rfl
@[simp] theorem State.strayPost_exchange_lapseQueue : s.strayPost.exchange.lapseQueue = s.exchange.lapseQueue := rfl
@[simp] theorem State.strayPost_exchange_meterPort : s.strayPost.exchange.meterPort = s.exchange.meterPort := rfl
@[simp] theorem State.strayPost_exchange_summaryPort : s.strayPost.exchange.summaryPort = s.exchange.summaryPort := rfl
@[simp] theorem State.strayPost_exchange_summarySeq : s.strayPost.exchange.summarySeq = s.exchange.summarySeq := rfl
@[simp] theorem State.strayPost_link : s.strayPost.link = s.link := rfl
@[simp] theorem State.strayPost_loans : s.strayPost.loans = s.loans := rfl
@[simp] theorem State.strayPost_shares : s.strayPost.shares = s.shares := rfl
@[simp] theorem State.strayPost_staging : s.strayPost.staging = s.staging := rfl
@[simp] theorem State.strayPost_engine : s.strayPost.engine = s.engine := rfl
@[simp] theorem State.strayPost_bays : s.strayPost.bays = s.bays := rfl
@[simp] theorem State.strayPost_clock : s.strayPost.clock = s.clock := rfl
@[simp] theorem State.strayPost_meters : s.strayPost.meters = s.meters := rfl
@[simp] theorem State.strayPost_capture : s.strayPost.capture = s.capture := rfl
@[simp] theorem State.strayPost_notices : s.strayPost.notices = s.notices := rfl
@[simp] theorem State.strayPost_hostMem : s.strayPost.hostMem = s.hostMem := rfl
@[simp] theorem State.strayPost_pending : s.strayPost.pending = s.pending := rfl

@[simp] theorem State.setTransfer_exchange_held (c : Nat) (t : Transfer) :
    (s.setTransfer c t).exchange.held = s.exchange.held.map (fun o => if o.cell = c then { o with transfer := some t } else o) := rfl
@[simp] theorem State.setTransfer_exchange_part (c : Nat) (t : Transfer) : (s.setTransfer c t).exchange.part = s.exchange.part := rfl
@[simp] theorem State.setTransfer_exchange_resetCause (c : Nat) (t : Transfer) :
    (s.setTransfer c t).exchange.resetCause = s.exchange.resetCause := rfl
@[simp] theorem State.setTransfer_exchange_haltCause (c : Nat) (t : Transfer) :
    (s.setTransfer c t).exchange.haltCause = s.exchange.haltCause := rfl
@[simp] theorem State.setTransfer_exchange_errorInRestart (c : Nat) (t : Transfer) :
    (s.setTransfer c t).exchange.errorInRestart = s.exchange.errorInRestart := rfl
@[simp] theorem State.setTransfer_exchange_base (c : Nat) (t : Transfer) : (s.setTransfer c t).exchange.base = s.exchange.base := rfl
@[simp] theorem State.setTransfer_exchange_control (c : Nat) (t : Transfer) :
    (s.setTransfer c t).exchange.control = s.exchange.control := rfl
@[simp] theorem State.setTransfer_exchange_postFifo (c : Nat) (t : Transfer) :
    (s.setTransfer c t).exchange.postFifo = s.exchange.postFifo := rfl
@[simp] theorem State.setTransfer_exchange_strayPosts (c : Nat) (t : Transfer) :
    (s.setTransfer c t).exchange.strayPosts = s.exchange.strayPosts := rfl
@[simp] theorem State.setTransfer_exchange_sweepTimer (c : Nat) (t : Transfer) :
    (s.setTransfer c t).exchange.sweepTimer = s.exchange.sweepTimer := rfl
@[simp] theorem State.setTransfer_exchange_sweepTimerOn (c : Nat) (t : Transfer) :
    (s.setTransfer c t).exchange.sweepTimerOn = s.exchange.sweepTimerOn := rfl
@[simp] theorem State.setTransfer_exchange_sweep (c : Nat) (t : Transfer) : (s.setTransfer c t).exchange.sweep = s.exchange.sweep := rfl
@[simp] theorem State.setTransfer_exchange_take (c : Nat) (t : Transfer) : (s.setTransfer c t).exchange.take = s.exchange.take := rfl
@[simp] theorem State.setTransfer_exchange_awaiting (c : Nat) (t : Transfer) :
    (s.setTransfer c t).exchange.awaiting = s.exchange.awaiting := rfl
@[simp] theorem State.setTransfer_exchange_answerList (c : Nat) (t : Transfer) :
    (s.setTransfer c t).exchange.answerList = s.exchange.answerList := rfl
@[simp] theorem State.setTransfer_exchange_answerBusy (c : Nat) (t : Transfer) :
    (s.setTransfer c t).exchange.answerBusy = s.exchange.answerBusy := rfl
@[simp] theorem State.setTransfer_exchange_answerQueue (c : Nat) (t : Transfer) :
    (s.setTransfer c t).exchange.answerQueue = s.exchange.answerQueue := rfl
@[simp] theorem State.setTransfer_exchange_lapseQueue (c : Nat) (t : Transfer) :
    (s.setTransfer c t).exchange.lapseQueue = s.exchange.lapseQueue := rfl
@[simp] theorem State.setTransfer_exchange_meterPort (c : Nat) (t : Transfer) :
    (s.setTransfer c t).exchange.meterPort = s.exchange.meterPort := rfl
@[simp] theorem State.setTransfer_exchange_summaryPort (c : Nat) (t : Transfer) :
    (s.setTransfer c t).exchange.summaryPort = s.exchange.summaryPort := rfl
@[simp] theorem State.setTransfer_exchange_summarySeq (c : Nat) (t : Transfer) :
    (s.setTransfer c t).exchange.summarySeq = s.exchange.summarySeq := rfl
@[simp] theorem State.setTransfer_link (c : Nat) (t : Transfer) : (s.setTransfer c t).link = s.link := rfl
@[simp] theorem State.setTransfer_loans (c : Nat) (t : Transfer) : (s.setTransfer c t).loans = s.loans := rfl
@[simp] theorem State.setTransfer_shares (c : Nat) (t : Transfer) : (s.setTransfer c t).shares = s.shares := rfl
@[simp] theorem State.setTransfer_staging (c : Nat) (t : Transfer) : (s.setTransfer c t).staging = s.staging := rfl
@[simp] theorem State.setTransfer_engine (c : Nat) (t : Transfer) : (s.setTransfer c t).engine = s.engine := rfl
@[simp] theorem State.setTransfer_bays (c : Nat) (t : Transfer) : (s.setTransfer c t).bays = s.bays := rfl
@[simp] theorem State.setTransfer_clock (c : Nat) (t : Transfer) : (s.setTransfer c t).clock = s.clock := rfl
@[simp] theorem State.setTransfer_meters (c : Nat) (t : Transfer) : (s.setTransfer c t).meters = s.meters := rfl
@[simp] theorem State.setTransfer_capture (c : Nat) (t : Transfer) : (s.setTransfer c t).capture = s.capture := rfl
@[simp] theorem State.setTransfer_notices (c : Nat) (t : Transfer) : (s.setTransfer c t).notices = s.notices := rfl
@[simp] theorem State.setTransfer_hostMem (c : Nat) (t : Transfer) : (s.setTransfer c t).hostMem = s.hostMem := rfl
@[simp] theorem State.setTransfer_pending (c : Nat) (t : Transfer) : (s.setTransfer c t).pending = s.pending := rfl

@[simp] theorem State.unhold_exchange_held (c : Nat) : (s.unhold c).exchange.held = s.exchange.held.filter (fun o => o.cell != c) := rfl
@[simp] theorem State.unhold_exchange_part (c : Nat) : (s.unhold c).exchange.part = s.exchange.part := rfl
@[simp] theorem State.unhold_exchange_resetCause (c : Nat) : (s.unhold c).exchange.resetCause = s.exchange.resetCause := rfl
@[simp] theorem State.unhold_exchange_haltCause (c : Nat) : (s.unhold c).exchange.haltCause = s.exchange.haltCause := rfl
@[simp] theorem State.unhold_exchange_errorInRestart (c : Nat) : (s.unhold c).exchange.errorInRestart = s.exchange.errorInRestart := rfl
@[simp] theorem State.unhold_exchange_base (c : Nat) : (s.unhold c).exchange.base = s.exchange.base := rfl
@[simp] theorem State.unhold_exchange_control (c : Nat) : (s.unhold c).exchange.control = s.exchange.control := rfl
@[simp] theorem State.unhold_exchange_postFifo (c : Nat) : (s.unhold c).exchange.postFifo = s.exchange.postFifo := rfl
@[simp] theorem State.unhold_exchange_strayPosts (c : Nat) : (s.unhold c).exchange.strayPosts = s.exchange.strayPosts := rfl
@[simp] theorem State.unhold_exchange_sweepTimer (c : Nat) : (s.unhold c).exchange.sweepTimer = s.exchange.sweepTimer := rfl
@[simp] theorem State.unhold_exchange_sweepTimerOn (c : Nat) : (s.unhold c).exchange.sweepTimerOn = s.exchange.sweepTimerOn := rfl
@[simp] theorem State.unhold_exchange_sweep (c : Nat) : (s.unhold c).exchange.sweep = s.exchange.sweep := rfl
@[simp] theorem State.unhold_exchange_take (c : Nat) : (s.unhold c).exchange.take = s.exchange.take := rfl
@[simp] theorem State.unhold_exchange_awaiting (c : Nat) : (s.unhold c).exchange.awaiting = s.exchange.awaiting := rfl
@[simp] theorem State.unhold_exchange_answerList (c : Nat) : (s.unhold c).exchange.answerList = s.exchange.answerList := rfl
@[simp] theorem State.unhold_exchange_answerBusy (c : Nat) : (s.unhold c).exchange.answerBusy = s.exchange.answerBusy := rfl
@[simp] theorem State.unhold_exchange_answerQueue (c : Nat) : (s.unhold c).exchange.answerQueue = s.exchange.answerQueue := rfl
@[simp] theorem State.unhold_exchange_lapseQueue (c : Nat) : (s.unhold c).exchange.lapseQueue = s.exchange.lapseQueue := rfl
@[simp] theorem State.unhold_exchange_meterPort (c : Nat) : (s.unhold c).exchange.meterPort = s.exchange.meterPort := rfl
@[simp] theorem State.unhold_exchange_summaryPort (c : Nat) : (s.unhold c).exchange.summaryPort = s.exchange.summaryPort := rfl
@[simp] theorem State.unhold_exchange_summarySeq (c : Nat) : (s.unhold c).exchange.summarySeq = s.exchange.summarySeq := rfl
@[simp] theorem State.unhold_link (c : Nat) : (s.unhold c).link = s.link := rfl
@[simp] theorem State.unhold_loans (c : Nat) : (s.unhold c).loans = s.loans := rfl
@[simp] theorem State.unhold_shares (c : Nat) : (s.unhold c).shares = s.shares := rfl
@[simp] theorem State.unhold_staging (c : Nat) : (s.unhold c).staging = s.staging := rfl
@[simp] theorem State.unhold_engine (c : Nat) : (s.unhold c).engine = s.engine := rfl
@[simp] theorem State.unhold_bays (c : Nat) : (s.unhold c).bays = s.bays := rfl
@[simp] theorem State.unhold_clock (c : Nat) : (s.unhold c).clock = s.clock := rfl
@[simp] theorem State.unhold_meters (c : Nat) : (s.unhold c).meters = s.meters := rfl
@[simp] theorem State.unhold_capture (c : Nat) : (s.unhold c).capture = s.capture := rfl
@[simp] theorem State.unhold_notices (c : Nat) : (s.unhold c).notices = s.notices := rfl
@[simp] theorem State.unhold_hostMem (c : Nat) : (s.unhold c).hostMem = s.hostMem := rfl
@[simp] theorem State.unhold_pending (c : Nat) : (s.unhold c).pending = s.pending := rfl

@[simp] theorem State.validated_exchange_awaiting (c : Nat) :
    (s.validated c).exchange.awaiting = s.exchange.awaiting.filter (fun a => a != c) := rfl
@[simp] theorem State.validated_exchange_part (c : Nat) : (s.validated c).exchange.part = s.exchange.part := rfl
@[simp] theorem State.validated_exchange_resetCause (c : Nat) : (s.validated c).exchange.resetCause = s.exchange.resetCause := rfl
@[simp] theorem State.validated_exchange_haltCause (c : Nat) : (s.validated c).exchange.haltCause = s.exchange.haltCause := rfl
@[simp] theorem State.validated_exchange_errorInRestart (c : Nat) :
    (s.validated c).exchange.errorInRestart = s.exchange.errorInRestart := rfl
@[simp] theorem State.validated_exchange_base (c : Nat) : (s.validated c).exchange.base = s.exchange.base := rfl
@[simp] theorem State.validated_exchange_control (c : Nat) : (s.validated c).exchange.control = s.exchange.control := rfl
@[simp] theorem State.validated_exchange_postFifo (c : Nat) : (s.validated c).exchange.postFifo = s.exchange.postFifo := rfl
@[simp] theorem State.validated_exchange_strayPosts (c : Nat) : (s.validated c).exchange.strayPosts = s.exchange.strayPosts := rfl
@[simp] theorem State.validated_exchange_sweepTimer (c : Nat) : (s.validated c).exchange.sweepTimer = s.exchange.sweepTimer := rfl
@[simp] theorem State.validated_exchange_sweepTimerOn (c : Nat) : (s.validated c).exchange.sweepTimerOn = s.exchange.sweepTimerOn := rfl
@[simp] theorem State.validated_exchange_sweep (c : Nat) : (s.validated c).exchange.sweep = s.exchange.sweep := rfl
@[simp] theorem State.validated_exchange_take (c : Nat) : (s.validated c).exchange.take = s.exchange.take := rfl
@[simp] theorem State.validated_exchange_held (c : Nat) : (s.validated c).exchange.held = s.exchange.held := rfl
@[simp] theorem State.validated_exchange_answerList (c : Nat) : (s.validated c).exchange.answerList = s.exchange.answerList := rfl
@[simp] theorem State.validated_exchange_answerBusy (c : Nat) : (s.validated c).exchange.answerBusy = s.exchange.answerBusy := rfl
@[simp] theorem State.validated_exchange_answerQueue (c : Nat) : (s.validated c).exchange.answerQueue = s.exchange.answerQueue := rfl
@[simp] theorem State.validated_exchange_lapseQueue (c : Nat) : (s.validated c).exchange.lapseQueue = s.exchange.lapseQueue := rfl
@[simp] theorem State.validated_exchange_meterPort (c : Nat) : (s.validated c).exchange.meterPort = s.exchange.meterPort := rfl
@[simp] theorem State.validated_exchange_summaryPort (c : Nat) : (s.validated c).exchange.summaryPort = s.exchange.summaryPort := rfl
@[simp] theorem State.validated_exchange_summarySeq (c : Nat) : (s.validated c).exchange.summarySeq = s.exchange.summarySeq := rfl
@[simp] theorem State.validated_link (c : Nat) : (s.validated c).link = s.link := rfl
@[simp] theorem State.validated_loans (c : Nat) : (s.validated c).loans = s.loans := rfl
@[simp] theorem State.validated_shares (c : Nat) : (s.validated c).shares = s.shares := rfl
@[simp] theorem State.validated_staging (c : Nat) : (s.validated c).staging = s.staging := rfl
@[simp] theorem State.validated_engine (c : Nat) : (s.validated c).engine = s.engine := rfl
@[simp] theorem State.validated_bays (c : Nat) : (s.validated c).bays = s.bays := rfl
@[simp] theorem State.validated_clock (c : Nat) : (s.validated c).clock = s.clock := rfl
@[simp] theorem State.validated_meters (c : Nat) : (s.validated c).meters = s.meters := rfl
@[simp] theorem State.validated_capture (c : Nat) : (s.validated c).capture = s.capture := rfl
@[simp] theorem State.validated_notices (c : Nat) : (s.validated c).notices = s.notices := rfl
@[simp] theorem State.validated_hostMem (c : Nat) : (s.validated c).hostMem = s.hostMem := rfl
@[simp] theorem State.validated_pending (c : Nat) : (s.validated c).pending = s.pending := rfl

@[simp] theorem State.putAnswer_exchange_answerList (w : AnswerWrite) :
    (s.putAnswer w).exchange.answerList = s.exchange.answerList ++ [w] := rfl
@[simp] theorem State.putAnswer_exchange_answerBusy (w : AnswerWrite) :
    (s.putAnswer w).exchange.answerBusy = (s.exchange.answerBusy || s.serving) := rfl
@[simp] theorem State.putAnswer_exchange_part (w : AnswerWrite) : (s.putAnswer w).exchange.part = s.exchange.part := rfl
@[simp] theorem State.putAnswer_exchange_resetCause (w : AnswerWrite) : (s.putAnswer w).exchange.resetCause = s.exchange.resetCause := rfl
@[simp] theorem State.putAnswer_exchange_haltCause (w : AnswerWrite) : (s.putAnswer w).exchange.haltCause = s.exchange.haltCause := rfl
@[simp] theorem State.putAnswer_exchange_errorInRestart (w : AnswerWrite) :
    (s.putAnswer w).exchange.errorInRestart = s.exchange.errorInRestart := rfl
@[simp] theorem State.putAnswer_exchange_base (w : AnswerWrite) : (s.putAnswer w).exchange.base = s.exchange.base := rfl
@[simp] theorem State.putAnswer_exchange_control (w : AnswerWrite) : (s.putAnswer w).exchange.control = s.exchange.control := rfl
@[simp] theorem State.putAnswer_exchange_postFifo (w : AnswerWrite) : (s.putAnswer w).exchange.postFifo = s.exchange.postFifo := rfl
@[simp] theorem State.putAnswer_exchange_strayPosts (w : AnswerWrite) : (s.putAnswer w).exchange.strayPosts = s.exchange.strayPosts := rfl
@[simp] theorem State.putAnswer_exchange_sweepTimer (w : AnswerWrite) : (s.putAnswer w).exchange.sweepTimer = s.exchange.sweepTimer := rfl
@[simp] theorem State.putAnswer_exchange_sweepTimerOn (w : AnswerWrite) :
    (s.putAnswer w).exchange.sweepTimerOn = s.exchange.sweepTimerOn := rfl
@[simp] theorem State.putAnswer_exchange_sweep (w : AnswerWrite) : (s.putAnswer w).exchange.sweep = s.exchange.sweep := rfl
@[simp] theorem State.putAnswer_exchange_take (w : AnswerWrite) : (s.putAnswer w).exchange.take = s.exchange.take := rfl
@[simp] theorem State.putAnswer_exchange_held (w : AnswerWrite) : (s.putAnswer w).exchange.held = s.exchange.held := rfl
@[simp] theorem State.putAnswer_exchange_awaiting (w : AnswerWrite) : (s.putAnswer w).exchange.awaiting = s.exchange.awaiting := rfl
@[simp] theorem State.putAnswer_exchange_answerQueue (w : AnswerWrite) :
    (s.putAnswer w).exchange.answerQueue = s.exchange.answerQueue := rfl
@[simp] theorem State.putAnswer_exchange_lapseQueue (w : AnswerWrite) : (s.putAnswer w).exchange.lapseQueue = s.exchange.lapseQueue := rfl
@[simp] theorem State.putAnswer_exchange_meterPort (w : AnswerWrite) : (s.putAnswer w).exchange.meterPort = s.exchange.meterPort := rfl
@[simp] theorem State.putAnswer_exchange_summaryPort (w : AnswerWrite) :
    (s.putAnswer w).exchange.summaryPort = s.exchange.summaryPort := rfl
@[simp] theorem State.putAnswer_exchange_summarySeq (w : AnswerWrite) : (s.putAnswer w).exchange.summarySeq = s.exchange.summarySeq := rfl
@[simp] theorem State.putAnswer_link (w : AnswerWrite) : (s.putAnswer w).link = s.link := rfl
@[simp] theorem State.putAnswer_loans (w : AnswerWrite) : (s.putAnswer w).loans = s.loans := rfl
@[simp] theorem State.putAnswer_shares (w : AnswerWrite) : (s.putAnswer w).shares = s.shares := rfl
@[simp] theorem State.putAnswer_staging (w : AnswerWrite) : (s.putAnswer w).staging = s.staging := rfl
@[simp] theorem State.putAnswer_engine (w : AnswerWrite) : (s.putAnswer w).engine = s.engine := rfl
@[simp] theorem State.putAnswer_bays (w : AnswerWrite) : (s.putAnswer w).bays = s.bays := rfl
@[simp] theorem State.putAnswer_clock (w : AnswerWrite) : (s.putAnswer w).clock = s.clock := rfl
@[simp] theorem State.putAnswer_meters (w : AnswerWrite) : (s.putAnswer w).meters = s.meters := rfl
@[simp] theorem State.putAnswer_capture (w : AnswerWrite) : (s.putAnswer w).capture = s.capture := rfl
@[simp] theorem State.putAnswer_notices (w : AnswerWrite) : (s.putAnswer w).notices = s.notices := rfl
@[simp] theorem State.putAnswer_hostMem (w : AnswerWrite) : (s.putAnswer w).hostMem = s.hostMem := rfl
@[simp] theorem State.putAnswer_pending (w : AnswerWrite) : (s.putAnswer w).pending = s.pending := rfl

@[simp] theorem State.nextAnswer_exchange_answerList (l : List AnswerWrite) : (s.nextAnswer l).exchange.answerList = l := rfl
@[simp] theorem State.nextAnswer_exchange_answerBusy (l : List AnswerWrite) : (s.nextAnswer l).exchange.answerBusy = !l.isEmpty := rfl
@[simp] theorem State.nextAnswer_exchange_part (l : List AnswerWrite) : (s.nextAnswer l).exchange.part = s.exchange.part := rfl
@[simp] theorem State.nextAnswer_exchange_resetCause (l : List AnswerWrite) :
    (s.nextAnswer l).exchange.resetCause = s.exchange.resetCause := rfl
@[simp] theorem State.nextAnswer_exchange_haltCause (l : List AnswerWrite) :
    (s.nextAnswer l).exchange.haltCause = s.exchange.haltCause := rfl
@[simp] theorem State.nextAnswer_exchange_errorInRestart (l : List AnswerWrite) :
    (s.nextAnswer l).exchange.errorInRestart = s.exchange.errorInRestart := rfl
@[simp] theorem State.nextAnswer_exchange_base (l : List AnswerWrite) : (s.nextAnswer l).exchange.base = s.exchange.base := rfl
@[simp] theorem State.nextAnswer_exchange_control (l : List AnswerWrite) : (s.nextAnswer l).exchange.control = s.exchange.control := rfl
@[simp] theorem State.nextAnswer_exchange_postFifo (l : List AnswerWrite) : (s.nextAnswer l).exchange.postFifo = s.exchange.postFifo := rfl
@[simp] theorem State.nextAnswer_exchange_strayPosts (l : List AnswerWrite) :
    (s.nextAnswer l).exchange.strayPosts = s.exchange.strayPosts := rfl
@[simp] theorem State.nextAnswer_exchange_sweepTimer (l : List AnswerWrite) :
    (s.nextAnswer l).exchange.sweepTimer = s.exchange.sweepTimer := rfl
@[simp] theorem State.nextAnswer_exchange_sweepTimerOn (l : List AnswerWrite) :
    (s.nextAnswer l).exchange.sweepTimerOn = s.exchange.sweepTimerOn := rfl
@[simp] theorem State.nextAnswer_exchange_sweep (l : List AnswerWrite) : (s.nextAnswer l).exchange.sweep = s.exchange.sweep := rfl
@[simp] theorem State.nextAnswer_exchange_take (l : List AnswerWrite) : (s.nextAnswer l).exchange.take = s.exchange.take := rfl
@[simp] theorem State.nextAnswer_exchange_held (l : List AnswerWrite) : (s.nextAnswer l).exchange.held = s.exchange.held := rfl
@[simp] theorem State.nextAnswer_exchange_awaiting (l : List AnswerWrite) : (s.nextAnswer l).exchange.awaiting = s.exchange.awaiting := rfl
@[simp] theorem State.nextAnswer_exchange_answerQueue (l : List AnswerWrite) :
    (s.nextAnswer l).exchange.answerQueue = s.exchange.answerQueue := rfl
@[simp] theorem State.nextAnswer_exchange_lapseQueue (l : List AnswerWrite) :
    (s.nextAnswer l).exchange.lapseQueue = s.exchange.lapseQueue := rfl
@[simp] theorem State.nextAnswer_exchange_meterPort (l : List AnswerWrite) :
    (s.nextAnswer l).exchange.meterPort = s.exchange.meterPort := rfl
@[simp] theorem State.nextAnswer_exchange_summaryPort (l : List AnswerWrite) :
    (s.nextAnswer l).exchange.summaryPort = s.exchange.summaryPort := rfl
@[simp] theorem State.nextAnswer_exchange_summarySeq (l : List AnswerWrite) :
    (s.nextAnswer l).exchange.summarySeq = s.exchange.summarySeq := rfl
@[simp] theorem State.nextAnswer_link (l : List AnswerWrite) : (s.nextAnswer l).link = s.link := rfl
@[simp] theorem State.nextAnswer_loans (l : List AnswerWrite) : (s.nextAnswer l).loans = s.loans := rfl
@[simp] theorem State.nextAnswer_shares (l : List AnswerWrite) : (s.nextAnswer l).shares = s.shares := rfl
@[simp] theorem State.nextAnswer_staging (l : List AnswerWrite) : (s.nextAnswer l).staging = s.staging := rfl
@[simp] theorem State.nextAnswer_engine (l : List AnswerWrite) : (s.nextAnswer l).engine = s.engine := rfl
@[simp] theorem State.nextAnswer_bays (l : List AnswerWrite) : (s.nextAnswer l).bays = s.bays := rfl
@[simp] theorem State.nextAnswer_clock (l : List AnswerWrite) : (s.nextAnswer l).clock = s.clock := rfl
@[simp] theorem State.nextAnswer_meters (l : List AnswerWrite) : (s.nextAnswer l).meters = s.meters := rfl
@[simp] theorem State.nextAnswer_capture (l : List AnswerWrite) : (s.nextAnswer l).capture = s.capture := rfl
@[simp] theorem State.nextAnswer_notices (l : List AnswerWrite) : (s.nextAnswer l).notices = s.notices := rfl
@[simp] theorem State.nextAnswer_hostMem (l : List AnswerWrite) : (s.nextAnswer l).hostMem = s.hostMem := rfl
@[simp] theorem State.nextAnswer_pending (l : List AnswerWrite) : (s.nextAnswer l).pending = s.pending := rfl

@[simp] theorem State.idleAnswers_exchange_answerBusy : s.idleAnswers.exchange.answerBusy = false := rfl
@[simp] theorem State.idleAnswers_exchange_part : s.idleAnswers.exchange.part = s.exchange.part := rfl
@[simp] theorem State.idleAnswers_exchange_resetCause : s.idleAnswers.exchange.resetCause = s.exchange.resetCause := rfl
@[simp] theorem State.idleAnswers_exchange_haltCause : s.idleAnswers.exchange.haltCause = s.exchange.haltCause := rfl
@[simp] theorem State.idleAnswers_exchange_errorInRestart : s.idleAnswers.exchange.errorInRestart = s.exchange.errorInRestart := rfl
@[simp] theorem State.idleAnswers_exchange_base : s.idleAnswers.exchange.base = s.exchange.base := rfl
@[simp] theorem State.idleAnswers_exchange_control : s.idleAnswers.exchange.control = s.exchange.control := rfl
@[simp] theorem State.idleAnswers_exchange_postFifo : s.idleAnswers.exchange.postFifo = s.exchange.postFifo := rfl
@[simp] theorem State.idleAnswers_exchange_strayPosts : s.idleAnswers.exchange.strayPosts = s.exchange.strayPosts := rfl
@[simp] theorem State.idleAnswers_exchange_sweepTimer : s.idleAnswers.exchange.sweepTimer = s.exchange.sweepTimer := rfl
@[simp] theorem State.idleAnswers_exchange_sweepTimerOn : s.idleAnswers.exchange.sweepTimerOn = s.exchange.sweepTimerOn := rfl
@[simp] theorem State.idleAnswers_exchange_sweep : s.idleAnswers.exchange.sweep = s.exchange.sweep := rfl
@[simp] theorem State.idleAnswers_exchange_take : s.idleAnswers.exchange.take = s.exchange.take := rfl
@[simp] theorem State.idleAnswers_exchange_held : s.idleAnswers.exchange.held = s.exchange.held := rfl
@[simp] theorem State.idleAnswers_exchange_awaiting : s.idleAnswers.exchange.awaiting = s.exchange.awaiting := rfl
@[simp] theorem State.idleAnswers_exchange_answerList : s.idleAnswers.exchange.answerList = s.exchange.answerList := rfl
@[simp] theorem State.idleAnswers_exchange_answerQueue : s.idleAnswers.exchange.answerQueue = s.exchange.answerQueue := rfl
@[simp] theorem State.idleAnswers_exchange_lapseQueue : s.idleAnswers.exchange.lapseQueue = s.exchange.lapseQueue := rfl
@[simp] theorem State.idleAnswers_exchange_meterPort : s.idleAnswers.exchange.meterPort = s.exchange.meterPort := rfl
@[simp] theorem State.idleAnswers_exchange_summaryPort : s.idleAnswers.exchange.summaryPort = s.exchange.summaryPort := rfl
@[simp] theorem State.idleAnswers_exchange_summarySeq : s.idleAnswers.exchange.summarySeq = s.exchange.summarySeq := rfl
@[simp] theorem State.idleAnswers_link : s.idleAnswers.link = s.link := rfl
@[simp] theorem State.idleAnswers_loans : s.idleAnswers.loans = s.loans := rfl
@[simp] theorem State.idleAnswers_shares : s.idleAnswers.shares = s.shares := rfl
@[simp] theorem State.idleAnswers_staging : s.idleAnswers.staging = s.staging := rfl
@[simp] theorem State.idleAnswers_engine : s.idleAnswers.engine = s.engine := rfl
@[simp] theorem State.idleAnswers_bays : s.idleAnswers.bays = s.bays := rfl
@[simp] theorem State.idleAnswers_clock : s.idleAnswers.clock = s.clock := rfl
@[simp] theorem State.idleAnswers_meters : s.idleAnswers.meters = s.meters := rfl
@[simp] theorem State.idleAnswers_capture : s.idleAnswers.capture = s.capture := rfl
@[simp] theorem State.idleAnswers_notices : s.idleAnswers.notices = s.notices := rfl
@[simp] theorem State.idleAnswers_hostMem : s.idleAnswers.hostMem = s.hostMem := rfl
@[simp] theorem State.idleAnswers_pending : s.idleAnswers.pending = s.pending := rfl

@[simp] theorem State.requestSummary_exchange_summaryPort : s.requestSummary.exchange.summaryPort = { s.exchange.summaryPort with held := true } := rfl
@[simp] theorem State.requestSummary_exchange_part : s.requestSummary.exchange.part = s.exchange.part := rfl
@[simp] theorem State.requestSummary_exchange_resetCause : s.requestSummary.exchange.resetCause = s.exchange.resetCause := rfl
@[simp] theorem State.requestSummary_exchange_haltCause : s.requestSummary.exchange.haltCause = s.exchange.haltCause := rfl
@[simp] theorem State.requestSummary_exchange_errorInRestart : s.requestSummary.exchange.errorInRestart = s.exchange.errorInRestart := rfl
@[simp] theorem State.requestSummary_exchange_base : s.requestSummary.exchange.base = s.exchange.base := rfl
@[simp] theorem State.requestSummary_exchange_control : s.requestSummary.exchange.control = s.exchange.control := rfl
@[simp] theorem State.requestSummary_exchange_postFifo : s.requestSummary.exchange.postFifo = s.exchange.postFifo := rfl
@[simp] theorem State.requestSummary_exchange_strayPosts : s.requestSummary.exchange.strayPosts = s.exchange.strayPosts := rfl
@[simp] theorem State.requestSummary_exchange_sweepTimer : s.requestSummary.exchange.sweepTimer = s.exchange.sweepTimer := rfl
@[simp] theorem State.requestSummary_exchange_sweepTimerOn : s.requestSummary.exchange.sweepTimerOn = s.exchange.sweepTimerOn := rfl
@[simp] theorem State.requestSummary_exchange_sweep : s.requestSummary.exchange.sweep = s.exchange.sweep := rfl
@[simp] theorem State.requestSummary_exchange_take : s.requestSummary.exchange.take = s.exchange.take := rfl
@[simp] theorem State.requestSummary_exchange_held : s.requestSummary.exchange.held = s.exchange.held := rfl
@[simp] theorem State.requestSummary_exchange_awaiting : s.requestSummary.exchange.awaiting = s.exchange.awaiting := rfl
@[simp] theorem State.requestSummary_exchange_answerList : s.requestSummary.exchange.answerList = s.exchange.answerList := rfl
@[simp] theorem State.requestSummary_exchange_answerBusy : s.requestSummary.exchange.answerBusy = s.exchange.answerBusy := rfl
@[simp] theorem State.requestSummary_exchange_answerQueue : s.requestSummary.exchange.answerQueue = s.exchange.answerQueue := rfl
@[simp] theorem State.requestSummary_exchange_lapseQueue : s.requestSummary.exchange.lapseQueue = s.exchange.lapseQueue := rfl
@[simp] theorem State.requestSummary_exchange_meterPort : s.requestSummary.exchange.meterPort = s.exchange.meterPort := rfl
@[simp] theorem State.requestSummary_exchange_summarySeq : s.requestSummary.exchange.summarySeq = s.exchange.summarySeq := rfl
@[simp] theorem State.requestSummary_link : s.requestSummary.link = s.link := rfl
@[simp] theorem State.requestSummary_loans : s.requestSummary.loans = s.loans := rfl
@[simp] theorem State.requestSummary_shares : s.requestSummary.shares = s.shares := rfl
@[simp] theorem State.requestSummary_staging : s.requestSummary.staging = s.staging := rfl
@[simp] theorem State.requestSummary_engine : s.requestSummary.engine = s.engine := rfl
@[simp] theorem State.requestSummary_bays : s.requestSummary.bays = s.bays := rfl
@[simp] theorem State.requestSummary_clock : s.requestSummary.clock = s.clock := rfl
@[simp] theorem State.requestSummary_meters : s.requestSummary.meters = s.meters := rfl
@[simp] theorem State.requestSummary_capture : s.requestSummary.capture = s.capture := rfl
@[simp] theorem State.requestSummary_notices : s.requestSummary.notices = s.notices := rfl
@[simp] theorem State.requestSummary_hostMem : s.requestSummary.hostMem = s.hostMem := rfl
@[simp] theorem State.requestSummary_pending : s.requestSummary.pending = s.pending := rfl

@[simp] theorem State.requestMeter_exchange_meterPort : s.requestMeter.exchange.meterPort = { s.exchange.meterPort with held := true } := rfl
@[simp] theorem State.requestMeter_exchange_part : s.requestMeter.exchange.part = s.exchange.part := rfl
@[simp] theorem State.requestMeter_exchange_resetCause : s.requestMeter.exchange.resetCause = s.exchange.resetCause := rfl
@[simp] theorem State.requestMeter_exchange_haltCause : s.requestMeter.exchange.haltCause = s.exchange.haltCause := rfl
@[simp] theorem State.requestMeter_exchange_errorInRestart : s.requestMeter.exchange.errorInRestart = s.exchange.errorInRestart := rfl
@[simp] theorem State.requestMeter_exchange_base : s.requestMeter.exchange.base = s.exchange.base := rfl
@[simp] theorem State.requestMeter_exchange_control : s.requestMeter.exchange.control = s.exchange.control := rfl
@[simp] theorem State.requestMeter_exchange_postFifo : s.requestMeter.exchange.postFifo = s.exchange.postFifo := rfl
@[simp] theorem State.requestMeter_exchange_strayPosts : s.requestMeter.exchange.strayPosts = s.exchange.strayPosts := rfl
@[simp] theorem State.requestMeter_exchange_sweepTimer : s.requestMeter.exchange.sweepTimer = s.exchange.sweepTimer := rfl
@[simp] theorem State.requestMeter_exchange_sweepTimerOn : s.requestMeter.exchange.sweepTimerOn = s.exchange.sweepTimerOn := rfl
@[simp] theorem State.requestMeter_exchange_sweep : s.requestMeter.exchange.sweep = s.exchange.sweep := rfl
@[simp] theorem State.requestMeter_exchange_take : s.requestMeter.exchange.take = s.exchange.take := rfl
@[simp] theorem State.requestMeter_exchange_held : s.requestMeter.exchange.held = s.exchange.held := rfl
@[simp] theorem State.requestMeter_exchange_awaiting : s.requestMeter.exchange.awaiting = s.exchange.awaiting := rfl
@[simp] theorem State.requestMeter_exchange_answerList : s.requestMeter.exchange.answerList = s.exchange.answerList := rfl
@[simp] theorem State.requestMeter_exchange_answerBusy : s.requestMeter.exchange.answerBusy = s.exchange.answerBusy := rfl
@[simp] theorem State.requestMeter_exchange_answerQueue : s.requestMeter.exchange.answerQueue = s.exchange.answerQueue := rfl
@[simp] theorem State.requestMeter_exchange_lapseQueue : s.requestMeter.exchange.lapseQueue = s.exchange.lapseQueue := rfl
@[simp] theorem State.requestMeter_exchange_summaryPort : s.requestMeter.exchange.summaryPort = s.exchange.summaryPort := rfl
@[simp] theorem State.requestMeter_exchange_summarySeq : s.requestMeter.exchange.summarySeq = s.exchange.summarySeq := rfl
@[simp] theorem State.requestMeter_link : s.requestMeter.link = s.link := rfl
@[simp] theorem State.requestMeter_loans : s.requestMeter.loans = s.loans := rfl
@[simp] theorem State.requestMeter_shares : s.requestMeter.shares = s.shares := rfl
@[simp] theorem State.requestMeter_staging : s.requestMeter.staging = s.staging := rfl
@[simp] theorem State.requestMeter_engine : s.requestMeter.engine = s.engine := rfl
@[simp] theorem State.requestMeter_bays : s.requestMeter.bays = s.bays := rfl
@[simp] theorem State.requestMeter_clock : s.requestMeter.clock = s.clock := rfl
@[simp] theorem State.requestMeter_meters : s.requestMeter.meters = s.meters := rfl
@[simp] theorem State.requestMeter_capture : s.requestMeter.capture = s.capture := rfl
@[simp] theorem State.requestMeter_notices : s.requestMeter.notices = s.notices := rfl
@[simp] theorem State.requestMeter_hostMem : s.requestMeter.hostMem = s.hostMem := rfl
@[simp] theorem State.requestMeter_pending : s.requestMeter.pending = s.pending := rfl

@[simp] theorem State.endSummaryWrite_exchange_summaryPort : s.endSummaryWrite.exchange.summaryPort = { s.exchange.summaryPort with inFlight := none } := rfl
@[simp] theorem State.endSummaryWrite_exchange_part : s.endSummaryWrite.exchange.part = s.exchange.part := rfl
@[simp] theorem State.endSummaryWrite_exchange_resetCause : s.endSummaryWrite.exchange.resetCause = s.exchange.resetCause := rfl
@[simp] theorem State.endSummaryWrite_exchange_haltCause : s.endSummaryWrite.exchange.haltCause = s.exchange.haltCause := rfl
@[simp] theorem State.endSummaryWrite_exchange_errorInRestart : s.endSummaryWrite.exchange.errorInRestart = s.exchange.errorInRestart := rfl
@[simp] theorem State.endSummaryWrite_exchange_base : s.endSummaryWrite.exchange.base = s.exchange.base := rfl
@[simp] theorem State.endSummaryWrite_exchange_control : s.endSummaryWrite.exchange.control = s.exchange.control := rfl
@[simp] theorem State.endSummaryWrite_exchange_postFifo : s.endSummaryWrite.exchange.postFifo = s.exchange.postFifo := rfl
@[simp] theorem State.endSummaryWrite_exchange_strayPosts : s.endSummaryWrite.exchange.strayPosts = s.exchange.strayPosts := rfl
@[simp] theorem State.endSummaryWrite_exchange_sweepTimer : s.endSummaryWrite.exchange.sweepTimer = s.exchange.sweepTimer := rfl
@[simp] theorem State.endSummaryWrite_exchange_sweepTimerOn : s.endSummaryWrite.exchange.sweepTimerOn = s.exchange.sweepTimerOn := rfl
@[simp] theorem State.endSummaryWrite_exchange_sweep : s.endSummaryWrite.exchange.sweep = s.exchange.sweep := rfl
@[simp] theorem State.endSummaryWrite_exchange_take : s.endSummaryWrite.exchange.take = s.exchange.take := rfl
@[simp] theorem State.endSummaryWrite_exchange_held : s.endSummaryWrite.exchange.held = s.exchange.held := rfl
@[simp] theorem State.endSummaryWrite_exchange_awaiting : s.endSummaryWrite.exchange.awaiting = s.exchange.awaiting := rfl
@[simp] theorem State.endSummaryWrite_exchange_answerList : s.endSummaryWrite.exchange.answerList = s.exchange.answerList := rfl
@[simp] theorem State.endSummaryWrite_exchange_answerBusy : s.endSummaryWrite.exchange.answerBusy = s.exchange.answerBusy := rfl
@[simp] theorem State.endSummaryWrite_exchange_answerQueue : s.endSummaryWrite.exchange.answerQueue = s.exchange.answerQueue := rfl
@[simp] theorem State.endSummaryWrite_exchange_lapseQueue : s.endSummaryWrite.exchange.lapseQueue = s.exchange.lapseQueue := rfl
@[simp] theorem State.endSummaryWrite_exchange_meterPort : s.endSummaryWrite.exchange.meterPort = s.exchange.meterPort := rfl
@[simp] theorem State.endSummaryWrite_exchange_summarySeq : s.endSummaryWrite.exchange.summarySeq = s.exchange.summarySeq := rfl
@[simp] theorem State.endSummaryWrite_link : s.endSummaryWrite.link = s.link := rfl
@[simp] theorem State.endSummaryWrite_loans : s.endSummaryWrite.loans = s.loans := rfl
@[simp] theorem State.endSummaryWrite_shares : s.endSummaryWrite.shares = s.shares := rfl
@[simp] theorem State.endSummaryWrite_staging : s.endSummaryWrite.staging = s.staging := rfl
@[simp] theorem State.endSummaryWrite_engine : s.endSummaryWrite.engine = s.engine := rfl
@[simp] theorem State.endSummaryWrite_bays : s.endSummaryWrite.bays = s.bays := rfl
@[simp] theorem State.endSummaryWrite_clock : s.endSummaryWrite.clock = s.clock := rfl
@[simp] theorem State.endSummaryWrite_meters : s.endSummaryWrite.meters = s.meters := rfl
@[simp] theorem State.endSummaryWrite_capture : s.endSummaryWrite.capture = s.capture := rfl
@[simp] theorem State.endSummaryWrite_notices : s.endSummaryWrite.notices = s.notices := rfl
@[simp] theorem State.endSummaryWrite_hostMem : s.endSummaryWrite.hostMem = s.hostMem := rfl
@[simp] theorem State.endSummaryWrite_pending : s.endSummaryWrite.pending = s.pending := rfl

@[simp] theorem State.endMeterWrite_exchange_meterPort : s.endMeterWrite.exchange.meterPort = { s.exchange.meterPort with inFlight := none } := rfl
@[simp] theorem State.endMeterWrite_exchange_part : s.endMeterWrite.exchange.part = s.exchange.part := rfl
@[simp] theorem State.endMeterWrite_exchange_resetCause : s.endMeterWrite.exchange.resetCause = s.exchange.resetCause := rfl
@[simp] theorem State.endMeterWrite_exchange_haltCause : s.endMeterWrite.exchange.haltCause = s.exchange.haltCause := rfl
@[simp] theorem State.endMeterWrite_exchange_errorInRestart : s.endMeterWrite.exchange.errorInRestart = s.exchange.errorInRestart := rfl
@[simp] theorem State.endMeterWrite_exchange_base : s.endMeterWrite.exchange.base = s.exchange.base := rfl
@[simp] theorem State.endMeterWrite_exchange_control : s.endMeterWrite.exchange.control = s.exchange.control := rfl
@[simp] theorem State.endMeterWrite_exchange_postFifo : s.endMeterWrite.exchange.postFifo = s.exchange.postFifo := rfl
@[simp] theorem State.endMeterWrite_exchange_strayPosts : s.endMeterWrite.exchange.strayPosts = s.exchange.strayPosts := rfl
@[simp] theorem State.endMeterWrite_exchange_sweepTimer : s.endMeterWrite.exchange.sweepTimer = s.exchange.sweepTimer := rfl
@[simp] theorem State.endMeterWrite_exchange_sweepTimerOn : s.endMeterWrite.exchange.sweepTimerOn = s.exchange.sweepTimerOn := rfl
@[simp] theorem State.endMeterWrite_exchange_sweep : s.endMeterWrite.exchange.sweep = s.exchange.sweep := rfl
@[simp] theorem State.endMeterWrite_exchange_take : s.endMeterWrite.exchange.take = s.exchange.take := rfl
@[simp] theorem State.endMeterWrite_exchange_held : s.endMeterWrite.exchange.held = s.exchange.held := rfl
@[simp] theorem State.endMeterWrite_exchange_awaiting : s.endMeterWrite.exchange.awaiting = s.exchange.awaiting := rfl
@[simp] theorem State.endMeterWrite_exchange_answerList : s.endMeterWrite.exchange.answerList = s.exchange.answerList := rfl
@[simp] theorem State.endMeterWrite_exchange_answerBusy : s.endMeterWrite.exchange.answerBusy = s.exchange.answerBusy := rfl
@[simp] theorem State.endMeterWrite_exchange_answerQueue : s.endMeterWrite.exchange.answerQueue = s.exchange.answerQueue := rfl
@[simp] theorem State.endMeterWrite_exchange_lapseQueue : s.endMeterWrite.exchange.lapseQueue = s.exchange.lapseQueue := rfl
@[simp] theorem State.endMeterWrite_exchange_summaryPort : s.endMeterWrite.exchange.summaryPort = s.exchange.summaryPort := rfl
@[simp] theorem State.endMeterWrite_exchange_summarySeq : s.endMeterWrite.exchange.summarySeq = s.exchange.summarySeq := rfl
@[simp] theorem State.endMeterWrite_link : s.endMeterWrite.link = s.link := rfl
@[simp] theorem State.endMeterWrite_loans : s.endMeterWrite.loans = s.loans := rfl
@[simp] theorem State.endMeterWrite_shares : s.endMeterWrite.shares = s.shares := rfl
@[simp] theorem State.endMeterWrite_staging : s.endMeterWrite.staging = s.staging := rfl
@[simp] theorem State.endMeterWrite_engine : s.endMeterWrite.engine = s.engine := rfl
@[simp] theorem State.endMeterWrite_bays : s.endMeterWrite.bays = s.bays := rfl
@[simp] theorem State.endMeterWrite_clock : s.endMeterWrite.clock = s.clock := rfl
@[simp] theorem State.endMeterWrite_meters : s.endMeterWrite.meters = s.meters := rfl
@[simp] theorem State.endMeterWrite_capture : s.endMeterWrite.capture = s.capture := rfl
@[simp] theorem State.endMeterWrite_notices : s.endMeterWrite.notices = s.notices := rfl
@[simp] theorem State.endMeterWrite_hostMem : s.endMeterWrite.hostMem = s.hostMem := rfl
@[simp] theorem State.endMeterWrite_pending : s.endMeterWrite.pending = s.pending := rfl

@[simp] theorem State.setLapseQueue_exchange_lapseQueue (q : List Nat) : (s.setLapseQueue q).exchange.lapseQueue = q := rfl
@[simp] theorem State.setLapseQueue_exchange_part (q : List Nat) : (s.setLapseQueue q).exchange.part = s.exchange.part := rfl
@[simp] theorem State.setLapseQueue_exchange_resetCause (q : List Nat) :
    (s.setLapseQueue q).exchange.resetCause = s.exchange.resetCause := rfl
@[simp] theorem State.setLapseQueue_exchange_haltCause (q : List Nat) : (s.setLapseQueue q).exchange.haltCause = s.exchange.haltCause := rfl
@[simp] theorem State.setLapseQueue_exchange_errorInRestart (q : List Nat) :
    (s.setLapseQueue q).exchange.errorInRestart = s.exchange.errorInRestart := rfl
@[simp] theorem State.setLapseQueue_exchange_base (q : List Nat) : (s.setLapseQueue q).exchange.base = s.exchange.base := rfl
@[simp] theorem State.setLapseQueue_exchange_control (q : List Nat) : (s.setLapseQueue q).exchange.control = s.exchange.control := rfl
@[simp] theorem State.setLapseQueue_exchange_postFifo (q : List Nat) : (s.setLapseQueue q).exchange.postFifo = s.exchange.postFifo := rfl
@[simp] theorem State.setLapseQueue_exchange_strayPosts (q : List Nat) :
    (s.setLapseQueue q).exchange.strayPosts = s.exchange.strayPosts := rfl
@[simp] theorem State.setLapseQueue_exchange_sweepTimer (q : List Nat) :
    (s.setLapseQueue q).exchange.sweepTimer = s.exchange.sweepTimer := rfl
@[simp] theorem State.setLapseQueue_exchange_sweepTimerOn (q : List Nat) :
    (s.setLapseQueue q).exchange.sweepTimerOn = s.exchange.sweepTimerOn := rfl
@[simp] theorem State.setLapseQueue_exchange_sweep (q : List Nat) : (s.setLapseQueue q).exchange.sweep = s.exchange.sweep := rfl
@[simp] theorem State.setLapseQueue_exchange_take (q : List Nat) : (s.setLapseQueue q).exchange.take = s.exchange.take := rfl
@[simp] theorem State.setLapseQueue_exchange_held (q : List Nat) : (s.setLapseQueue q).exchange.held = s.exchange.held := rfl
@[simp] theorem State.setLapseQueue_exchange_awaiting (q : List Nat) : (s.setLapseQueue q).exchange.awaiting = s.exchange.awaiting := rfl
@[simp] theorem State.setLapseQueue_exchange_answerList (q : List Nat) :
    (s.setLapseQueue q).exchange.answerList = s.exchange.answerList := rfl
@[simp] theorem State.setLapseQueue_exchange_answerBusy (q : List Nat) :
    (s.setLapseQueue q).exchange.answerBusy = s.exchange.answerBusy := rfl
@[simp] theorem State.setLapseQueue_exchange_answerQueue (q : List Nat) :
    (s.setLapseQueue q).exchange.answerQueue = s.exchange.answerQueue := rfl
@[simp] theorem State.setLapseQueue_exchange_meterPort (q : List Nat) : (s.setLapseQueue q).exchange.meterPort = s.exchange.meterPort := rfl
@[simp] theorem State.setLapseQueue_exchange_summaryPort (q : List Nat) :
    (s.setLapseQueue q).exchange.summaryPort = s.exchange.summaryPort := rfl
@[simp] theorem State.setLapseQueue_exchange_summarySeq (q : List Nat) :
    (s.setLapseQueue q).exchange.summarySeq = s.exchange.summarySeq := rfl
@[simp] theorem State.setLapseQueue_notices_enable (q : List Nat) : (s.setLapseQueue q).notices.enable = s.notices.enable := by
  show (Notices.renew _ _ _).enable = _; exact Notices.renew_enable _ _ _
@[simp] theorem State.setLapseQueue_link (q : List Nat) : (s.setLapseQueue q).link = s.link := rfl
@[simp] theorem State.setLapseQueue_loans (q : List Nat) : (s.setLapseQueue q).loans = s.loans := rfl
@[simp] theorem State.setLapseQueue_shares (q : List Nat) : (s.setLapseQueue q).shares = s.shares := rfl
@[simp] theorem State.setLapseQueue_staging (q : List Nat) : (s.setLapseQueue q).staging = s.staging := rfl
@[simp] theorem State.setLapseQueue_engine (q : List Nat) : (s.setLapseQueue q).engine = s.engine := rfl
@[simp] theorem State.setLapseQueue_bays (q : List Nat) : (s.setLapseQueue q).bays = s.bays := rfl
@[simp] theorem State.setLapseQueue_clock (q : List Nat) : (s.setLapseQueue q).clock = s.clock := rfl
@[simp] theorem State.setLapseQueue_meters (q : List Nat) : (s.setLapseQueue q).meters = s.meters := rfl
@[simp] theorem State.setLapseQueue_capture (q : List Nat) : (s.setLapseQueue q).capture = s.capture := rfl
@[simp] theorem State.setLapseQueue_hostMem (q : List Nat) : (s.setLapseQueue q).hostMem = s.hostMem := rfl
@[simp] theorem State.setLapseQueue_pending (q : List Nat) : (s.setLapseQueue q).pending = s.pending := rfl

@[simp] theorem State.shrinkAnswers_exchange_answerQueue (q : List Nat) : (s.shrinkAnswers q).exchange.answerQueue = q := rfl
@[simp] theorem State.shrinkAnswers_exchange_part (q : List Nat) : (s.shrinkAnswers q).exchange.part = s.exchange.part := rfl
@[simp] theorem State.shrinkAnswers_exchange_resetCause (q : List Nat) :
    (s.shrinkAnswers q).exchange.resetCause = s.exchange.resetCause := rfl
@[simp] theorem State.shrinkAnswers_exchange_haltCause (q : List Nat) : (s.shrinkAnswers q).exchange.haltCause = s.exchange.haltCause := rfl
@[simp] theorem State.shrinkAnswers_exchange_errorInRestart (q : List Nat) :
    (s.shrinkAnswers q).exchange.errorInRestart = s.exchange.errorInRestart := rfl
@[simp] theorem State.shrinkAnswers_exchange_base (q : List Nat) : (s.shrinkAnswers q).exchange.base = s.exchange.base := rfl
@[simp] theorem State.shrinkAnswers_exchange_control (q : List Nat) : (s.shrinkAnswers q).exchange.control = s.exchange.control := rfl
@[simp] theorem State.shrinkAnswers_exchange_postFifo (q : List Nat) : (s.shrinkAnswers q).exchange.postFifo = s.exchange.postFifo := rfl
@[simp] theorem State.shrinkAnswers_exchange_strayPosts (q : List Nat) :
    (s.shrinkAnswers q).exchange.strayPosts = s.exchange.strayPosts := rfl
@[simp] theorem State.shrinkAnswers_exchange_sweepTimer (q : List Nat) :
    (s.shrinkAnswers q).exchange.sweepTimer = s.exchange.sweepTimer := rfl
@[simp] theorem State.shrinkAnswers_exchange_sweepTimerOn (q : List Nat) :
    (s.shrinkAnswers q).exchange.sweepTimerOn = s.exchange.sweepTimerOn := rfl
@[simp] theorem State.shrinkAnswers_exchange_sweep (q : List Nat) : (s.shrinkAnswers q).exchange.sweep = s.exchange.sweep := rfl
@[simp] theorem State.shrinkAnswers_exchange_take (q : List Nat) : (s.shrinkAnswers q).exchange.take = s.exchange.take := rfl
@[simp] theorem State.shrinkAnswers_exchange_held (q : List Nat) : (s.shrinkAnswers q).exchange.held = s.exchange.held := rfl
@[simp] theorem State.shrinkAnswers_exchange_awaiting (q : List Nat) : (s.shrinkAnswers q).exchange.awaiting = s.exchange.awaiting := rfl
@[simp] theorem State.shrinkAnswers_exchange_answerList (q : List Nat) :
    (s.shrinkAnswers q).exchange.answerList = s.exchange.answerList := rfl
@[simp] theorem State.shrinkAnswers_exchange_answerBusy (q : List Nat) :
    (s.shrinkAnswers q).exchange.answerBusy = s.exchange.answerBusy := rfl
@[simp] theorem State.shrinkAnswers_exchange_lapseQueue (q : List Nat) :
    (s.shrinkAnswers q).exchange.lapseQueue = s.exchange.lapseQueue := rfl
@[simp] theorem State.shrinkAnswers_exchange_meterPort (q : List Nat) : (s.shrinkAnswers q).exchange.meterPort = s.exchange.meterPort := rfl
@[simp] theorem State.shrinkAnswers_exchange_summaryPort (q : List Nat) :
    (s.shrinkAnswers q).exchange.summaryPort = s.exchange.summaryPort := rfl
@[simp] theorem State.shrinkAnswers_exchange_summarySeq (q : List Nat) :
    (s.shrinkAnswers q).exchange.summarySeq = s.exchange.summarySeq := rfl
@[simp] theorem State.shrinkAnswers_notices_enable (q : List Nat) : (s.shrinkAnswers q).notices.enable = s.notices.enable := by
  show (Notices.renew _ _ _).enable = _; exact Notices.renew_enable _ _ _
@[simp] theorem State.shrinkAnswers_link (q : List Nat) : (s.shrinkAnswers q).link = s.link := rfl
@[simp] theorem State.shrinkAnswers_loans (q : List Nat) : (s.shrinkAnswers q).loans = s.loans := rfl
@[simp] theorem State.shrinkAnswers_shares (q : List Nat) : (s.shrinkAnswers q).shares = s.shares := rfl
@[simp] theorem State.shrinkAnswers_staging (q : List Nat) : (s.shrinkAnswers q).staging = s.staging := rfl
@[simp] theorem State.shrinkAnswers_engine (q : List Nat) : (s.shrinkAnswers q).engine = s.engine := rfl
@[simp] theorem State.shrinkAnswers_bays (q : List Nat) : (s.shrinkAnswers q).bays = s.bays := rfl
@[simp] theorem State.shrinkAnswers_clock (q : List Nat) : (s.shrinkAnswers q).clock = s.clock := rfl
@[simp] theorem State.shrinkAnswers_meters (q : List Nat) : (s.shrinkAnswers q).meters = s.meters := rfl
@[simp] theorem State.shrinkAnswers_capture (q : List Nat) : (s.shrinkAnswers q).capture = s.capture := rfl
@[simp] theorem State.shrinkAnswers_hostMem (q : List Nat) : (s.shrinkAnswers q).hostMem = s.hostMem := rfl
@[simp] theorem State.shrinkAnswers_pending (q : List Nat) : (s.shrinkAnswers q).pending = s.pending := rfl

@[simp] theorem State.growAnswers_exchange_answerQueue (c : Nat) :
    (s.growAnswers c).exchange.answerQueue = s.exchange.answerQueue ++ [c] := rfl
@[simp] theorem State.growAnswers_exchange_part (c : Nat) : (s.growAnswers c).exchange.part = s.exchange.part := rfl
@[simp] theorem State.growAnswers_exchange_resetCause (c : Nat) : (s.growAnswers c).exchange.resetCause = s.exchange.resetCause := rfl
@[simp] theorem State.growAnswers_exchange_haltCause (c : Nat) : (s.growAnswers c).exchange.haltCause = s.exchange.haltCause := rfl
@[simp] theorem State.growAnswers_exchange_errorInRestart (c : Nat) :
    (s.growAnswers c).exchange.errorInRestart = s.exchange.errorInRestart := rfl
@[simp] theorem State.growAnswers_exchange_base (c : Nat) : (s.growAnswers c).exchange.base = s.exchange.base := rfl
@[simp] theorem State.growAnswers_exchange_control (c : Nat) : (s.growAnswers c).exchange.control = s.exchange.control := rfl
@[simp] theorem State.growAnswers_exchange_postFifo (c : Nat) : (s.growAnswers c).exchange.postFifo = s.exchange.postFifo := rfl
@[simp] theorem State.growAnswers_exchange_strayPosts (c : Nat) : (s.growAnswers c).exchange.strayPosts = s.exchange.strayPosts := rfl
@[simp] theorem State.growAnswers_exchange_sweepTimer (c : Nat) : (s.growAnswers c).exchange.sweepTimer = s.exchange.sweepTimer := rfl
@[simp] theorem State.growAnswers_exchange_sweepTimerOn (c : Nat) : (s.growAnswers c).exchange.sweepTimerOn = s.exchange.sweepTimerOn := rfl
@[simp] theorem State.growAnswers_exchange_sweep (c : Nat) : (s.growAnswers c).exchange.sweep = s.exchange.sweep := rfl
@[simp] theorem State.growAnswers_exchange_take (c : Nat) : (s.growAnswers c).exchange.take = s.exchange.take := rfl
@[simp] theorem State.growAnswers_exchange_held (c : Nat) : (s.growAnswers c).exchange.held = s.exchange.held := rfl
@[simp] theorem State.growAnswers_exchange_awaiting (c : Nat) : (s.growAnswers c).exchange.awaiting = s.exchange.awaiting := rfl
@[simp] theorem State.growAnswers_exchange_answerList (c : Nat) : (s.growAnswers c).exchange.answerList = s.exchange.answerList := rfl
@[simp] theorem State.growAnswers_exchange_answerBusy (c : Nat) : (s.growAnswers c).exchange.answerBusy = s.exchange.answerBusy := rfl
@[simp] theorem State.growAnswers_exchange_lapseQueue (c : Nat) : (s.growAnswers c).exchange.lapseQueue = s.exchange.lapseQueue := rfl
@[simp] theorem State.growAnswers_exchange_meterPort (c : Nat) : (s.growAnswers c).exchange.meterPort = s.exchange.meterPort := rfl
@[simp] theorem State.growAnswers_exchange_summaryPort (c : Nat) : (s.growAnswers c).exchange.summaryPort = s.exchange.summaryPort := rfl
@[simp] theorem State.growAnswers_exchange_summarySeq (c : Nat) : (s.growAnswers c).exchange.summarySeq = s.exchange.summarySeq := rfl
@[simp] theorem State.growAnswers_notices_enable (c : Nat) : (s.growAnswers c).notices.enable = s.notices.enable := by
  show (Notices.renew _ _ _).enable = _; exact Notices.renew_enable _ _ _
@[simp] theorem State.growAnswers_link (c : Nat) : (s.growAnswers c).link = s.link := rfl
@[simp] theorem State.growAnswers_loans (c : Nat) : (s.growAnswers c).loans = s.loans := rfl
@[simp] theorem State.growAnswers_shares (c : Nat) : (s.growAnswers c).shares = s.shares := rfl
@[simp] theorem State.growAnswers_staging (c : Nat) : (s.growAnswers c).staging = s.staging := rfl
@[simp] theorem State.growAnswers_engine (c : Nat) : (s.growAnswers c).engine = s.engine := rfl
@[simp] theorem State.growAnswers_bays (c : Nat) : (s.growAnswers c).bays = s.bays := rfl
@[simp] theorem State.growAnswers_clock (c : Nat) : (s.growAnswers c).clock = s.clock := rfl
@[simp] theorem State.growAnswers_meters (c : Nat) : (s.growAnswers c).meters = s.meters := rfl
@[simp] theorem State.growAnswers_capture (c : Nat) : (s.growAnswers c).capture = s.capture := rfl
@[simp] theorem State.growAnswers_hostMem (c : Nat) : (s.growAnswers c).hostMem = s.hostMem := rfl
@[simp] theorem State.growAnswers_pending (c : Nat) : (s.growAnswers c).pending = s.pending := rfl

@[simp] theorem State.setLoan_waiting (n : Nat) (l : Loan) (m : Nat) : (s.setLoan n l).waiting m = s.waiting m := rfl
@[simp] theorem State.setWaiting_loan (b : Nat) (l : List Nat) (m : Nat) : (s.setWaiting b l).loan m = s.loan m := rfl
@[simp] theorem State.mapLoans_waiting (f : Loan → Loan) (m : Nat) : (s.mapLoans f).waiting m = s.waiting m := rfl
@[simp] theorem State.setGroup_fifo (g : Nat) (v : Group) (m k : Nat) : (s.setGroup g v).fifo m k = s.fifo m k := rfl
@[simp] theorem State.setGroup_arbiter (g : Nat) (v : Group) (m : Nat) : (s.setGroup g v).arbiter m = s.arbiter m := rfl
@[simp] theorem State.setFifo_group (b g : Nat) (q : Fifo) (m : Nat) : (s.setFifo b g q).group m = s.group m := rfl
@[simp] theorem State.setFifo_arbiter (b g : Nat) (q : Fifo) (m : Nat) : (s.setFifo b g q).arbiter m = s.arbiter m := rfl
@[simp] theorem State.setArbiter_group (b : Nat) (v : Arbiter) (m : Nat) : (s.setArbiter b v).group m = s.group m := rfl
@[simp] theorem State.setArbiter_fifo (b : Nat) (v : Arbiter) (m k : Nat) : (s.setArbiter b v).fifo m k = s.fifo m k := rfl
@[simp] theorem State.setResidency_slot (l : List Nat) (m : Nat) : (s.setResidency l).slot m = s.slot m := rfl
@[simp] theorem State.waitForSlot_slot (b : Nat) (m : Nat) : (s.waitForSlot b).slot m = s.slot m := rfl
@[simp] theorem State.leaveSlotWait_slot (b : Nat) (m : Nat) : (s.leaveSlotWait b).slot m = s.slot m := rfl
@[simp] theorem State.setBay_lines (b : Nat) (v : Bay) (m : Nat) : (s.setBay b v).lines m = s.lines m := rfl
@[simp] theorem State.setLines_bay (b : Nat) (v : Lines) (m : Nat) : (s.setLines b v).bay m = s.bay m := rfl
@[simp] theorem State.setPart_order (p : PartState) (m : Nat) : (s.setPart p).order? m = s.order? m := rfl
@[simp] theorem State.setSweepTimer_order (on : Bool) (m : Nat) : (s.setSweepTimer on).order? m = s.order? m := rfl
@[simp] theorem State.setSweepTimer_serving (on : Bool) : (s.setSweepTimer on).serving = s.serving := rfl
@[simp] theorem State.setSweep_order (w : Sweep) (m : Nat) : (s.setSweep w).order? m = s.order? m := rfl
@[simp] theorem State.setSweep_serving (w : Sweep) : (s.setSweep w).serving = s.serving := rfl
@[simp] theorem State.setTake_order (t : Option Take) (m : Nat) : (s.setTake t).order? m = s.order? m := rfl
@[simp] theorem State.setTake_serving (t : Option Take) : (s.setTake t).serving = s.serving := rfl
@[simp] theorem State.strayPost_order (m : Nat) : s.strayPost.order? m = s.order? m := rfl
@[simp] theorem State.strayPost_serving : s.strayPost.serving = s.serving := rfl
@[simp] theorem State.setTransfer_serving (c : Nat) (t : Transfer) : (s.setTransfer c t).serving = s.serving := rfl
@[simp] theorem State.unhold_serving (c : Nat) : (s.unhold c).serving = s.serving := rfl
@[simp] theorem State.validated_order (c : Nat) (m : Nat) : (s.validated c).order? m = s.order? m := rfl
@[simp] theorem State.validated_serving (c : Nat) : (s.validated c).serving = s.serving := rfl
@[simp] theorem State.putAnswer_order (w : AnswerWrite) (m : Nat) : (s.putAnswer w).order? m = s.order? m := rfl
@[simp] theorem State.putAnswer_serving (w : AnswerWrite) : (s.putAnswer w).serving = s.serving := rfl
@[simp] theorem State.nextAnswer_order (l : List AnswerWrite) (m : Nat) : (s.nextAnswer l).order? m = s.order? m := rfl
@[simp] theorem State.nextAnswer_serving (l : List AnswerWrite) : (s.nextAnswer l).serving = s.serving := rfl
@[simp] theorem State.idleAnswers_order (m : Nat) : s.idleAnswers.order? m = s.order? m := rfl
@[simp] theorem State.idleAnswers_serving : s.idleAnswers.serving = s.serving := rfl
@[simp] theorem State.requestSummary_order (m : Nat) : s.requestSummary.order? m = s.order? m := rfl
@[simp] theorem State.requestSummary_serving : s.requestSummary.serving = s.serving := rfl
@[simp] theorem State.requestMeter_order (m : Nat) : s.requestMeter.order? m = s.order? m := rfl
@[simp] theorem State.requestMeter_serving : s.requestMeter.serving = s.serving := rfl
@[simp] theorem State.endSummaryWrite_order (m : Nat) : s.endSummaryWrite.order? m = s.order? m := rfl
@[simp] theorem State.endSummaryWrite_serving : s.endSummaryWrite.serving = s.serving := rfl
@[simp] theorem State.endMeterWrite_order (m : Nat) : s.endMeterWrite.order? m = s.order? m := rfl
@[simp] theorem State.endMeterWrite_serving : s.endMeterWrite.serving = s.serving := rfl
@[simp] theorem State.setLapseQueue_order (q : List Nat) (m : Nat) : (s.setLapseQueue q).order? m = s.order? m := rfl
@[simp] theorem State.setLapseQueue_serving (q : List Nat) : (s.setLapseQueue q).serving = s.serving := rfl
@[simp] theorem State.shrinkAnswers_order (q : List Nat) (m : Nat) : (s.shrinkAnswers q).order? m = s.order? m := rfl
@[simp] theorem State.shrinkAnswers_serving (q : List Nat) : (s.shrinkAnswers q).serving = s.serving := rfl
@[simp] theorem State.growAnswers_order (c : Nat) (m : Nat) : (s.growAnswers c).order? m = s.order? m := rfl
@[simp] theorem State.growAnswers_serving (c : Nat) : (s.growAnswers c).serving = s.serving := rfl

end

end Sys2Proof.Machine
end

