-- ==== Sys2Proof/Laws/Notices.lean ====
section
/-! SUPPORT. What a change of the notice flags or enables does to the interrupt and its messages (R194), and how two such changes within
one event compose. -/
namespace Sys2Proof.Machine

/-- The interrupt followed its condition from n to m: asserted with one message where the condition became true, no message otherwise,
and the interrupt as it was while the condition stayed true (R194). -/
def Notices.Followed (n m : Notices) : Prop :=
  (n.condition = false → m.condition = true → m.interrupt = true ∧ m.messages = n.messages + 1)
    ∧ (n.condition = true ∨ m.condition = false → m.messages = n.messages ∧ (m.condition = true → m.interrupt = n.interrupt))
    ∧ ((n.interrupt = true → n.condition = true) → m.interrupt = true → m.condition = true)

theorem Notices.followed_refl (n : Notices) : n.Followed n := by
  unfold Notices.Followed; cases n.condition <;> simp

/-- The condition after a change depends on the new flags and enables alone. -/
theorem Notices.renew_condition (n : Notices) (f e : NoticeBits) : (n.renew f e).condition = ((f.and e).highest != 0) := by
  simp only [Notices.condition, Notices.shown, Notices.renew_flags, Notices.renew_enable]

/-- All that one change of flags or enables does. -/
theorem Notices.renew_followed (n : Notices) (f e : NoticeBits) : n.Followed (n.renew f e) := by
  have after := n.renew_condition f e
  unfold Notices.Followed
  rw [after]
  unfold Notices.renew
  have mid : ({ n with flags := f, enable := e } : Notices).condition = ((f.and e).highest != 0) := rfl
  simp only [mid]
  cases n.condition <;> cases ((f.and e).highest != 0) <;> simp

/-- Two changes within one event are one change, where the condition between them is that before or that after both. -/
theorem Notices.Followed.trans {n k m : Notices} (h : n.Followed k) (j : k.Followed m)
    (between : k.condition = n.condition ∨ k.condition = m.condition) : n.Followed m := by
  unfold Notices.Followed at *
  cases hn : n.condition <;> cases hk : k.condition <;> cases hm : m.condition <;> simp_all

end Sys2Proof.Machine
end

