-- ==== Sys2Proof/Laws/Table.lean ====
section
/-! SUPPORT. Reading a numbered table after an entry was set, and the same for every record of the state. -/
namespace Sys2Proof.Machine

section
variable {α : Type} (d v : α) (t : Table α) (m n : Nat)

theorem Table.get_filter_self : Table.get d (t.filter (fun e => e.1 != n)) n = d := by
  induction t with
  | nil => rfl
  | cons e t ih => by_cases h : e.1 = n <;> simp [Table.get, h, ih]

theorem Table.get_filter_ne (h : m ≠ n) : Table.get d (t.filter (fun e => e.1 != n)) m = Table.get d t m := by
  induction t with
  | nil => rfl
  | cons e t ih =>
    by_cases he : e.1 = n
    · simp [Table.get, he, ih, show n ≠ m from h.symm]
    · simp [Table.get, he, ih]

theorem Table.get_insert_self : Table.get d (Table.insert t n v) n = v := by
  induction t with
  | nil => simp [Table.insert, Table.get]
  | cons e t ih =>
    simp only [Table.insert]
    split
    · simp [Table.get]
    · split
      · simp [Table.get]
      · next h => simp [Table.get, ih, Ne.symm h]

theorem Table.get_insert_ne (h : m ≠ n) : Table.get d (Table.insert t n v) m = Table.get d t m := by
  induction t with
  | nil => simp [Table.insert, Table.get, h.symm]
  | cons e t ih =>
    simp only [Table.insert]
    split
    · simp [Table.get, h.symm]
    · split
      · next he => simp [Table.get, ← he, h.symm]
      · simp [Table.get, ih]

theorem Table.get_set [DecidableEq α] : Table.get d (Table.set d t n v) m = if m = n then v else Table.get d t m := by
  unfold Table.set
  split <;> split <;> simp_all [Table.get_filter_self, Table.get_filter_ne, Table.get_insert_self, Table.get_insert_ne]

theorem Table.get_map (f : α → α) (h : f d = d) : Table.get d (t.map (fun e => (e.1, f e.2))) n = f (Table.get d t n) := by
  induction t with
  | nil => simp [Table.get, h]
  | cons e t ih => simp only [List.map_cons, Table.get]; split <;> simp_all

theorem Table.mem_keys_of_get_ne (h : Table.get d t n ≠ d) : n ∈ Table.keys t := by
  induction t with
  | nil => simp [Table.get] at h
  | cons e t ih =>
    by_cases he : e.1 = n
    · simp [Table.keys, he]
    · simp only [Table.get, he, if_false] at h
      exact List.mem_cons_of_mem _ (ih h)

end

variable (s : State) (m n b c g h k : Nat)

@[simp] theorem State.loan_setLoan (l : Loan) : (s.setLoan n l).loan m = if m = n then l else s.loan m := Table.get_set ..
@[simp] theorem State.waiting_setWaiting (l : List Nat) : (s.setWaiting b l).waiting c = if c = b then l else s.waiting c :=
  Table.get_set ..
@[simp] theorem State.group_setGroup (v : Group) : (s.setGroup g v).group h = if h = g then v else s.group h := Table.get_set ..
@[simp] theorem State.arbiter_setArbiter (v : Arbiter) : (s.setArbiter b v).arbiter c = if c = b then v else s.arbiter c :=
  Table.get_set ..
@[simp] theorem State.slot_setSlot (v : Slot) : (s.setSlot k v).slot m = if m = k then v else s.slot m := Table.get_set ..
@[simp] theorem State.bay_setBay (v : Bay) : (s.setBay b v).bay c = if c = b then v else s.bay c := Table.get_set ..
@[simp] theorem State.lines_setLines (v : Lines) : (s.setLines b v).lines c = if c = b then v else s.lines c := Table.get_set ..
@[simp] theorem State.meter_setMeter (v : GroupMeter) : (s.setMeter g v).meter h = if h = g then v else s.meter h :=
  Table.get_set ..
theorem State.fifo_setFifo (q : Fifo) :
    (s.setFifo b g q).fifo c h = if fifoNumber c h = fifoNumber b g then q else s.fifo c h := Table.get_set ..
@[simp] theorem State.fifo_setFifo_self (q : Fifo) : (s.setFifo b g q).fifo b g = q := by simp [State.fifo_setFifo]

/-- FIFOs of groups 0-15 have numbers of their own. -/
theorem fifoNumber_inj (hg : g < 16) (hh : h < 16) : fifoNumber c h = fifoNumber b g ↔ c = b ∧ h = g := by
  simp only [fifoNumber, Config.numGroups]; omega

end Sys2Proof.Machine
end

