-- ==== Sys2Proof/Laws/Requests.lean ====
section
/-! SUPPORT. What the requests of the Bay Summary (R142) and of spin-ups (R68, R132) do, once for every command that makes them. -/
namespace Sys2Proof.Machine

/-! ## The Bay Summary -/

theorem State.beginFaultRecord_exchange (s : State) : s.beginFaultRecord.exchange = s.exchange := by
  unfold State.beginFaultRecord; split <;> rfl

theorem State.beginMeter_exchange (s : State) :
    s.beginMeter.exchange = { s.exchange with meterPort := s.beginMeter.exchange.meterPort } := by
  unfold State.beginMeter; split <;> rfl

/-- The beginning of record writes leaves every bay record as it was. -/
theorem State.beginRecords_bays (s : State) : s.beginRecords.bays = s.bays := by
  unfold State.beginRecords State.beginSummary State.beginMeter State.beginFaultRecord
  repeat' split
  all_goals rfl

/-- The part state is as it was when record writes have begun. -/
theorem State.beginRecords_part (s : State) : s.beginRecords.exchange.part = s.exchange.part := by
  unfold State.beginRecords State.beginSummary State.beginMeter State.beginFaultRecord
  repeat' split
  all_goals rfl

/-- What the beginning of record writes does to the Bay Summary: a held rewrite begins where it may, taking the bay records as they stand. -/
theorem State.beginRecords_summary (s : State) :
    if s.mayWriteRecords = true ∧ s.exchange.summaryPort.held = true ∧ s.exchange.summaryPort.inFlight = none then
      s.beginRecords.exchange.summarySeq = s.exchange.summarySeq + 1
        ∧ s.beginRecords.exchange.summaryPort =
          { held := false, inFlight := some { base := s.exchange.base, image := s.summaryImage (s.exchange.summarySeq + 1) } }
    else s.beginRecords.exchange.summarySeq = s.exchange.summarySeq
      ∧ s.beginRecords.exchange.summaryPort = s.exchange.summaryPort := by
  obtain ⟨u, hu⟩ : ∃ u, u = s.beginFaultRecord.beginMeter := ⟨_, rfl⟩
  have port : u.exchange.summaryPort = s.exchange.summaryPort := by
    rw [hu, State.beginMeter_exchange, State.beginFaultRecord_exchange]
  have seq : u.exchange.summarySeq = s.exchange.summarySeq := by
    rw [hu, State.beginMeter_exchange, State.beginFaultRecord_exchange]
  have base : u.exchange.base = s.exchange.base := by
    rw [hu, State.beginMeter_exchange, State.beginFaultRecord_exchange]
  have may : u.mayWriteRecords = s.mayWriteRecords := by
    rw [hu]; unfold State.mayWriteRecords State.serving
    rw [State.beginMeter_exchange, State.beginFaultRecord_exchange]
  have image : ∀ n, u.summaryImage n = s.summaryImage n := by
    have bays : u.bays = s.bays := by
      rw [hu]; unfold State.beginMeter State.beginFaultRecord; repeat' split
      all_goals rfl
    intro n; simp only [State.summaryImage, State.bay, bays]
  have all : s.beginRecords = u.beginSummary := by rw [hu]; rfl
  rw [all]
  unfold State.beginSummary
  simp only [may, port, seq, base, image, Bool.and_eq_true, Option.isNone_iff_eq_none, and_assoc]
  split <;> exact ⟨by simp_all, by simp_all⟩

/-- A request of a rewrite, made in an event that ends with the beginning of record writes, is a rewrite asked for. -/
theorem State.summaryAsked_of_request {s u : State} (port : u.exchange.summaryPort = { s.exchange.summaryPort with held := true })
    (seq : u.exchange.summarySeq = s.exchange.summarySeq) (base : u.exchange.base = s.exchange.base) :
    s.summaryAsked u.beginRecords := by
  have h := u.beginRecords_summary
  have image : ∀ n, u.beginRecords.summaryImage n = u.summaryImage n := by
    intro n; simp only [State.summaryImage, State.bay, State.beginRecords_bays]
  have serving : u.serving = true ↔ u.exchange.part ∈ [PartState.stopped, .running, .stopping] := by
    unfold State.serving; split <;> simp_all
  unfold State.summaryAsked
  simp only [State.mayWriteRecords, Bool.and_eq_true, bne_iff_ne, serving, and_assoc, true_and, port, seq, base] at h
  simp only [State.beginRecords_part, image]
  split <;> rename_i c
  · rw [if_pos ⟨c.1, c.2.2, c.2.1⟩] at h; exact h
  · rw [if_neg (fun k => c ⟨k.1, k.2.2, k.2.1⟩)] at h; exact h

/-- An event that makes no request asks for no rewrite. -/
theorem State.summaryNotAsked_of_same {s u : State} (port : u.exchange.summaryPort = s.exchange.summaryPort)
    (seq : u.exchange.summarySeq = s.exchange.summarySeq) : s.summaryNotAsked u.beginRecords := by
  intro held
  have h := u.beginRecords_summary
  rw [port, held] at h
  simp only [Bool.false_eq_true, false_and, and_false, if_false] at h
  exact ⟨h.2, h.1.trans seq⟩

/-! ## Spin-ups -/

/-- A state that differs in nothing but bay records and a Bay Summary request. -/
def State.withRecords (s : State) (records : Table Bay) (held : Bool) : State :=
  { s with bays := { s.bays with records := records },
           exchange := { s.exchange with summaryPort := { s.exchange.summaryPort with held := held } } }

theorem State.setBay_eq_withRecords (s : State) (b : Nat) (v : Bay) :
    ∃ r, s.setBay b v = s.withRecords r s.exchange.summaryPort.held := ⟨_, rfl⟩

theorem State.send_start (s : State) (b : Nat) :
    s.send b (.control .start) = s.setBay b { s.bay b with
      outstanding := (s.bay b).outstanding ++ [(s.bay b).firstSend .start], sends := (s.bay b).sends + 1, idleTicks := 0 } := by
  simp [State.send, Command.control, CommandKind.waitsForReady, Bay.firstSend]

theorem State.startSpinUp_form (s : State) (b : Nat) :
    (∃ r, s.startSpinUp b = s.withRecords r true) ∧ ∀ c, (s.startSpinUp b).bay c = if c = b then (s.bay b).startingUp else s.bay c := by
  unfold State.startSpinUp
  rw [State.send_start]
  refine ⟨⟨_, rfl⟩, fun c => ?_⟩
  have own : ∀ v, (s.putBay b v).bay b = v := fun v => by simp [State.putBay, State.bay, State.requestSummary, Table.get_set, State.setBay]
  have others : ∀ v c, c ≠ b → (s.putBay b v).bay c = s.bay c := fun v c hc => by
    simp [State.putBay, State.bay, State.requestSummary, Table.get_set, State.setBay, hc]
  rw [State.bay_setBay, own]
  split
  · rfl
  · next hc => exact others _ _ hc

/-- A head that a spin-up is asked for is what the scheduler looks for (R68). -/
theorem State.wantsSpinUp_iff (s : State) (b : Nat) :
    s.wantsSpinUp b ↔ allGroups.any (fun g => (s.readyHead b g).isSome) = true := by
  have free : (s.freeTag b).isSome = true ↔ ∃ i, i < 4 ∧ s.tagHolder b i = none := by
    simp [State.freeTag, List.find?_isSome, Config.numTags]
  have drains : ∀ x : Transfer, s.overDrain b x.first x.count = false ↔
      ∀ e ∈ s.staging.slots, e.2.state = .draining → e.2.overlapsOn b x.first x.count = false := by
    intro x; simp [State.overDrain, List.any_eq_false]
  simp only [List.any_eq_true, allGroups, List.mem_range, Config.numGroups]
  constructor
  · rintro ⟨g, c, tags, x, hg, hc, ht, hx, ready⟩
    refine ⟨g, hg, ?_⟩
    obtain ⟨w, hold, cap, tag, clear⟩ := ready
    obtain ⟨rest, ho⟩ : ∃ rest, (s.fifo b g).orders = c :: rest := by
      cases h : (s.fifo b g).orders with
      | nil => simp [h] at hc
      | cons d rest => simp [h] at hc; exact ⟨rest, by rw [hc]⟩
    have held : s.groupHeld g = false := by simpa [State.groupHeld] using hold
    simp [State.readyHead, ho, ht, hx, w, held, cap, free.2 tag, (drains x).2 clear]
  · rintro ⟨g, hg, h⟩
    unfold State.readyHead at h
    dsimp only at h
    split at h
    · rename_i c rest tags ho ht
      split at h
      · exact absurd h (by simp)
      · rename_i x hx
        split at h
        · rename_i k
          simp only [Bool.and_eq_true, decide_eq_true_eq, Bool.not_eq_true'] at k
          obtain ⟨⟨⟨⟨w, hold⟩, cap⟩, tag⟩, clear⟩ := k
          exact ⟨g, c, tags, x, hg, by simp [ho], ht, hx, w, by simpa [State.groupHeld] using hold, cap, free.1 tag, (drains x).1 clear⟩
        · exact absurd h (by simp)
    · exact absurd h (by simp)

/-- What a head needs of its disk depends on scheduler, staging memory, held orders and holds alone. -/
theorem State.wantsSpinUp_congr {s t : State} (shares : t.shares = s.shares) (staging : t.staging = s.staging)
    (held : t.exchange.held = s.exchange.held)
    (holds : t.capture.triggered = s.capture.triggered ∧ t.capture.holdMask = s.capture.holdMask) (b : Nat) :
    t.wantsSpinUp b ↔ s.wantsSpinUp b := by
  simp only [State.wantsSpinUp, State.headReady, State.tagHolder, State.arbiter, State.fifo, State.transfer?, State.order?,
    State.group, shares, staging, held, holds.1, holds.2]

/-- The beginning of record writes changes none of these. -/
theorem State.wantsSpinUp_beginRecords (s : State) (b : Nat) : s.beginRecords.wantsSpinUp b ↔ s.wantsSpinUp b := by
  refine State.wantsSpinUp_congr ?_ ?_ ?_ ?_ b
  all_goals
    unfold State.beginRecords State.beginSummary State.beginMeter State.beginFaultRecord
    repeat' split
  all_goals first | rfl | exact ⟨rfl, rfl⟩

/-- The record of a bay after a request (R132). -/
def Bay.asked (v : Bay) : Bay :=
  match v.state with
  | .spunDown => v.startingUp
  | .spinningDown => { v with spinUpPending := true }
  | _ => v

theorem Bay.asked_spunDown {v : Bay} (h : v.state = .spunDown) : v.asked = v.startingUp := by
  unfold Bay.asked; split <;> simp_all

theorem Bay.asked_spinningDown {v : Bay} (h : v.state = .spinningDown) : v.asked = { v with spinUpPending := true } := by
  unfold Bay.asked; split <;> simp_all

theorem Bay.asked_other {v : Bay} (down : v.state ≠ .spunDown) (spinning : v.state ≠ .spinningDown) : v.asked = v := by
  unfold Bay.asked; split <;> simp_all

/-- The scheduler asks for a spin-up of bay b: it makes choices, and a head needs the disk (R68, R76). -/
def State.asksSpinUp (s : State) (b : Nat) : Prop := s.working = true ∧ s.wantsSpinUp b

theorem State.requestSpinUp_none {s : State} {b : Nat} (h : ¬s.asksSpinUp b) : s.requestSpinUp b = s := by
  unfold State.requestSpinUp
  rw [if_neg]
  rw [Bool.and_eq_true, ← State.wantsSpinUp_iff]; exact h

/-- What a request does: the record of the bay takes it by its state, and a spin-up that starts requests a Bay Summary rewrite. -/
theorem State.requestSpinUp_asked {s : State} {b : Nat} (h : s.asksSpinUp b) :
    (∃ r held, s.requestSpinUp b = s.withRecords r held
      ∧ (held = true ↔ s.exchange.summaryPort.held = true ∨ (s.bay b).state = .spunDown))
    ∧ ∀ c, (s.requestSpinUp b).bay c = if c = b then (s.bay b).asked else s.bay c := by
  have cond : (s.working && allGroups.any (fun g => (s.readyHead b g).isSome)) = true := by
    rw [Bool.and_eq_true, ← State.wantsSpinUp_iff]; exact h
  unfold State.requestSpinUp
  rw [if_pos cond]
  split <;> rename_i st
  · obtain ⟨⟨r, hr⟩, bays⟩ := s.startSpinUp_form b
    rw [Bay.asked_spunDown st]
    exact ⟨⟨r, true, hr, by simp [st]⟩, bays⟩
  · rw [Bay.asked_spinningDown st]
    exact ⟨⟨_, _, rfl, by simp [st]⟩, fun c => State.bay_setBay ..⟩
  · rename_i down
    rw [Bay.asked_other down st]
    refine ⟨⟨s.bays.records, s.exchange.summaryPort.held, rfl, ?_⟩, fun c => ?_⟩
    · exact ⟨Or.inl, fun k => k.elim id (fun k => absurd k down)⟩
    · split
      · next h => rw [h]
      · rfl

/-- The requests of some bays, no bay twice: each bay that asks takes its request by its state, every other record is as it was. -/
theorem State.requestSpinUp_fold (bs : List Nat) : ∀ s : State, bs.Nodup →
    (∃ r held, bs.foldl (fun s b => s.requestSpinUp b) s = s.withRecords r held
      ∧ (held = true ↔ s.exchange.summaryPort.held = true ∨ ∃ b ∈ bs, s.asksSpinUp b ∧ (s.bay b).state = .spunDown))
    ∧ ∀ b, (b ∈ bs ∧ s.asksSpinUp b → (bs.foldl (fun s b => s.requestSpinUp b) s).bay b = (s.bay b).asked)
      ∧ (¬(b ∈ bs ∧ s.asksSpinUp b) → (bs.foldl (fun s b => s.requestSpinUp b) s).bay b = s.bay b) := by
  induction bs with
  | nil => exact fun s _ => ⟨⟨s.bays.records, s.exchange.summaryPort.held, rfl, by simp⟩, by simp⟩
  | cons b bs ih =>
    intro s nodup
    obtain ⟨fresh, nodup⟩ := List.nodup_cons.1 nodup
    obtain ⟨⟨r, held, form, asked⟩, bay⟩ : (∃ r held, s.requestSpinUp b = s.withRecords r held
        ∧ (held = true ↔ s.exchange.summaryPort.held = true ∨ (s.asksSpinUp b ∧ (s.bay b).state = .spunDown)))
        ∧ ∀ c, (c = b ∧ s.asksSpinUp b → (s.requestSpinUp b).bay c = (s.bay b).asked)
          ∧ (¬(c = b ∧ s.asksSpinUp b) → (s.requestSpinUp b).bay c = s.bay c) := by
      by_cases h : s.asksSpinUp b
      · obtain ⟨⟨r, held, form, asked⟩, bay⟩ := State.requestSpinUp_asked h
        exact ⟨⟨r, held, form, by simp [asked, h]⟩,
          fun c => ⟨fun k => by rw [bay, if_pos k.1], fun k => by rw [bay, if_neg (fun e => k ⟨e, h⟩)]⟩⟩
      · rw [State.requestSpinUp_none h]
        exact ⟨⟨s.bays.records, s.exchange.summaryPort.held, rfl, by simp [h]⟩, fun c => ⟨fun k => absurd k.2 h, fun _ => rfl⟩⟩
    have asks : ∀ c, (s.requestSpinUp b).asksSpinUp c ↔ s.asksSpinUp c := fun c => by rw [form]; exact Iff.rfl
    obtain ⟨⟨r', held', form', asked'⟩, bay'⟩ := ih (s.requestSpinUp b) nodup
    rw [List.foldl_cons]
    have port : (s.requestSpinUp b).exchange.summaryPort.held = held := by rw [form]; rfl
    have state : ∀ c ∈ bs, (s.requestSpinUp b).bay c = s.bay c := fun c hc =>
      (bay c).2 (fun k => fresh (k.1 ▸ hc))
    refine ⟨⟨r', held', by rw [form', form]; rfl, ?_⟩, fun c => ?_⟩
    · rw [asked', port, asked, or_assoc]
      refine or_congr Iff.rfl ⟨?_, ?_⟩
      · rintro (k | ⟨c, hc, a, st⟩)
        · exact ⟨b, by simp, k⟩
        · exact ⟨c, by simp [hc], (asks c).1 a, by rw [← state c hc]; exact st⟩
      · rintro ⟨c, hc, a, st⟩
        rcases List.mem_cons.1 hc with rfl | hc
        · exact .inl ⟨a, st⟩
        · exact .inr ⟨c, hc, (asks c).2 a, by rw [state c hc]; exact st⟩
    · by_cases own : c = b
      · subst own
        have out := (bay' c).2 (fun k => fresh k.1)
        exact ⟨fun k => out.trans ((bay c).1 ⟨rfl, k.2⟩), fun k => out.trans ((bay c).2 (fun h => k ⟨by simp, h.2⟩))⟩
      · have same := (bay c).2 (fun h => own h.1)
        refine ⟨fun k => ?_, fun k => ?_⟩
        · rw [(bay' c).1 ⟨by simpa [own] using k.1, (asks c).2 k.2⟩, same]
        · rw [(bay' c).2 (fun h => k ⟨by simp [h.1], (asks c).1 h.2⟩), same]

/-- The heads of every bay are looked at again (R67's table) in an event that ends with the beginning of record writes: asked from a
state u with the bay records of s, and followed by nothing that changes a bay record or the Bay Summary. -/
theorem State.spinUpsAsked_of_requests {s u v : State} (working : u.working = true) (bays : u.bays = s.bays)
    (exchange : u.exchange.summaryPort = s.exchange.summaryPort ∧ u.exchange.summarySeq = s.exchange.summarySeq
      ∧ u.exchange.base = s.exchange.base)
    (after : v.bays = u.requestSpinUps.bays ∧ v.exchange.summaryPort = u.requestSpinUps.exchange.summaryPort
      ∧ v.exchange.summarySeq = u.requestSpinUps.exchange.summarySeq ∧ v.exchange.base = u.requestSpinUps.exchange.base)
    (same : ∀ b, v.wantsSpinUp b ↔ u.wantsSpinUp b) : s.spinUpsAsked v.beginRecords := by
  obtain ⟨⟨r, held, form, asked⟩, bay⟩ := State.requestSpinUp_fold allBays u List.nodup_range
  have form : u.requestSpinUps = u.withRecords r held := form
  have sbay : ∀ b, u.bay b = s.bay b := fun b => by simp only [State.bay, bays]
  have tbay : ∀ b, v.beginRecords.bay b = u.requestSpinUps.bay b := fun b => by
    simp only [State.bay, State.beginRecords_bays, after.1]
  intro b hb
  have same : ∀ b, v.beginRecords.wantsSpinUp b ↔ u.wantsSpinUp b := fun b => (v.wantsSpinUp_beginRecords b).trans (same b)
  have mem : b ∈ allBays := by simpa [allBays, Config.numBays] using hb
  refine ⟨fun wants => ?_, fun wants => ?_⟩
  · have asks : u.asksSpinUp b := ⟨working, (same b).1 wants⟩
    have out := (tbay b).trans ((bay b).1 ⟨mem, asks⟩)
    rw [sbay] at out
    refine ⟨fun st => ⟨out.trans (Bay.asked_spunDown st), ?_⟩, fun st => out.trans (Bay.asked_spinningDown st),
      fun none => out.trans (Bay.asked_other (fun st => none (by simp [st])) (fun st => none (by simp [st])))⟩
    have h : held = true := asked.2 (.inr ⟨b, mem, asks, by rw [sbay]; exact st⟩)
    refine State.summaryAsked_of_request ?_ ?_ ?_
    · rw [after.2.1, form, h, ← exchange.1]; rfl
    · rw [after.2.2.1, form, ← exchange.2.1]; rfl
    · rw [after.2.2.2, form, ← exchange.2.2]; rfl
  · exact (tbay b).trans (((bay b).2 (fun h => wants ((same b).2 h.2.2))).trans (sbay b))

end Sys2Proof.Machine
end

