-- ==== Sys2Proof/WellFormed.lean ====
section
/-! DEFINITION. Which commands a sender may give: the word of a CONTROL write fits the row it is named by, a register offset is a
word's, and what comes with the end of a transfer fits a slot. -/
namespace Sys2Proof

/-- Bit 31 of CONTROL: a restart is requested (R196). -/
def Word.restarts (w : Word) : Bool := w.getLsbD 31

/-- Bit 0 of CONTROL (R196). -/
def Word.runs (w : Word) : Bool := w.getLsbD 0

/-- Staged bytes fit a slot of 1 MiB (R79). -/
def fitsSlot (data : Nat) : Bool := data >>> (8 * Config.blockBytes * 256) == 0

/-- A command that a sender may give. -/
def Instr.wf (i : Instr) : Bool :=
  match i with
  | .restart w => w.restarts
  | .run w => w.runs && !w.restarts
  | .runStop w => !w.runs && !w.restarts
  | .intakeMode w => !w.restarts
  | .answerMode w => !w.restarts
  | .sweepMs w => !w.restarts
  | .registerWriteIgnored offset _ => offset.toNat % 4 == 0
  | .deliveryEnd _ (.bufferError _ blocks) => blocks ≤ 256
  | .fetchEnd _ (.complete data) => fitsSlot data
  | .stagingError _ copied => copied.length == Config.numChannels && copied.all (fun n => n ≤ 256)
  | .diskReadEnd _ _ data => fitsSlot data
  | _ => true

end Sys2Proof
end

