-- ==== Sys2Proof/Tests/Slice0.lean ====
section
/-! SUPPORT. Tests: ill-formed commands are refused by the check; for every statement with hypotheses a state and operands that meet them,
clause by clause, with what the command then does; worked values of the spec. -/
namespace Sys2Proof.Tests

set_option Elab.async false

open Sys2Proof Sys2Proof.Machine

/-! ## Ill-formed commands -/

theorem test_wf_restart : Instr.wf (.restart 0x00000A05#32) = false ∧ Instr.wf (.restart 0x80000A05#32) = true := by decide +kernel
theorem test_wf_run : Instr.wf (.run 0x00000A04#32) = false ∧ Instr.wf (.run 0x80000A05#32) = false
    ∧ Instr.wf (.run 0x00000A05#32) = true := by decide +kernel
theorem test_wf_runStop : Instr.wf (.runStop 0x00000A05#32) = false ∧ Instr.wf (.runStop 0x80000A04#32) = false
    ∧ Instr.wf (.runStop 0x00000A04#32) = true := by decide +kernel
theorem test_wf_modes : Instr.wf (.intakeMode 0x80000000#32) = false ∧ Instr.wf (.answerMode 0x80000000#32) = false
    ∧ Instr.wf (.sweepMs 0x80000000#32) = false ∧ Instr.wf (.sweepMs 0x00000100#32) = true := by decide +kernel
theorem test_wf_offset : Instr.wf (.registerWriteIgnored 0x005#12 0#32) = false
    ∧ Instr.wf (.registerWriteIgnored 0x004#12 0#32) = true := by decide +kernel
theorem test_wf_deliveryEnd : Instr.wf (.deliveryEnd 0 (.bufferError 0 257)) = false
    ∧ Instr.wf (.deliveryEnd 0 (.bufferError 0 256)) = true := by decide +kernel
theorem test_wf_stagingError : Instr.wf (.stagingError 0 [0]) = false ∧ Instr.wf (.stagingError 0 [257, 0, 0, 0, 0, 0, 0, 0]) = false
    ∧ Instr.wf (.stagingError 0 [256, 0, 0, 0, 0, 0, 0, 0]) = true := by decide +kernel
theorem test_wf_data : Instr.wf (.fetchEnd 0 (.complete (1 <<< 8388608))) = false ∧ Instr.wf (.fetchEnd 0 (.complete 255)) = true
    ∧ Instr.wf (.diskReadEnd 0 ⟨0, 0⟩ (1 <<< 8388608)) = false ∧ Instr.wf (.diskReadEnd 0 ⟨0, 0⟩ 255) = true := by decide +kernel
theorem test_wf_free : Instr.wf .tick = true := by decide +kernel

/-! ## Small states -/

/-- What a command leaves. -/
def after (c : Instr) (s : State) : State :=
  match exec c s with
  | .next t => t
  | _ => s

/-- What a step leaves. -/
def stepped (s : State) : State :=
  match step s with
  | .next t => t
  | _ => s

/-- The exchange of a part in some state, with a base, RUN 1 and intake NOTIFIED. -/
def exchangeIn (p : PartState) : Exchange :=
  { Exchange.initial with part := p, base := 0x100000, control := { Control.initial with run := p == .running, intake := .notified } }

/-- The block at its power-on values, but for its part state. -/
def partIn (p : PartState) : State := { State.reset with exchange := exchangeIn p }

/-- A part that serves orders. -/
def running : State := partIn .running

/-- The part with other values of the Exchange Port. -/
def State.port (s : State) (f : Exchange → Exchange) : State := { s with exchange := f s.exchange }

/-- A copy of a POSTED cell: the fields that are not 0, as offset and value. -/
def copyOf (fields : List (Nat × Nat)) : BitVec 1024 :=
  BitVec.ofNat 1024 (fields.foldl (fun a e => a + e.2 <<< (8 * e.1)) 1)

/-- A held order that awaits validation. -/
def State.holding (s : State) (cell : Nat) (copy : BitVec 1024) : State :=
  State.port s (fun x => { x with held := x.held ++ [{ cell := cell, copy := copy, transfer := none }], awaiting := [cell] })

/-- The held order of a transfer that is under way. -/
def State.moving (s : State) (cell : Nat) (x : Transfer) : State :=
  State.port s (fun e => { e with held := e.held ++ [{ cell := cell, copy := copyOf [], transfer := some x }] })

/-- Bay b in a state, with a capacity of 100000 blocks and its lines high. -/
def State.withBay (s : State) (b : Nat) (st : BayState) : State :=
  (s.setBay b { Bay.initial with state := st, capacity := 100000 }).setLines b { presence := true, ready := true }

/-- A loan of node 9, group 3, bay 7, blocks 1000 to 1999. -/
def loanIn (st : LoanState) (m : LoanMode) : Loan :=
  { Loan.free with state := st, node := 9, group := 3, bay := 7, first := 1000, count := 1000, mode := m, term := 5, wait := 1 }

/-- Bay 7 ONLINE, loan 0 on it. -/
def lending (l : Loan) : State := (State.withBay running 7 .online).setLoan 0 l

/-- The transfer of a READ of 8 blocks under loan 0. -/
def readOf (loan : Option Nat) : Transfer :=
  { kind := .read, group := 3, bay := 7, first := 1000, count := 8, loan := loan, reserved := none, residue := 0 }

/-- The transfer of a WRITE of 8 blocks under loan 0. -/
def writeOf : Transfer :=
  { kind := .write, group := 3, bay := 7, first := 1000, count := 8, loan := some 0, reserved := none, residue := 0 }

/-- A transfer order of 8 blocks under loan 0, into or out of one segment. -/
def transferCopy (kind first : Nat) : BitVec 1024 :=
  copyOf [(1, kind), (4, 9), (12, first), (16, 8), (20, 1), (32, 0x10000000), (40, 32768)]

/-- A service order of 8 blocks on bay 7 for group 3. -/
def serviceCopy (kind first : Nat) : BitVec 1024 :=
  copyOf [(1, kind), (10, 3), (11, 7), (12, first), (16, 8), (20, 1), (32, 0x10000000), (40, 32768)]

/-! ## Steps and invariants -/

theorem test_step : ({ running with pending := [.tick, .post 5] } : State).pending = .tick :: [.post 5]
    ∧ stepped { running with pending := [.tick, .post 5] } = { after .tick running with pending := [.post 5] } := by decide +kernel

theorem test_idle : running.pending = [] ∧ (stepped running).clock.prescaler = 1 ∧ (stepped running).clock.microseconds = 1 := by
  decide +kernel

theorem test_timers_due : (let b : Bay := { Bay.initial with state := .online, readyLow := 1999, outstanding := [⟨.read, some 3, 0, 1, 0, 7999999, 0⟩] }
    (stepped { running.setBay 23 b with clock := { LoanClock.initial with microseconds := 999 } }).pending
      = [.cmdTimeout 23 ⟨some 3, 0⟩, .readyLost 23]) := by decide +kernel

theorem test_cycle_millisecond : (let b := fun (st : BayState) (r o : Nat) => { Bay.initial with state := st, readyLow := r, opTimer := o }
    let s : State := { ((running.setBay 0 (b .retiring 1999 5)).setBay 1 (b .admitting 7 19999)).setBay 23 (b .spinningUp 0 3) with
      clock := { LoanClock.initial with microseconds := 999 },
      exchange := { exchangeIn .running with sweepTimer := 9, sweepTimerOn := true, control := Control.initial } }
    let t := stepped s
    s.pending = [] ∧ t.pending = [.sweep, .readyLost 0, .operationTimeout 1] ∧ t.exchange.sweepTimer = 10
      ∧ (t.bay 0).readyLow = 2000 ∧ (t.bay 0).opTimer = 5 ∧ (t.bay 1).opTimer = 20000 ∧ (t.bay 23).opTimer = 4
      ∧ t.clock.microseconds = 0)
    ∧ (let s : State := { State.reset with clock := { LoanClock.initial with microseconds := 999, prescaler := 15, periodCounter := 62499 } }
       (stepped s).clock.microseconds = 999 ∧ (stepped s).pending = [.tick]) := by decide +kernel

theorem test_tick_due : (stepped { running with clock := { LoanClock.initial with prescaler := 15, periodCounter := 62499 } }).pending
    = [.tick] := by decide +kernel

theorem test_invariants_hold : running.conflictFree ∧ running.heldOnce ∧ running.noticesFollow ∧ running.memoryCanonical
    ∧ running.tablesOrdered ∧ running.intakeLimits ∧ running.captureLimits := by
  refine ⟨fun m n _ h _ => ?_, ⟨by decide, fun t h => ?_⟩, by unfold State.noticesFollow; decide +kernel,
    by unfold State.memoryCanonical; decide +kernel, ?_, by unfold State.intakeLimits; decide +kernel,
    by unfold State.captureLimits; decide +kernel⟩
  · exact absurd h (show ¬LoanState.inConflictSet .free = true by decide)
  · cases h
  · unfold State.tablesOrdered Table.ordered
    decide +kernel

theorem test_invariants_hold_too : running.waitingListed ∧ running.ordersChecked :=
  ⟨fun _ => ⟨List.nodup_nil, fun _ h => absurd h List.not_mem_nil⟩, fun _ h => absurd h List.not_mem_nil⟩

/-- A state where one bay has a waiting list keeps to its form. -/
theorem waitingListed_of_seven {s : State} {l : List Nat} (h : s.loans.waiting = [(7, l)]) (nodup : l.Nodup)
    (waits : ∀ n ∈ l, (s.loan n).state = .waiting ∧ (s.loan n).bay = 7) : s.waitingListed := by
  intro b
  by_cases hb : b = 7
  · subst hb
    have e : s.waiting 7 = l := by simp [State.waiting, h, Table.get]
    rw [e]
    exact ⟨nodup, waits⟩
  · have e : s.waiting b = [] := by simp [State.waiting, h, Table.get, Ne.symm hb]
    rw [e]
    exact ⟨List.nodup_nil, fun _ hn => absurd hn List.not_mem_nil⟩

/-- What holds of a free loan and of each listed one holds of every loan. -/
theorem loans_all {s : State} {P : Nat → Loan → Prop} (free : ∀ m, P m .free) (listed : ∀ e ∈ s.loans.table, P e.1 e.2) (m : Nat) :
    P m (s.loan m) := by
  unfold State.loan
  generalize s.loans.table = t at listed ⊢
  induction t with
  | nil => exact free m
  | cons e rest ih =>
    by_cases h : e.1 = m
    · simpa [Table.get, h] using h ▸ listed e (List.mem_cons_self ..)
    · simpa [Table.get, h] using ih (fun x hx => listed x (List.mem_cons_of_mem _ hx))

/-- A state each of whose held orders has passed its format check. -/
theorem ordersChecked_of_all {s : State} (h : s.exchange.held.all (fun o => o.transfer.all (fun x =>
      Copy.transferFailure o.copy x.kind == none && (x.kind == .appendWrite || x.count == Copy.count o.copy))) = true) :
    s.ordersChecked := by
  intro o ho x hx
  have hall := List.all_eq_true.mp h o ho
  simp only [hx, Option.all_some, Bool.and_eq_true, Bool.or_eq_true, beq_iff_eq] at hall
  exact ⟨hall.1, fun hk => hall.2.resolve_left hk⟩

/-! ## Resets and the link -/

theorem test_bringupEnd : State.reset.exchange.part = .bringup
    ∧ (let s := State.reset.setLines 23 { presence := true, ready := false }
       (after (.bringupEnd 0x2#256) s).exchange.part = .stopped ∧ ((after (.bringupEnd 0x2#256) s).slot 1).state = .bad
         ∧ ((after (.bringupEnd 0x2#256) s).slot 0).state = .free ∧ ((after (.bringupEnd 0x2#256) s).bay 23).state = .present
         ∧ ((after (.bringupEnd 0x2#256) s).bay 0).state = .empty) := by decide +kernel

theorem test_powerOn_keeps_lines :
    (after .powerOn (running.setLines 3 { presence := true, ready := true })).lines 3 = { presence := true, ready := true } := by
  decide +kernel

theorem test_linkReset : (partIn .halted).exchange.part ≠ .bringup ∧ (partIn .halted).exchange.part ≠ .restarting
    ∧ (after .linkReset (partIn .halted)).exchange.part = .restarting ∧ (after .linkReset (partIn .restarting)).exchange
      = (partIn .restarting).exchange ∧ (after .linkUp (after .linkReset running)).link.up = true := by decide +kernel

/-- A part whose restart may end, with something for every block to drop. -/
def restarting : State :=
  ((((partIn .restarting).setSlot 4 { Slot.free with state := .bad }).setSlot 5 { Slot.free with state := .resident }).setBay 2
    { Bay.initial with state := .retiring, capacity := 9, sendList := [.control .standby] }).setLoan 0 (loanIn .held .append)

theorem test_restartEffects : restarting.exchange.part = .restarting ∧ restarting.exchange.answerBusy = false
    ∧ restarting.exchange.take = none ∧ restarting.exchange.sweep.reading = none ∧ restarting.exchange.meterPort.inFlight = none
    ∧ restarting.exchange.summaryPort.inFlight = none ∧ restarting.capture.writing = none
    ∧ (∀ it ∈ restarting.engine.items, it.channel = none)
    ∧ (∀ b, b < 24 → (restarting.bay b).outstanding = [] ∧ (restarting.bay b).state ≠ .admitting
        ∧ (restarting.bay b).state ≠ .spinningUp ∧ (restarting.bay b).state ≠ .spinningDown)
    ∧ (after .restartEffects restarting).exchange.part = .stopped ∧ ((after .restartEffects restarting).slot 4).state = .bad
    ∧ ((after .restartEffects restarting).slot 5).state = .free ∧ ((after .restartEffects restarting).bay 2).state = .present
    ∧ (after .restartEffects restarting).loan 0 = .free := by decide +kernel

theorem test_restartEffects_ordered : restarting.tablesOrdered := by
  unfold State.tablesOrdered Table.ordered
  decide +kernel

theorem test_restartEffects_requests :
    (after .restartEffects (State.port restarting (fun x => { x with meterPort := ⟨true, none⟩ }))).exchange.meterPort.held = false
    ∧ (after .restartEffects (State.port restarting (fun x => { x with meterPort := ⟨true, none⟩ }))).exchange.meterPort.inFlight ≠ none
    ∧ (after .restartEffects restarting).exchange.summaryPort.inFlight ≠ none := by decide +kernel

/-- The restarting part with something that keeps it in RESTARTING, each part of R187. -/
def heldUp : List State :=
  let w : RecordWrite := ⟨0, []⟩
  [State.port restarting (fun x => { x with answerBusy := true }),
   State.port restarting (fun x => { x with take := some ⟨3, false⟩ }),
   State.port restarting (fun x => { x with sweep := { active := false, reading := some 1 } }),
   State.port restarting (fun x => { x with meterPort := ⟨false, some w⟩ }),
   State.port restarting (fun x => { x with summaryPort := ⟨false, some w⟩ }),
   { restarting with capture := { FaultCapture.initial with writing := some 0 } },
   { restarting with engine := ⟨[⟨5, 4, false, true, some 7⟩]⟩ },
   restarting.setBay 23 { Bay.initial with outstanding := [.control .start] },
   restarting.setBay 0 { Bay.initial with state := .admitting },
   restarting.setBay 23 { Bay.initial with state := .spinningUp },
   restarting.setBay 23 { Bay.initial with state := .spinningDown }]

theorem test_restartEffects_busy : ∀ s ∈ heldUp, s.exchange.part = .restarting ∧ after .restartEffects s = s := by decide +kernel

theorem test_restartEffects_halted :
    (after .restartEffects (State.port restarting (fun x => { x with errorInRestart := true, haltCause := .cell }))).exchange.part
      = .halted ∧ running.exchange.part ≠ .restarting ∧ after .restartEffects running = running := by decide +kernel

/-! ## Registers -/

theorem test_control_reads : State.reset.readWindow 0x00 = some 0x00000A04#32
    ∧ (after (.run 0x00000A07#32) running).readWindow 0x00 = some 0x00000A05#32 := by decide +kernel

theorem test_window_reads : (let s := State.port (partIn .halted) (fun x => { x with
      base := 0x123456789000, resetCause := .linkReset, haltCause := .baySummary, postFifo := List.replicate 64 1,
      answerQueue := List.replicate 600 2, strayPosts := 255 })
    s.link.up = true ∧ s.intakeLimits ∧ s.readWindow 0x04 = some 0xFFFFC0B5#32 ∧ s.readWindow 0x08 = some 0x56789000#32
      ∧ s.readWindow 0x0C = some 0x1234#32 ∧ s.readWindow 0x10 = some 0 ∧ s.readWindow 0x24 = some 0
      ∧ (after .linkReset s).link.up = false ∧ (after .linkReset s).readWindow 0x04 = none) := by
  unfold State.intakeLimits
  decide +kernel

theorem test_link_down : (after .linkReset (partIn .stopped)).link.up = false
    ∧ (let s := after .linkReset (partIn .stopped)
       after (.run 0x5#32) s = s ∧ after (.restart 0x80000005#32) s = s ∧ after (.exchangeBase true 1#32) s = s
         ∧ after (.post 5#32) s = s ∧ after (.notice 1#32) s = s ∧ after (.noticeEnable 1#32) s = s) := by decide +kernel

theorem test_control_ignored : State.reset.exchange.part = .bringup ∧ after (.run 0x5#32) State.reset = State.reset
    ∧ running.link.up = true ∧ running.exchange.part ≠ .bringup := by decide +kernel

theorem test_run_starts : (partIn .stopped).exchange.base ≠ 0 ∧ (after (.run 0xA05#32) (partIn .stopped)).exchange.part = .running
    ∧ (after (.run 0xA05#32) (partIn .stopped)).exchange.sweepTimerOn = true
    ∧ (after (.run 0xA01#32) (partIn .stopping)).exchange.part = .running
    ∧ (after (.run 0xA05#32) (State.port (partIn .stopped) (fun x => { x with base := 0 }))).exchange.part = .stopped := by
  decide +kernel

theorem test_runStop : (after (.runStop 0xA00#32) running).exchange.part = .stopped
    ∧ (after (.runStop 0xA00#32) (State.holding running 1 (copyOf []))).exchange.part = .stopping
    ∧ (after (.runStop 0xA00#32) (State.port running (fun x => { x with take := some ⟨3, false⟩ }))).exchange.part = .stopping := by
  decide +kernel

theorem test_answerMode : (after (.answerMode 0x001#32) (State.port running (fun x =>
      { x with control := { x.control with answerMode := .first }, answerQueue := [4] }))).notices.flags.answer = true
    ∧ (after (.answerMode 0x009#32) (State.port running (fun x => { x with answerQueue := [4] }))).notices.flags.answer = false := by
  decide +kernel

theorem test_intakeMode : (after (.intakeMode 0x003#32) running).exchange.sweepTimerOn = true
    ∧ (let s := State.port running (fun x =>
         { x with control := { x.control with intake := .both }, sweepTimer := 4, sweepTimerOn := true, sweep := { active := true, reading := none } })
       (after (.intakeMode 0x001#32) s).exchange.sweep.active = false ∧ (after (.intakeMode 0x001#32) s).exchange.sweepTimer = 0) := by
  decide +kernel

theorem test_sweepMs : (0x00000B01#32).extractLsb' 8 8 ≠ running.exchange.control.sweepMs
    ∧ (after (.sweepMs 0xB01#32) (State.port running (fun x => { x with sweepTimer := 7 }))).exchange.sweepTimer = 0 := by decide +kernel

theorem test_restart : (0x80000A05#32).getLsbD 31 = true ∧ (after (.restart 0x80000A05#32) (partIn .halted)).exchange.part = .restarting
    ∧ (after (.restart 0x80000A05#32) running).exchange.resetCause = .restartWrite := by decide +kernel

theorem test_exchangeBase : (after (.exchangeBase false 0xFFFFFFFF#32) (partIn .stopped)).exchange.base = 0xFFFFF000#64
    ∧ (after (.exchangeBase true 0x1#32) (partIn .stopped)).exchange.base = 0x100100000#64
    ∧ (after (.exchangeBase true 0x1#32) (State.port (partIn .stopped) (fun x =>
        { x with base := 0, control := { x.control with run := true } }))).exchange.part = .running
    ∧ running.exchange.part ≠ .stopped ∧ after (.exchangeBase true 0x1#32) running = running := by decide +kernel

theorem test_post : running.exchange.postFifo.length < 64 ∧ (after (.post 0x10005#32) running).exchange.postFifo = [5]
    ∧ (let s := State.port running (fun x => { x with postFifo := List.replicate 64 1 })
       64 ≤ s.exchange.postFifo.length ∧ (after (.post 5) s).notices.flags.postOverflow = true)
    ∧ (let s := State.port running (fun x => { x with control := { x.control with intake := .swept } })
       s.exchange.control.intake = .swept ∧ after (.post 5) s = s) := by decide +kernel

theorem test_queue_reads : (let s := State.port running (fun x => { x with answerQueue := [5, 6], lapseQueue := [9] })
    (after .answer s).link.lastRead = some 5 ∧ (after .answer s).exchange.answerQueue = [6] ∧ (after .lapse s).link.lastRead = some 9)
    ∧ (after .answer running).link.lastRead = some 0xFFFF ∧ (after .lapse State.reset).link.lastRead = some 0xFFFF := by decide +kernel

theorem test_notice : (let s : State := { running with notices :=
      { Notices.initial with flags := { NoticeBits.clear with fault := true, lapse := true }, enable := .ofWord 0x3F,
                             interrupt := true } }
    (after (.notice 0x5#32) s).notices.flags.fault = false ∧ (after (.notice 0x5#32) s).notices.flags.lapse = true
      ∧ (after (.noticeEnable 0#32) s).notices.interrupt = false ∧ s.readWindow 0x1C = some 0x105#32
      ∧ s.readWindow 0x20 = some 0x3F#32 ∧ (after (.notice 0x1#32) s).readWindow 0x1C = some 0x304#32
      ∧ running.readWindow 0x1C = some 0) := by decide +kernel

theorem test_notice_after_link_reset : (let s : State := { partIn .halted with notices :=
      { Notices.initial with flags := { NoticeBits.clear with fault := true, bay := true }, enable := .ofWord 0x3, interrupt := true } }
    let t := after (.notice 0x1#32) (after .linkUp (after .linkReset s))
    t.notices.condition = true ∧ t.notices.interrupt = false ∧ t.notices.messages = 0) := by decide +kernel

/-! ## Intake -/

theorem test_postFifoIntake : (let s := State.port running (fun x => { x with postFifo := [1023, 1024], take := none })
    s.isHeld 1023 = false ∧ (after .postFifoIntake s).exchange.take = some ⟨1023, false⟩)
    ∧ (after .postFifoIntake (State.port running (fun x => { x with postFifo := [1024], strayPosts := 255 }))).exchange.strayPosts = 255
    ∧ (let s := State.holding (State.port running (fun x => { x with postFifo := [8] })) 8 (copyOf [])
       s.isHeld 8 = true ∧ (after .postFifoIntake s).exchange.strayPosts = 1) := by decide +kernel

/-- A sweep that reads cell c. -/
def visiting (c : Nat) : Sweep := { active := true, reading := some c }

/-- A part that may sweep, with cell 0 held. -/
def sweeping : State :=
  State.port (State.holding running 0 (copyOf [])) (fun x => { x with control := { x.control with intake := .swept }, awaiting := [] })

theorem test_sweep : sweeping.exchange.control.intake ≠ .notified ∧ sweeping.isHeld 0 = true ∧ sweeping.isHeld 1 = false
    ∧ (after .sweep sweeping).exchange.sweep = visiting 1 := by decide +kernel

theorem test_sweepVisit : (let s := State.port sweeping (fun x => { x with sweep := visiting 1023 })
    (after (.sweepVisit 0x01#64) s).exchange.take = some ⟨1023, true⟩ ∧ (after (.sweepVisit 0x02#64) s).exchange.sweep = { active := false, reading := none }
      ∧ (after (.sweepVisit 0x02#64) s).exchange.sweepTimerOn = true)
    ∧ (after (.sweepVisit 0#64) (State.port sweeping (fun x => { x with sweep := visiting 1 }))).exchange.sweep = visiting 2
    ∧ (let s := State.port sweeping (fun x => { x with sweep := visiting 1, take := some ⟨5, false⟩ })
       s.isHeld 1 = false ∧ (after (.sweepVisit 0x01#64) s).exchange.sweep = { visiting 1 with reading := none, waiting := some 1 }
         ∧ (after (.sweepVisit 0x00#64) s).exchange.sweep = visiting 2) := by
  decide +kernel

theorem test_sweep_held_late : (let s := State.port sweeping (fun x => { x with sweep := visiting 0 })
    s.isHeld 0 = true ∧ (after (.sweepVisit 0x01#64) s).exchange.sweep = visiting 1)
    ∧ (let s := State.port sweeping (fun x => { x with sweep := { visiting 7 with active := false } })
       (after .sweep s).exchange.sweep = { visiting 7 with leftover := true }
         ∧ (after (.sweepVisit 0x01#64) (after .sweep s)).exchange.sweep = visiting 1
         ∧ (after (.sweepVisit 0x01#64) s).exchange.sweep = { active := false, reading := none }
         ∧ (after (.sweepVisit 0x01#64) s).exchange.take = none) := by decide +kernel

theorem test_take_then_waiting : (let x := fun (t : Take) (w : Option Nat) => State.port sweeping (fun x =>
      { x with take := some t, sweep := { active := true, reading := none, waiting := w } })
    (after (.take 0#1024) (x ⟨5, false⟩ (some 1))).exchange.take = some ⟨1, true⟩ ∧ (x ⟨5, false⟩ (some 1)).isHeld 1 = false
      ∧ (after (.take 0#1024) (x ⟨5, true⟩ none)).exchange.sweep = visiting 6
      ∧ (after (.take 0#1024) (x ⟨5, false⟩ none)).exchange.sweep = { active := true, reading := none })
    ∧ (let s := State.port (partIn .restarting) (fun x => { x with take := some ⟨5, false⟩, answerQueue := [5, 6] })
       (after (.take (copyOf [(1, 1)])) s).exchange.answerQueue = [5, 6]) := by decide +kernel

theorem test_take_posted : (let s := State.port running (fun x => { x with take := some ⟨5, false⟩, answerQueue := [5, 6] })
    (after (.take (copyOf [(1, 1), (4, 250)])) s).exchange.awaiting = [5]
      ∧ (after (.take (copyOf [(1, 1), (4, 250)])) s).exchange.answerQueue = [6]
      ∧ Memory.read (after (.take (copyOf [(1, 1), (4, 250)])) s).hostMem 0x100280 = some 2
      ∧ (after (.take (copyOf [(1, 1), (4, 251)])) s).exchange.answerList = [plain 5 .format 0]
      ∧ (after (.take (copyOf [(1, 5), (4, 251)])) s).exchange.answerList = [plain 5 .format 2]
      ∧ (after (.take (copyOf [(1, 19)])) s).exchange.answerList = [plain 5 .format 1]) := by decide +kernel

theorem test_take_other : (after (.take 0#1024) (State.port running (fun x => { x with take := some ⟨5, false⟩ }))).exchange.strayPosts = 1
    ∧ (after (.take 2#1024) (State.port running (fun x => { x with take := some ⟨5, true⟩ }))).exchange.strayPosts = 0 := by decide +kernel

/-! ## Loan orders -/

/-- A LOAN_OPEN of node 9, group 3, bay 7, blocks 1500 to 1599. -/
def openCopy (mode wait : Nat) : BitVec 1024 :=
  copyOf [(1, 1), (4, 9), (10, 3), (11, 7), (12, 1500), (16, 100), (21, mode), (22, 60), (24, wait), (26, 5)]

/-- A part whose bay 7 is ONLINE, with an order in cell 5. -/
def asked (copy : BitVec 1024) : State := State.holding (State.withBay running 7 .online) 5 copy

/-- The same where a loan stands in entry 0. -/
def askedOf (l : Loan) (copy : BitVec 1024) : State := State.holding (lending l) 5 copy

theorem test_handed : (asked (openCopy 2 0)).handed .loanOpen 5 = some ⟨5, openCopy 2 0, none⟩
    ∧ (asked (openCopy 2 0)).handed .read 5 = none
    ∧ after (.read 5) (asked (openCopy 2 0)) = asked (openCopy 2 0)
    ∧ (after (.loanOpen 5) (asked (openCopy 2 0))).exchange.awaiting = [] := by decide +kernel

theorem test_loanOpen_granted : (let c : Copy := openCopy 2 0
    let s := asked (openCopy 2 0)
    1 ≤ c.node ∧ c.node ≤ 250 ∧ c.group < 16 ∧ c.bay < 24 ∧ c.loanMode = some .append ∧ c.count ≠ 0 ∧ 1 ≤ c.frameBlocks
      ∧ c.frameBlocks ≤ 256 ∧ (s.bay c.bay).state = .online ∧ c.first + c.count ≤ (s.bay c.bay).capacity
      ∧ (s.loan 0).state = .free ∧ (∀ m ∈ s.waiting c.bay, conflicts (s.loan m) c.newLoan = false)
      ∧ ((after (.loanOpen 5) s).loan 0).state = .held ∧ ((after (.loanOpen 5) s).loan 0).term = 60
      ∧ (after (.loanOpen 5) s).exchange.answerList = [plain 5 .ok 0]) := by decide +kernel

theorem test_loanOpen_no_rival (m : Nat) : ((asked (openCopy 2 0)).loan m).state.inConflictSet ≠ true :=
  show ¬LoanState.inConflictSet .free = true by decide

theorem test_loanOpen_refused : (after (.loanOpen 5) (asked (openCopy 3 0))).exchange.answerList = [plain 5 .format 0]
    ∧ (let c : Copy := openCopy 0 0
       c.openFormatOk = true
       ∧ (after (.loanOpen 5) (State.holding (State.withBay running 7 .faulted) 5 c)).exchange.answerList = [plain 5 .diskFault 0]
       ∧ (after (.loanOpen 5) (State.holding (State.withBay running 7 .retiring) 5 c)).exchange.answerList = [plain 5 .diskUnavailable 7]
       ∧ (after (.loanOpen 5) (State.holding ((State.withBay running 7 .online).setBay 7
            { Bay.initial with state := .online, capacity := 1599 }) 5 c)).exchange.answerList = [plain 5 .range 0]) := by decide +kernel

/-- A part whose Loan Table is full. -/
def lentOut : State :=
  { asked (openCopy 0 0) with loans := { table := (List.range 512).map (fun n => (n, loanIn .held .readShared)), waiting := [] } }

theorem test_loanOpen_tableFull : (∀ n, n < 512 → (lentOut.loan n).state ≠ .free) ∧ lentOut.handed .loanOpen 5 ≠ none
    ∧ (after (.loanOpen 5) lentOut).exchange.answerList = [plain 5 .tableFull 0] := by decide +kernel

theorem test_loanOpen_waits : (let s := fun wait => askedOf (loanIn .held .writeSole) (openCopy 0 wait)
    let c : Copy := openCopy 0 3
    (s 3).handed .loanOpen 5 = some ⟨5, openCopy 0 3, none⟩ ∧ c.openFormatOk = true ∧ ((s 3).loan 0).state.inConflictSet = true
      ∧ conflicts ((s 3).loan 0) c.newLoan = true ∧ ((s 3).loan 1).state = .free
      ∧ (after (.loanOpen 5) (s 3)).exchange.answerList = [.interim 5 1] ∧ (after (.loanOpen 5) (s 3)).waiting 7 = [1]
      ∧ (after (.loanOpen 5) (s 0)).exchange.answerList = [plain 5 .conflict 0]) := by decide +kernel

/-- An order of a kind that names loan 0, from node 9. -/
def loanCopy (kind term : Nat) : BitVec 1024 := copyOf [(1, kind), (4, 9), (22, term)]

theorem test_loanRenew : (let s := fun st => askedOf (loanIn st .readShared) (loanCopy 2 0)
    (s .held).handed .loanRenew 5 = some ⟨5, loanCopy 2 0, none⟩ ∧ ((after (.loanRenew 5) (s .held)).loan 0).term = 1
      ∧ (after (.loanRenew 5) (s .held)).exchange.answerList = [plain 5 .ok 1]
      ∧ (after (.loanRenew 5) (s .lapsing)).exchange.answerList = [plain 5 .tooLate 5]
      ∧ (after (.loanRenew 5) (s .faulted)).exchange.answerList = [plain 5 .diskFault 5]
      ∧ (after (.loanRenew 5) (s .waiting)).exchange.answerList = [plain 5 .noLoan 0]) := by decide +kernel

theorem test_loanReturn_frees : (let s := fun st => askedOf (loanIn st .readShared) (loanCopy 3 0)
    (s .held).handed .loanReturn 5 = some ⟨5, loanCopy 3 0, none⟩ ∧ (after (.loanReturn 5) (s .held)).loan 0 = .free
      ∧ (after (.loanReturn 5) (s .lapsed)).loan 0 = .free ∧ (after (.loanReturn 5) (s .faulted)).loan 0 = .free
      ∧ (after (.loanReturn 5) (s .returning)).exchange.answerList = [plain 5 .noLoan 0]
      ∧ (after (.loanReturn 5) (askedOf { loanIn .waiting .readShared with openingCell := some 2 } (loanCopy 3 0))).exchange.answerList
          = [plain 2 .cancelled 0, plain 5 .ok 0]) := by decide +kernel

theorem test_loanReturn_waits :
    ((after (.loanReturn 5) (askedOf { loanIn .held .readShared with inFlight := 1 } (loanCopy 3 0))).loan 0).state = .returning
    ∧ ((after (.loanReturn 5) (askedOf (loanIn .lapsing .readShared) (loanCopy 3 0))).loan 0).returnCell = some 5
    ∧ ((after (.loanReturn 5) (askedOf { loanIn .faulted .readShared with inFlight := 1 } (loanCopy 3 0))).loan 0).state = .faulted := by
  decide +kernel

theorem test_loanQuery : (askedOf (loanIn .held .append) (loanCopy 4 0)).handed .loanQuery 5 = some ⟨5, loanCopy 4 0, none⟩
    ∧ (after (.loanQuery 5) (askedOf (loanIn .held .append) (loanCopy 4 0))).exchange.answerList =
      [.answer ⟨5, .ok, 0, 0, .none, some (loanIn .held .append).snapshot⟩]
    ∧ (loanIn .held .append).snapshot.length = 48
    ∧ (after (.loanQuery 5) (asked (copyOf [(1, 4), (8, 512)]))).exchange.answerList =
      [.answer ⟨5, .noLoan, 512, 0, .none, some (List.replicate 48 0)⟩] := by decide +kernel

/-- A loan that waits on bay 7 with its opening cell: of blocks 1000 to 1999, or of blocks behind them. -/
def waiter (cell first : Nat) : Loan := { loanIn .waiting .writeSole with wait := 2, openingCell := some cell, first := first }

/-- Three loans wait on bay 7: number 2 conflicts with number 1 ahead of it. -/
def State.queueing (s : State) : State :=
  ((((s.setLoan 1 (waiter 11 1000)).setLoan 2 (waiter 12 1999)).setLoan 3 (waiter 13 5000)).setWaiting 7 [1, 2, 3])

theorem test_queueing_listed : (State.queueing (askedOf (loanIn .held .writeSole) (loanCopy 3 0))).waitingListed :=
  waitingListed_of_seven (l := [1, 2, 3]) rfl (by decide) (by decide +kernel)

theorem test_return_examines : (let s := State.queueing (askedOf (loanIn .held .writeSole) (loanCopy 3 0))
    let t := after (.loanReturn 5) s
    s.handed .loanReturn 5 = some ⟨5, loanCopy 3 0, none⟩ ∧ (s.loan 0).inFlight = 0 ∧ t.waiting 7 = [2]
      ∧ (t.loan 1).state = .held ∧ (t.loan 2) = waiter 12 1999 ∧ (t.loan 3).state = .held
      ∧ t.exchange.answerList = [plain 5 .ok 0, plain 11 .ok 1, plain 13 .ok 3]
      ∧ s.grantAnswers [1, 3] = [plain 11 .ok 1, plain 13 .ok 3]) := by decide +kernel

theorem test_cancel_examines : (let s := State.queueing (askedOf (loanIn .held .readShared) (copyOf [(1, 3), (4, 9), (8, 1)]))
    let t := after (.loanReturn 5) s
    (s.loan 1).state = .waiting ∧ (s.loan 1).node = 9 ∧ t.waiting 7 = [2]
      ∧ t.exchange.answerList = [plain 11 .cancelled 1, plain 5 .ok 1, plain 13 .ok 3]) := by decide +kernel

/-! ## Transfer orders -/

theorem test_transfers_refused : (let s := fun st => askedOf (loanIn st .readShared)
    (s .held (transferCopy 5 1992)).handed .read 5 = some ⟨5, transferCopy 5 1992, none⟩
      ∧ (after (.read 5) (s .held (transferCopy 5 1993))).exchange.answerList = [plain 5 .outOfLoan 0]
      ∧ (after (.read 5) (s .held (copyOf [(1, 5), (4, 9)]))).exchange.answerList = [plain 5 .format 3]
      ∧ (after (.read 5) (s .lapsed (transferCopy 5 1000))).exchange.answerList = [plain 5 .lapsed 0]
      ∧ (after (.read 5) (s .faulted (transferCopy 5 1000))).exchange.answerList = [plain 5 .diskFault 0]
      ∧ (after (.write 5) (s .held (transferCopy 6 1000))).exchange.answerList = [plain 5 .mode 0]
      ∧ (after (.appendWrite 5) (s .waiting (transferCopy 7 1000))).exchange.answerList = [plain 5 .noLoan 0]) := by decide +kernel

theorem test_service_refused : (asked (serviceCopy 8 99993)).handed .serviceRead 5 = some ⟨5, serviceCopy 8 99993, none⟩
    ∧ (after (.serviceRead 5) (asked (serviceCopy 8 99993))).exchange.answerList = [plain 5 .range 100000]
    ∧ (after (.serviceRead 5) (State.holding (State.withBay running 7 .faulted) 5 (serviceCopy 8 0))).exchange.answerList
      = [plain 5 .diskFault 0]
    ∧ (after (.serviceWrite 5) (State.holding running 5 (serviceCopy 9 0))).exchange.answerList = [plain 5 .diskUnavailable 0] := by
  decide +kernel

theorem test_passes : (askedOf (loanIn .held .writeSole) (transferCopy 6 1000)).passes .write (transferCopy 6 1000) writeOf :=
  ⟨by decide +kernel, .inl ⟨.inr rfl, loanIn .held .writeSole, by unfold State.lends; decide +kernel, by decide +kernel,
    by decide +kernel, by decide +kernel⟩⟩

/-- The transfer of a SERVICE_READ of blocks 1000 to 1007 of bay 7 for group 3. -/
def serviceOf : Transfer :=
  { kind := .serviceRead, group := 3, bay := 7, first := 1000, count := 8, loan := none, reserved := none, residue := 0 }

theorem test_passes_service : (asked (serviceCopy 8 1000)).passes .serviceRead (serviceCopy 8 1000) serviceOf :=
  ⟨by decide +kernel, .inr ⟨.inl rfl, by decide +kernel, by decide +kernel, by decide +kernel⟩⟩

theorem test_becomes_head : (let s := askedOf (loanIn .held .writeSole) (transferCopy 6 1000)
    (s.fifo 7 3).orders = [] ∧ ((after (.write 5) s).fifo 7 3) = ⟨[5], some 4171, some ⟨0, 66736⟩, 66736⟩
      ∧ ((after (.write 5) s).loan 0).inFlight = 1 ∧ (after (.write 5) s).transfer? 5 = some writeOf
      ∧ (after (.write 5) (s.setGroup 3 { (s.group 3) with weight := 0 })).fifo 7 3 = ⟨[5], some 4171, none, 0⟩) := by decide +kernel

theorem test_is_queued : (let s := (asked (serviceCopy 8 1000)).setFifo 7 3 ⟨[2], some 1, some ⟨0, 16⟩, 16⟩
    s.candidate 7 1000 8 = none ∧ (s.fifo 7 3).orders ≠ [] ∧ ((after (.serviceRead 5) s).fifo 7 3).orders = [2, 5]) := by decide +kernel

/-- A slot that holds blocks 1000 to 1007 of bay 7. -/
def staged (st : SlotState) : Slot := { Slot.free with state := st, place := some ⟨7, 1000, 8⟩, data := some 0 }

theorem test_joins : (let s := fun st => (asked (serviceCopy 8 1000)).setSlot 4 (staged st)
    (s .resident).candidate 7 1000 8 = some 4 ∧ ((after (.serviceRead 5) (s .resident)).slot 4).deliveries = 1
      ∧ (after (.serviceRead 5) (s .resident)).engine.items = [⟨5, 4, false, false, none⟩]
      ∧ (s .filling).candidate 7 1000 8 = some 4 ∧ ((after (.serviceRead 5) (s .filling)).slot 4).joiners = [5]) := by decide +kernel

theorem test_read_joins : (let s := (askedOf (loanIn .held .readShared) (transferCopy 5 1000)).setSlot 255 (staged .resident)
    s.candidate 7 1000 8 = some 255 ∧ ((after (.read 5) s).slot 255).deliveries = 1 ∧ ((after (.read 5) s).loan 0).inFlight = 1) := by
  decide +kernel

/-- A loan with an append record. -/
def appending (reserved : Nat) (broken : Bool) : Loan :=
  { loanIn .held .append with append := some ⟨5, 0, 0, reserved, broken, if broken then some 3 else none, []⟩ }

theorem test_append : (let s := fun reserved broken => askedOf (appending reserved broken) (transferCopy 7 0)
    let c : Copy := transferCopy 7 0
    c.transferFailure .appendWrite = none ∧ (s 996 false).lends .appendWrite c (appending 996 false)
      ∧ (after (.appendWrite 5) (s 996 false)).transfer? 5 = some ⟨.appendWrite, 3, 7, 1996, 4, some 0, some 996, 4⟩
      ∧ ((after (.appendWrite 5) (s 996 false)).fifo 7 3).orders = [5]
      ∧ (after (.appendWrite 5) (s 1000 false)).exchange.answerList = [plain 5 .extentFull 1000]
      ∧ (after (.appendWrite 5) (s 8 true)).exchange.answerList = [plain 5 .appendBroken 3]) := by
  unfold State.lends
  decide +kernel

/-- The worked append of R112: two appends end out of order, and both are committed. -/
theorem test_commit : (let a : AppendRecord := ⟨5, 0, 0, 12, false, none, [⟨1, 0, 8, false⟩, ⟨2, 8, 4, true⟩]⟩
    (a.reported (some 0) .ok).framesDone = 2 ∧ (a.reported (some 0) .ok).blocksIntoFrame = 2 ∧ (a.reported (some 0) .ok).reservations = []
      ∧ (a.reported (some 0) .mediaError).broken = true ∧ (a.reported (some 0) .mediaError).breakPoint = some 0
      ∧ (a.reported (some 0) .mediaError).reservations = []) := by decide +kernel

/-! ## Policy orders -/

theorem test_policy_refused : (let a := fun (c : Instr) (copy : BitVec 1024) => (after c (asked copy)).exchange.answerList
    (asked (copyOf [(1, 10), (10, 16)])).handed .groupSet 5 ≠ none
      ∧ a (.groupSet 5) (copyOf [(1, 10), (10, 16)]) = [plain 5 .format 3]
      ∧ a (.groupSet 5) (copyOf [(1, 10), (4, 1)]) = [plain 5 .format 2]
      ∧ a (.diskSet 5) (copyOf [(1, 11), (11, 24)]) = [plain 5 .format 3]
      ∧ a (.diskSet 5) (copyOf [(1, 11), (11, 23), (34, 32)]) = [plain 5 .format 4]
      ∧ a (.clockSet 5) (copyOf [(1, 12), (32, 4)]) = [plain 5 .format 3]
      ∧ a (.bayAdmit 5) (copyOf [(1, 13), (11, 24)]) = [plain 5 .format 3]
      ∧ a (.bayRetire 5) (copyOf [(1, 14), (11, 24)]) = [plain 5 .format 3]) := by decide +kernel

theorem test_policy_refused_more : (let a := fun (c : Instr) (copy : BitVec 1024) => (after c (asked copy)).exchange.answerList
    a (.bayWatch 5) (copyOf [(1, 15), (32, 2)]) = [plain 5 .format 3]
      ∧ a (.bayWatch 5) (copyOf [(1, 15), (36, 0x1000000)]) = [plain 5 .format 4]
      ∧ a (.bayWatch 5) (copyOf [(1, 15), (33, 3)]) = [plain 5 .format 5]
      ∧ a (.slotFlush 5) (copyOf [(1, 16), (11, 24)]) = [plain 5 .format 3]
      ∧ a (.slotFlush 5) (copyOf [(1, 16)]) = [plain 5 .format 4]
      ∧ a (.slotFlush 5) (copyOf [(1, 16), (12, 0xFFFFFFFF), (16, 2)]) = [plain 5 .format 5]
      ∧ a (.holdSet 5) (copyOf [(1, 17), (4, 1)]) = [plain 5 .format 2]
      ∧ a (.faultClear 5) (copyOf [(1, 18), (4, 1)]) = [plain 5 .format 2]) := by decide +kernel

theorem test_groupSet : (let s := (asked (copyOf [(1, 10), (10, 3), (32, 4), (36, 77)])).setFifo 7 3 ⟨[2], some 100, none, 9⟩
    s.handed .groupSet 5 = some ⟨5, copyOf [(1, 10), (10, 3), (32, 4), (36, 77)], none⟩
      ∧ (after (.groupSet 5) s).group 3 = { (s.group 3) with weight := 4, pendingCap := some 77 }
      ∧ ((after (.groupSet 5) s).fifo 7 3).tags = some ⟨9, 6409⟩) := by decide +kernel

theorem test_diskSet : (let copy := copyOf [(1, 11), (11, 23), (32, 500), (34, 31), (36, 400), (38, 0), (40, 7)]
    (asked copy).handed .diskSet 5 = some ⟨5, copy, none⟩ ∧ ((after (.diskSet 5) (asked copy)).arbiter 23).seekMax = 500
      ∧ ((after (.diskSet 5) (asked copy)).arbiter 23).rate = 1 ∧ ((after (.diskSet 5) (asked copy)).bay 23).spinIdle = 7) := by decide +kernel

theorem test_clockSet : (let copy := copyOf [(1, 12), (32, 2), (34, 12499), (36, 0)]
    (asked copy).handed .clockSet 5 = some ⟨5, copy, none⟩ ∧ (after (.clockSet 5) (asked copy)).clock.meterTicks = 1
      ∧ (after (.clockSet 5) (asked copy)).exchange.answerList = [plain 5 .ok 100000]) := by decide +kernel

theorem test_bayAdmit : (let copy := copyOf [(1, 13), (11, 7)]
    let s := fun st => State.holding (State.withBay running 7 st) 5 copy
    (s .present).handed .bayAdmit 5 = some ⟨5, copy, none⟩ ∧ ((after (.bayAdmit 5) (s .present)).bay 7).state = .admitting
      ∧ ((after (.bayAdmit 5) (s .faulted)).bay 7).outstanding = [.control .start]
      ∧ (after (.bayAdmit 5) (s .online)).exchange.answerList = [plain 5 .wrongState 3]) := by decide +kernel

theorem test_bayRetire : (let copy := copyOf [(1, 14), (11, 7)]
    let s := fun st => State.holding (State.withBay running 7 st) 5 copy
    (s .online).handed .bayRetire 5 = some ⟨5, copy, none⟩ ∧ ((after (.bayRetire 5) (s .online)).bay 7).state = .retiring
      ∧ (s .spunDown).holdsLoans 7 = false ∧ (s .spunDown).hasWork 7 = false
      ∧ ((after (.bayRetire 5) (s .spunDown)).bay 7).state = .present
      ∧ ((after (.bayRetire 5) ((s .spunDown).setLoan 0 (loanIn .held .append))).bay 7).state = .spinningUp
      ∧ ((after (.bayRetire 5) (s .spinningUp)).bay 7).retirePending = true
      ∧ (after (.bayRetire 5) (s .faulted)).exchange.answerList = [plain 5 .wrongState 8]) := by decide +kernel

theorem test_bayWatch : (let on := copyOf [(1, 15), (34, 1), (36, 0x800001)]
    let off := copyOf [(1, 15), (32, 1), (36, 0x800000)]
    (asked on).handed .bayWatch 5 = some ⟨5, on, none⟩ ∧ ((after (.bayWatch 5) (asked on)).bay 23).captureEnable = true
      ∧ (after (.bayWatch 5) (asked on)).exchange.answerList = [plain 5 .ok 2] ∧ ((after (.bayWatch 5) (asked on)).bay 1).captureEnable = false
      ∧ (asked off).handed .bayWatch 5 = some ⟨5, off, none⟩ ∧ (after (.bayWatch 5) (asked off)).exchange.answerList = [plain 5 .ok 1]) := by
  decide +kernel

theorem test_slotFlush : (let copy := copyOf [(1, 16), (11, 7), (12, 1007), (16, 1)]
    let s := ((asked copy).setSlot 4 (staged .resident)).setSlot 6 { staged .resident with deliveries := 2 }
    s.handed .slotFlush 5 = some ⟨5, copy, none⟩ ∧ ((after (.slotFlush 5) s).slot 4).state = .free
      ∧ ((after (.slotFlush 5) s).slot 6).state = .stale ∧ (after (.slotFlush 5) s).exchange.answerList = [plain 5 .ok 2]) := by decide +kernel

/-- A record that has been captured. -/
def record : FaultRecord := ⟨.readyLost, 7, 1, 2, 3, 4, 5, false, 6⟩

theorem test_holdSet_faultClear : (let s := fun (copy : BitVec 1024) (c : FaultCapture) => { asked copy with capture := c }
    let hold := copyOf [(1, 17), (32, 0x8001), (34, 1)]
    let clear := copyOf [(1, 18)]
    let shut : FaultCapture := { FaultCapture.initial with triggered := true, suppressed := 9 }
    (s hold shut).handed .holdSet 5 = some ⟨5, hold, none⟩ ∧ (after (.holdSet 5) (s hold shut)).capture.holdMask = 0x8001#16
      ∧ (after (.holdSet 5) (s hold shut)).exchange.answerList = [plain 5 .ok 1]
      ∧ (s clear shut).handed .faultClear 5 = some ⟨5, clear, none⟩ ∧ (after (.faultClear 5) (s clear shut)).capture.triggered = false
      ∧ (after (.faultClear 5) (s clear { shut with record := some record })).exchange.answerList = [plain 5 .wrongState 9]) := by
  decide +kernel


/-! ## The clock and what a tick brings about -/

theorem test_interval : (let k : LoanClock := { LoanClock.initial with prescaleCode := 0, period := 2 }
    k.interval = 3 ∧ (Nat.repeat (fun k : LoanClock => k.cycle.1) 2 k).cycle.2 = true
      ∧ (Nat.repeat (fun k : LoanClock => k.cycle.1) 1 k).cycle.2 = false) ∧ LoanClock.initial.interval = 1000000 := by decide +kernel

/-- A part in a state whose bay 7 is in a state, with a loan on it in entry 0. -/
def lent (p : PartState) (b : BayState) (l : Loan) : State := (State.withBay (partIn p) 7 b).setLoan 0 l

theorem test_no_waiting (p : PartState) (st : BayState) (l : Loan) (n b : Nat) : n ∉ (lent p st l).waiting b :=
  show n ∉ [] from List.not_mem_nil

theorem test_tick : (let l := { loanIn .held .readShared with term := 2 }
    (after .tick (lent .stopped .online l)).loan 0 = { l with term := 1 } ∧ (after .tick (lent .running .spinningUp l)).loan 0 = l
      ∧ after .tick (lent .halted .online l) = { lent .halted .online l with
          clock := { LoanClock.initial with tickCount := 1 } }
      ∧ ((after .tick (lent .stopping .online { loanIn .waiting .append with wait := 2 })).loan 0).wait = 1) := by decide +kernel

theorem test_termLapse : (let l := { loanIn .held .readShared with term := 1 }
    let q := (State.moving (lent .running .online { l with inFlight := 1 }) 5 (readOf (some 0))).setFifo 7 3
      ⟨[5], some 4171, some ⟨0, 66736⟩, 66736⟩
    q.transfer? 5 = some (readOf (some 0)) ∧ ((after (.termLapse 0) q).fifo 7 3) = Fifo.initial
      ∧ ((after (.termLapse 0) q).loan 0).state = .lapsing
      ∧ ((after (.termLapse 0) (lent .running .online l)).loan 0).state = .lapsed
      ∧ (after (.termLapse 0) (lent .running .online l)).exchange.lapseQueue = [0]) := by decide +kernel

/-- Bay 7 ONLINE with loan 0 in a state and the three that wait, loan 1 with a wait of its own. -/
def lapsing (l : Loan) (wait : Nat) : State :=
  (State.queueing (lent .running .online l)).setLoan 1 { waiter 11 1000 with wait := wait }

theorem test_lapsing_listed : (lapsing { loanIn .held .writeSole with term := 1 } 2).waitingListed
    ∧ (lapsing (loanIn .held .readShared) 1).waitingListed :=
  ⟨waitingListed_of_seven (l := [1, 2, 3]) rfl (by decide) (by decide +kernel),
    waitingListed_of_seven (l := [1, 2, 3]) rfl (by decide) (by decide +kernel)⟩

theorem test_lapse_alone (m : Nat) : m ≠ 0 →
    (lapsing { loanIn .held .writeSole with term := 1 } 2).lapsesNext ((lapsing { loanIn .held .writeSole with term := 1 } 2).loan m)
      = false :=
  loans_all (P := fun m l => m ≠ 0 → (lapsing { loanIn .held .writeSole with term := 1 } 2).lapsesNext l = false)
    (fun _ _ => rfl) (by decide +kernel) m

theorem test_lapse_examines : (let s := lapsing { loanIn .held .writeSole with term := 1 } 2
    let t := after (.termLapse 0) s
    (s.loan 0).state = .held ∧ (s.loan 0).term = 1 ∧ (∀ m ∈ s.waiting 7, 1 < (s.loan m).wait) ∧ (t.loan 0).state = .lapsed
      ∧ t.waiting 7 = [2] ∧ t.exchange.answerList = [plain 11 .ok 1, plain 13 .ok 3])
    ∧ (let l := { loanIn .held .readShared with term := 1, inFlight := 2 }
       let s := (State.moving (State.moving (lent .running .online l) 5 (readOf (some 0))) 6 (readOf (some 0))).setFifo 7 3
         ⟨[6, 5], some 1, none, 0⟩
       (after (.termLapse 0) s).exchange.answerList = [plain 6 .lapsed 0, plain 5 .lapsed 0]) := by decide +kernel

theorem test_none_lapses (m : Nat) :
    (lapsing (loanIn .held .readShared) 1).lapsesNext ((lapsing (loanIn .held .readShared) 1).loan m) = false :=
  loans_all (P := fun _ l => (lapsing (loanIn .held .readShared) 1).lapsesNext l = false) (fun _ => rfl) (by decide +kernel) m

theorem test_expiry_elsewhere (b : Nat) (h : b ≠ 7) : 1 ∉ (lapsing (loanIn .held .readShared) 1).waiting b := by
  simp [State.waiting, show (lapsing (loanIn .held .readShared) 1).loans.waiting = [(7, [1, 2, 3])] from rfl, Table.get, Ne.symm h]

theorem test_expiry_examines : (let s := lapsing (loanIn .held .readShared) 1
    let t := after (.waitExpired 1) s
    (s.loan 1).wait = 1 ∧ 1 ∈ s.waiting 7 ∧ (∀ m ∈ s.waiting 7, m ≠ 1 → 1 < (s.loan m).wait)
      ∧ t.loan 1 = .free ∧ t.waiting 7 = [2]
      ∧ t.exchange.answerList = [plain 11 .waitExpired 1, plain 13 .ok 3]) := by decide +kernel

theorem test_waitExpired : (let l := { loanIn .waiting .append with openingCell := some 2 }
    let s := (lent .running .online l).setWaiting 7 [0]
    l.wait ≤ 1 ∧ (after (.waitExpired 0) s).loan 0 = .free ∧ (after (.waitExpired 0) s).waiting 7 = []
      ∧ (after (.waitExpired 0) s).exchange.answerList = [plain 2 .waitExpired 0]) := by decide +kernel

/-- A part whose bay 7 spins down after one idle tick. -/
def idling : State := (State.withBay running 7 .online).setBay 7 { Bay.initial with state := .online, capacity := 9, spinIdle := 1 }

theorem test_spinDown : idling.hasWork 7 = false ∧ ((after (.spinDown 7) idling).bay 7).state = .spinningDown
    ∧ ((after (.spinDown 7) idling).bay 7).outstanding = [.control .standby]
    ∧ ((after .tick (idling.setBay 7 { (idling.bay 7) with spinIdle := 2 })).bay 7).idleTicks = 1 := by decide +kernel

/-- A part at whose next tick a meter period ends. -/
def metered : State :=
  ({ running with clock := { LoanClock.initial with meterTickCount := 59 } }.setMeter 15
    { GroupMeter.zero with reads := ⟨9, 1, 281474976710650⟩, staged := ⟨7, 2, 1⟩, capped := true }).setGroup 15
    { Group.initial with pendingCap := some 5, capReached := true }

theorem test_meterPeriodEnd : metered.clock.meterTicks ≤ metered.clock.meterTickCount + 1
    ∧ ((after .meterPeriodEnd metered).meter 15).reads = ⟨0, 9, 281474976710655⟩
    ∧ ((after .meterPeriodEnd metered).meter 15).staged = ⟨0, 7, 8⟩
    ∧ (after .meterPeriodEnd metered).group 15 = { Group.initial with cap := 5 }
    ∧ (after .meterPeriodEnd metered).meters.periodSeq = 1 ∧ (after .meterPeriodEnd metered).meters.endStamp = 1
    ∧ (after .meterPeriodEnd metered).exchange.meterPort.inFlight ≠ none := by decide +kernel

theorem test_metered_none_lapses (m : Nat) : metered.lapsesNext (metered.loan m) = false :=
  show metered.lapsesNext .free = false by decide

/-! ## The Share Scheduler -/

/-- Bay 7 with the head of group 3 in cell 5, of which the finish tag is f, and that of group 9 in cell 6, of which it is 100. -/
def headed (x : Transfer) (f : Nat) : State :=
  ((State.moving (State.moving (State.withBay running 7 .online) 5 x) 6 { serviceOf with group := 9 }).setFifo 7 3
    ⟨[5], some 1, some ⟨16, f⟩, f⟩).setFifo 7 9 ⟨[6], some 1, some ⟨0, 100⟩, 100⟩

theorem test_choice : (headed serviceOf 100).choice 7 = some (3, 5, ⟨16, 100⟩) ∧ (headed serviceOf 101).choice 7 = some (9, 6, ⟨0, 100⟩)
    ∧ (headed serviceOf 100).eligibleHead 7 9 = some (6, ⟨0, 100⟩) ∧ (headed serviceOf 100).choice 8 = none
    ∧ (((headed serviceOf 100).setGroup 3 { Group.initial with weight := 0 }).choice 7) = some (9, 6, ⟨0, 100⟩)
    ∧ (((headed serviceOf 100).setLines 7 .low).choice 7) = none := by decide +kernel

theorem test_dispatch_read : (let s := headed serviceOf 100
    s.transfer? 5 = some serviceOf ∧ s.freeTag 7 = some 0 ∧ s.allocate 7 = some 0
      ∧ (after (.dispatch 7) s).tagHolder 7 0 = some 5 ∧ ((after (.dispatch 7) s).slot 0).state = .filling
      ∧ ((after (.dispatch 7) s).bay 7).outstanding = [⟨.read, some 0, 1000, 8, 0, 0, 0⟩]
      ∧ ((after (.dispatch 7) s).arbiter 7).v = 16 ∧ ((after (.dispatch 7) s).arbiter 7).h = 1008
      ∧ ((after (.dispatch 7) s).meter 3).reads.current = 8 ∧ ((after (.dispatch 7) s).fifo 7 3).orders = []) := by decide +kernel

theorem test_dispatch_write : (let s := (headed { serviceOf with kind := .serviceWrite } 100).setSlot 4 (staged .resident)
    (after (.dispatch 7) s).engine.items = [⟨5, 0, true, false, none⟩] ∧ ((after (.dispatch 7) s).slot 0).phase = some .fetch
      ∧ ((after (.dispatch 7) s).slot 4).state = .free ∧ ((after (.dispatch 7) s).meter 3).writes.current = 8) := by decide +kernel

/-- The write of blocks 1000 to 1007 is at the head, and slots 1 to 7 of bay 7 stand in its way. -/
def snooped : State :=
  let fill := { Slot.free with state := .filling, place := some ⟨7, 1000, 8⟩, lead := some 9 }
  (((((((headed { serviceOf with kind := .serviceWrite } 100).setSlot 1 fill).setSlot 2 { fill with refetch := true, blocking := [8] }).setSlot
    3 { fill with refetchCount := 4 }).setSlot 4 { fill with staleRetry := true }).setSlot 5 (staged .resident)).setSlot
    6 { staged .resident with deliveries := 1 }).setSlot 7 { fill with place := some ⟨7, 1008, 8⟩ }

theorem test_snooped_ordered : snooped.tablesOrdered := by
  unfold State.tablesOrdered Table.ordered
  decide +kernel

theorem test_dispatch_snoop : snooped.choice 7 = some (3, 5, ⟨16, 100⟩) ∧ snooped.freeTag 7 = some 0 ∧ snooped.allocate 7 = some 0
    ∧ (let t := after (.dispatch 7) snooped
       t.slot 1 = { snooped.slot 1 with refetch := true, blocking := [5] }
         ∧ t.slot 2 = { snooped.slot 2 with blocking := [8, 5] } ∧ t.slot 3 = { snooped.slot 3 with staleRetry := true }
         ∧ t.slot 4 = snooped.slot 4 ∧ (t.slot 5).state = .free ∧ (t.slot 6).state = .stale ∧ t.slot 7 = snooped.slot 7) := by
  decide +kernel

theorem test_dispatch_rebase_cap : (let late := (headed serviceOf 100).setFifo 7 3 ⟨[5], some 1, some ⟨2147483648, 2147483664⟩, 2147483664⟩
    let s := (late.setFifo 7 9 ⟨[6], some 1, some ⟨2147483649, 2147483999⟩, 2147483999⟩).setGroup 3 { Group.initial with cap := 8 }
    let t := after (.dispatch 7) s
    s.choice 7 = some (3, 5, ⟨2147483648, 2147483664⟩) ∧ (t.arbiter 7).v = 1073741824
      ∧ t.fifo 7 9 = ⟨[6], some 1, some ⟨1073741825, 1073742175⟩, 1073742175⟩
      ∧ t.fifo 7 3 = ⟨[], none, none, 1073741840⟩ ∧ (t.group 3).capReached = true ∧ (t.meter 3).capped = true) := by decide +kernel

theorem test_dispatch_no_slot : (let s := { headed serviceOf 100 with
      staging := ⟨(List.range 256).map (fun k => (k, { Slot.free with state := .bad })), [], []⟩ }
    s.freeTag 7 ≠ none ∧ s.allocate 7 = none ∧ (after (.dispatch 7) s).staging.slotWait = [7]) := by decide +kernel

theorem test_dispatch_none : (let s := running.setSlot 3 { Slot.free with reservedFor := some 7 }
    s.choice 7 = none ∧ (after (.dispatch 7) s).staging = running.staging) := by decide +kernel

/-! ## The Delivery Engine -/

/-- A slot in a state that cell 5, which led the fill, is being delivered from on channel 7. -/
def delivering (st : SlotState) (n : Nat) : State :=
  { (State.moving (State.withBay running 7 .online) 5 serviceOf).setSlot 4 { staged st with deliveries := n } with
    engine := ⟨[⟨5, 4, false, true, some 7⟩, ⟨6, 4, false, false, none⟩]⟩ }

theorem test_deliveryItemStart :
    (after (.deliveryItemStart 0) (delivering .resident 2)).engine.items = [⟨5, 4, false, true, some 7⟩, ⟨6, 4, false, false, some 0⟩] := by
  decide +kernel

theorem test_deliveryEnd : (delivering .stale 1).itemOn 7 = some ⟨5, 4, false, true, some 7⟩
    ∧ (let t := after (.deliveryEnd 7 .complete) (delivering .resident 2)
       t.exchange.answerList = [reported 5 .ok 0 8 .disk] ∧ (t.slot 4).deliveries = 1 ∧ t.engine.items = [⟨6, 4, false, false, none⟩])
    ∧ (let t := after (.deliveryEnd 7 (.bufferError 5 0)) (delivering .stale 1)
       t.exchange.answerList = [plain 5 .bufferFault 5] ∧ t.slot 4 = .free)
    ∧ (let t := after (.deliveryEnd 7 (.bufferError 0 256)) (delivering .resident 1)
       t.exchange.answerList = [reported 5 .bufferFault 0 8 .disk] ∧ (t.slot 4).deliveries = 0 ∧ (t.slot 4).state = .resident) := by
  decide +kernel

/-- The order of a SERVICE_READ of block 1001 into 512 bytes at 8192 and 3584 at 4096. -/
def splitCopy : BitVec 1024 :=
  copyOf [(1, 8), (10, 3), (11, 7), (12, 1001), (16, 1), (20, 2), (32, 8192), (40, 512), (44, 4096), (52, 3584)]

/-- A part in a state where that order is being delivered on channel 7 from slot 4, bytes being known at 8192 and 16384. -/
def splitting (p : PartState) : State :=
  { State.port ((State.withBay (partIn p) 7 .online).setSlot 4
      { staged .resident with deliveries := 1, data := some ((0xCD <<< 36864) + (0xAB <<< 32768)) }) (fun x =>
        { x with held := [⟨5, splitCopy, some { serviceOf with first := 1001, count := 1 }⟩] }) with
    engine := ⟨[⟨5, 4, false, true, some 7⟩]⟩, hostMem := [(8192, 7), (16384, 9)] }

theorem test_splitting_checked (p : PartState) : (splitting p).ordersChecked :=
  ordersChecked_of_all (show ([⟨5, splitCopy, some { serviceOf with first := 1001, count := 1 }⟩] : List HeldOrder).all _ = true by
    decide +kernel)

theorem test_delivered_bytes : (let t := after (.deliveryEnd 7 .complete) (splitting .running)
    bufferAddress (Copy.segments splitCopy) 0 = some 8192 ∧ bufferAddress (Copy.segments splitCopy) 512 = some 4096
      ∧ Memory.read t.hostMem 8192 = some 0xAB ∧ Memory.read t.hostMem 4096 = some 0xCD ∧ Memory.read t.hostMem 7679 = some 0
      ∧ Memory.read t.hostMem 16384 = some 9)
    ∧ (let t := after (.deliveryEnd 7 (.bufferError 1 0)) (splitting .halted)
       Memory.read t.hostMem 8192 = none ∧ Memory.read t.hostMem 16384 = some 9 ∧ t.exchange.answerList = [])
    ∧ (let t := after (.deliveryEnd 7 (.bufferError 0 0)) { splitting .running with hostMem := [(4096, 5), (8192, 7)] }
       Memory.read t.hostMem 8192 = none ∧ Memory.read t.hostMem 4096 = some 5)
    ∧ (let t := after (.stagingError 7 [0, 0, 0, 0, 0, 0, 0, 1]) (splitting .running)
       Memory.read t.hostMem 8192 = some 0xAB ∧ t.exchange.answerList = [reported 5 .stagingError 4 1 .disk]) := by decide +kernel

/-- The write of cell 5 is being fetched on channel 7 into slot 4. -/
def fetching (failure : Option Cause) : State :=
  { (State.moving (State.withBay running 7 .online) 5 { serviceOf with kind := .serviceWrite }).setSlot 4
      { staged .draining with lead := some 5, phase := some .fetch, fetchFailure := failure, data := none } with
    engine := ⟨[⟨5, 4, true, false, some 7⟩]⟩ }

theorem test_fetchEnd : (fetching none).itemOn 7 = some ⟨5, 4, true, false, some 7⟩
    ∧ (let t := after (.fetchEnd 7 (.complete 255)) ((fetching none).setTag 7 3 (some 5))
       (t.slot 4).phase = some .disk ∧ (t.slot 4).data = some 255 ∧ (t.bay 7).outstanding = [⟨.write, some 3, 1000, 8, 0, 0, 0⟩])
    ∧ ((after (.fetchEnd 7 (.complete 255)) ((fetching none).setLines 7 .low)).bay 7).sendList = [⟨.write, none, 1000, 8, 0, 0, 0⟩]
    ∧ (after (.fetchEnd 7 (.bufferError 5)) (fetching none)).exchange.answerList = [plain 5 .bufferFault 5]
    ∧ (after (.fetchEnd 7 .stagingError) (fetching none)).slot 4 = { Slot.free with state := .bad }
    ∧ (after (.fetchEnd 7 .stagingError) (fetching none)).capture.record.map (fun r => r.cause) = some .stagingError
    ∧ (after (.fetchEnd 7 (.complete 0)) (fetching (some .linkFailed))).exchange.answerList = [plain 5 .diskFault 5] := by decide +kernel

theorem test_fetch_unblocks : (let fill := { Slot.free with
      state := .filling, place := some ⟨7, 1000, 8⟩, lead := some 9, refetch := true, readEnded := true, blocking := [5] }
    let s := ((fetching none).setTag 7 2 (some 9)).setSlot 6 fill
    (s.slot 4).state = .draining ∧ s.tagOf 7 9 = some 2
      ∧ (let t := after (.fetchEnd 7 (.bufferError 0)) s
         t.slot 6 = { fill with blocking := [], refetch := false, refetchCount := 1, readEnded := false }
           ∧ (t.bay 7).outstanding = [⟨.read, some 2, 1000, 8, 0, 0, 0⟩])
      ∧ (after (.fetchEnd 7 (.bufferError 0)) (s.setSlot 6 { fill with blocking := [5, 8] })).slot 6 = { fill with blocking := [8] }
      ∧ (after (.fetchEnd 7 .stagingError) (((fetching none).setTag 7 2 (some 5)).setBay 7
            { (fetching none).bay 7 with outstanding := [] })).tagHolder 7 2 = none) := by decide +kernel

theorem test_stagingError : (let t := after (.stagingError 7 [0, 0, 0, 0, 0, 0, 0, 3]) (delivering .stale 2)
    t.slot 4 = { Slot.free with state := .bad } ∧ t.engine.items = []
      ∧ t.exchange.answerList = [reported 5 .stagingError 4 3 .disk, plain 6 .stagingError 4] ∧ t.capture.sequence = 1) := by
  decide +kernel

/-! ## Disk commands -/

/-- Bay 7 in a state with one command outstanding. -/
def commanded (st : BayState) (c : Command) : State :=
  (State.withBay running 7 st).setBay 7 { Bay.initial with state := st, capacity := 100000, outstanding := [c] }

/-- The fill of slot 4 by cell 5 on tag 3, which cell 6 has joined. -/
def filling (v : Slot) : State :=
  ((State.moving (State.moving (commanded .online ⟨.read, some 3, 1000, 8, 0, 0, 0⟩) 5 serviceOf) 6 serviceOf).setTag 7 3 (some 5)).setSlot 4
    { v with state := .filling, place := some ⟨7, 1000, 8⟩, lead := some 5, joiners := [6] }

theorem test_diskReadEnd : (filling .free).slotOf 7 3 .filling = some 4
    ∧ (let t := after (.diskReadEnd 7 ⟨3, 0⟩ (2 ^ 262144 + 5)) (filling .free)
       t.slot 4 = { staged .resident with deliveries := 2, data := some 5 } ∧ t.tagHolder 7 3 = none ∧ t.staging.residency = [4]
         ∧ t.engine.items = [⟨5, 4, false, true, none⟩, ⟨6, 4, false, false, none⟩] ∧ (t.meter 3).staged.current = 8)
    ∧ (after (.diskReadEnd 7 ⟨3, 0⟩ 0) (filling { Slot.free with staleRetry := true })).exchange.answerList
      = [plain 5 .staleRetry 4, plain 6 .staleRetry 4]
    ∧ ((after (.diskReadEnd 7 ⟨3, 0⟩ 0) (filling { Slot.free with refetch := true })).slot 4).refetchCount = 1 := by decide +kernel

theorem test_mediaError : (let t := after (.mediaError 7 ⟨some 3, 0⟩ 1007) (filling .free)
    t.exchange.answerList = [plain 5 .mediaError 1007, plain 6 .mediaError 1007] ∧ t.slot 4 = .free ∧ (t.bay 7).mediaErrors = 1) := by
  decide +kernel

theorem test_refetch : (let s := fun blocking => filling { Slot.free with refetch := true, blocking := blocking }
    ((s []).bay 7).command? (some 3) 0 = some ⟨.read, some 3, 1000, 8, 0, 0, 0⟩
      ∧ (let t := after (.diskReadEnd 7 ⟨3, 0⟩ 9) (s [])
         t.slot 4 = { (s []).slot 4 with refetch := false, refetchCount := 1 } ∧ t.tagHolder 7 3 = some 5
           ∧ (t.bay 7).outstanding = [⟨.read, some 3, 1000, 8, 0, 0, 0⟩])
      ∧ (let t := after (.diskReadEnd 7 ⟨3, 0⟩ 9) ((s []).setLines 7 .low)
         (t.bay 7).sendList.map (fun d => (d.kind, d.tag)) = [(.read, some 3)])
      ∧ (after (.diskReadEnd 7 ⟨3, 0⟩ 9) (s [8])).slot 4 = { (s [8]).slot 4 with readEnded := true }
      ∧ after (.diskReadEnd 7 ⟨3, 1⟩ 9) (s []) = s []) := by decide +kernel

theorem test_media_count_stays : (let s := (filling .free).setBay 7 { (filling .free).bay 7 with mediaErrors := 65535 }
    (s.bay 7).state = .online ∧ s.exchange.summaryPort.held = false
      ∧ ((after (.mediaError 7 ⟨some 3, 0⟩ 1007) s).bay 7).mediaErrors = 65535
      ∧ (after (.mediaError 7 ⟨some 3, 0⟩ 1007) s).exchange.summaryPort = s.exchange.summaryPort
      ∧ (after (.mediaError 7 ⟨some 3, 0⟩ 1007) (filling .free)).exchange.summaryPort.inFlight ≠ none) := by decide +kernel

/-- The disk write of slot 4 for cell 5 on tag 0. -/
def writing (x : Transfer) : State :=
  ((State.moving (commanded .online ⟨.write, some 0, 1000, 8, 0, 0, 0⟩) 5 x).setTag 7 0 (some 5)).setSlot 4
    { staged .draining with lead := some 5, phase := some .disk }

theorem test_diskWriteEnd : (writing writeOf).slotOf 7 0 .draining = some 4
    ∧ (let t := after (.diskWriteEnd 7 ⟨0, 0⟩) (writing writeOf)
       t.exchange.answerList = [reported 5 .ok 0 8 .disk] ∧ t.slot 4 = staged .resident ∧ t.tagHolder 7 0 = none)
    ∧ (after (.diskWriteEnd 7 ⟨0, 0⟩) (writing ⟨.appendWrite, 3, 7, 1996, 4, some 0, some 996, 4⟩)).exchange.answerList
      = [reported 5 .okTruncated 4 4 .disk]
    ∧ (after (.mediaError 7 ⟨some 0, 0⟩ 1000) (writing writeOf)).exchange.answerList = [plain 5 .mediaError 1000]
    ∧ (after (.mediaError 7 ⟨some 0, 0⟩ 1007) (writing writeOf)).exchange.answerList = [reported 5 .mediaError 1007 7 .disk] := by
  decide +kernel

theorem test_linkError : (let s := fun n => commanded .online ⟨.read, some 3, 1000, 8, n, 9, 0⟩
    ((s 1).bay 7).command? (some 3) 0 = some ⟨.read, some 3, 1000, 8, 1, 9, 0⟩
      ∧ ((after (.linkError 7 ⟨some 3, 0⟩) (s 1)).bay 7).outstanding = [⟨.read, some 3, 1000, 8, 2, 0, 0⟩]
      ∧ ((after (.linkError 7 ⟨some 3, 0⟩) ((s 1).setLines 7 .low)).bay 7).sendList = [⟨.read, some 3, 1000, 8, 2, 9, 0⟩]
      ∧ ((after (.linkError 7 ⟨some 3, 0⟩) (s 2)).bay 7).lastFault = .linkFailed) := by decide +kernel

/-- Bay 7 with a loan held, one that waits, a queued order and a command tag held, and a command outstanding. -/
def faulting (st : BayState) (k : CommandKind) : State :=
  (((((State.moving (commanded st { Command.control k with tag := none }) 5 serviceOf).setFifo 7 3 ⟨[5], some 1, some ⟨0, 16⟩, 16⟩).setTag
    7 0 (some 6)).setLoan 0 (loanIn .held .append)).setLoan 1 { loanIn .waiting .append with openingCell := some 2 }).setWaiting 7 [1]

theorem test_bayFaults : (let t := after (.cmdTimeout 7 ⟨none, 0⟩) (faulting .online .standby)
    t.loan 0 = { loanIn .faulted .append with faultCause := .cmdTimeout } ∧ t.loan 1 = .free ∧ (t.bay 7).state = .faulted
      ∧ t.exchange.answerList = [plain 2 .diskFault 1, plain 5 .diskFault 4] ∧ t.shares.arbiters = []
      ∧ t.capture.record.map (fun r => (r.cause, r.location, r.loansFaulted, r.ordersFailed)) = some (.cmdTimeout, 7, 2, 1)) := by
  decide +kernel

theorem test_bayFault_causes : (let s := faulting .online .standby
    (s.bay 7).watched = true ∧ ((after (.readyLost 7) (s.setLines 7 .low)).bay 7).lastFault = .readyLost
      ∧ ((after (.linkError 7 ⟨none, 0⟩) (s.setBay 7 { (s.bay 7) with outstanding := [{ Command.control .standby with linkErrors := 2 }] })).bay
          7).lastFault = .linkFailed
      ∧ (let a := faulting .admitting .start
         let t := after (.operationTimeout 7) (a.setBay 7 { (a.bay 7) with admitCell := some 8 })
         (t.bay 7).lastFault = .admitFailed ∧ (t.bay 7).admitCell = none ∧ plain 8 .diskFault 1 ∈ t.exchange.answerList)
      ∧ ((after (.operationTimeout 7) (faulting .spinningUp .start)).bay 7).lastFault = .spinupFailed) := by decide +kernel

theorem test_third_link_error : (let s := fun st k => commanded st { Command.control k with linkErrors := 2 }
    ((after (.linkError 7 ⟨none, 0⟩) (s .admitting .start)).bay 7).lastFault = .admitFailed
      ∧ ((after (.linkError 7 ⟨none, 0⟩) (s .admitting .identify)).bay 7).lastFault = .admitFailed
      ∧ ((after (.linkError 7 ⟨none, 0⟩) (s .spinningUp .start)).bay 7).lastFault = .spinupFailed) := by decide +kernel

theorem test_bayFault_slots : (let fill := { staged .filling with lead := some 5, joiners := [6] }
    let s := (((((faulting .online .standby).setSlot 1 fill).setSlot 2 { staged .draining with lead := some 8, phase := some .disk }).setSlot 3
      { staged .draining with lead := some 9, phase := some .fetch }).setSlot 4 (staged .resident)).setSlot 6
      { staged .resident with deliveries := 1 }
    let t := after (.cmdTimeout 7 ⟨none, 0⟩) s
    (t.slot 1).state = .free ∧ (t.slot 2).state = .free
      ∧ t.slot 3 = { staged .draining with lead := some 9, phase := some .fetch, fetchFailure := some .cmdTimeout }
      ∧ (t.slot 4).state = .free ∧ (t.slot 6).state = .stale
      ∧ t.exchange.answerList = [2, 5, 5, 6, 8].map (fun c => plain c .diskFault (if c = 2 then 1 else 4))
      ∧ s.loansHit 7 = 2 ∧ s.ordersHit 7 = 4 ∧ t.capture.record.map (fun r => (r.loansFaulted, r.ordersFailed)) = some (2, 4)
      ∧ t.fifo 7 3 = ⟨[], none, none, 0⟩) := by decide +kernel

/-- Bay 7 in a state with what is pending, its STANDBY outstanding. -/
def standing (st : BayState) (spinUp retire : Bool) : State :=
  running.setBay 7 { Bay.initial with
    state := st, capacity := 5, spinUpPending := spinUp, retirePending := retire, outstanding := [.control .standby] }

theorem test_standbyEnd : ((standing .retiring false false).bay 7).command? none 0 = some (.control .standby)
    ∧ ((after (.standbyEnd ⟨7, 0⟩) (standing .retiring false false)).bay 7).state = .present
    ∧ ((after (.standbyEnd ⟨7, 0⟩) (standing .spinningDown false false)).bay 7).state = .spunDown
    ∧ ((after (.standbyEnd ⟨7, 0⟩) (standing .spinningDown true true)).bay 7).state = .spinningUp
    ∧ ((after (.standbyEnd ⟨7, 0⟩) (standing .spinningDown false true)).bay 7).state = .present
    ∧ ((after (.standbyEnd ⟨7, 0⟩) ((standing .spinningDown false true).setLoan 0 (loanIn .lapsed .append))).bay 7).state = .spinningUp := by
  decide +kernel

theorem test_startEnd : (let s := fun st => commanded st (.control .start)
    ((after (.startEnd ⟨7, 0⟩) (s .spinningUp)).bay 7).state = .online
      ∧ ((after (.startEnd ⟨7, 0⟩) ((s .spinningUp).setLines 7 .low)).bay 7).state = .spinningUp
      ∧ ((after (.startEnd ⟨7, 0⟩) (s .admitting)).bay 7).outstanding = [.control .identify]) := by decide +kernel

/-- Bay 7 being admitted for the order in cell 8, its IDENTIFY outstanding. -/
def admitting : State :=
  running.setBay 7 { Bay.initial with state := .admitting, admitCell := some 8, outstanding := [.control .identify] }

theorem test_identifyEnd : (admitting.bay 7).command? none 0 = some (.control .identify)
    ∧ ((after (.identifyEnd ⟨7, 0⟩ 0x100000000) admitting).bay 7).capacity = 4294967295
    ∧ (after (.identifyEnd ⟨7, 0⟩ 0x100000000) admitting).exchange.answerList = [plain 8 .ok 4294967295]
    ∧ ((after (.identifyEnd ⟨7, 0⟩ 1) admitting).bay 7).state = .online
    ∧ ((after (.identifyEnd ⟨7, 0⟩ 0) admitting).bay 7).state = .faulted
    ∧ (after (.identifyEnd ⟨7, 0⟩ 0) admitting).exchange.answerList = [plain 8 .diskFault 1] := by decide +kernel

theorem test_admission_clears : (let s := ((((admitting.setFifo 7 0 ⟨[], none, none, 9⟩).setFifo 7 15 ⟨[], none, none, 4⟩).setArbiter 7
      { Arbiter.initial with v := 5, h := 6 }).setSlot 4 (staged .resident)).setSlot 6 { staged .resident with deliveries := 1 }
    let t := after (.identifyEnd ⟨7, 0⟩ 1) s
    (t.fifo 7 0).lastFinish = 0 ∧ (t.fifo 7 15).lastFinish = 0 ∧ (t.arbiter 7).v = 0 ∧ (t.arbiter 7).h = 0
      ∧ (t.slot 4).state = .free ∧ (t.slot 6).state = .stale) := by decide +kernel

/-! ## Lines -/

/-- Bay 7 in a state, watched for both edges with a notice, with levels of its lines and a send list. -/
def watchedBay (st : BayState) (presence ready : Bool) (sends : List Command) : State :=
  (running.setBay 7 { Bay.initial with
    state := st, capacity := 5, sendList := sends, captureEnable := true, noticeOn := true }).setLines 7 ⟨presence, ready⟩

theorem test_readyRise : (let read : Command := ⟨.read, some 1, 0, 8, 1, 7, 0⟩
    ((after (.readyRise 7) (watchedBay .online true false [read])).bay 7).outstanding = [{ read with timer := 0 }]
      ∧ ((after (.readyRise 7) (watchedBay .spinningUp true false [])).bay 7).state = .online
      ∧ (let s := (watchedBay .online true true []).setBay 7 { Bay.initial with state := .online, readyLow := 3 }
         (after (.readyFall 7) s).bay 7 = { Bay.initial with state := .online } ∧ ((after (.readyFall 7) s).lines 7).ready = false)) := by
  decide +kernel

theorem test_readyRise_identifies : (let s := watchedBay .admitting true false []
    (s.lines 7).ready = false ∧ (s.bay 7).outstanding = [] ∧ ((after (.readyRise 7) s).bay 7).state = .admitting
      ∧ ((after (.readyRise 7) s).bay 7).outstanding = [.control .identify]) := by decide +kernel

theorem test_presenceRise : (let t := after (.presenceRise 7) (watchedBay .empty false false [])
    (t.bay 7).state = .present ∧ (t.bay 7).captured = true ∧ t.notices.flags.bay = true
      ∧ ((after (.presenceRise 7) (watchedBay .faulted false false [])).bay 7).state = .faulted) := by decide +kernel

theorem test_removal : (let s := watchedBay .online true true [.control .standby]
    let t := after (.removal 7) s
    (t.bay 7).state = .empty ∧ (t.bay 7).sendList = [] ∧ (t.bay 7).lastFault = .none ∧ (t.bay 7).captured = true
      ∧ ((after (.removal 7) (s.setLoan 0 (loanIn .held .append))).bay 7).lastFault = .removed
      ∧ (after (.removal 7) (s.setLoan 0 (loanIn .held .append))).capture.sequence = 1
      ∧ (after (.removal 7) (s.setBay 7 { (s.bay 7) with state := .admitting, admitCell := some 3 })).exchange.answerList
          = [plain 3 .diskUnavailable 0]
      ∧ ((after (.removal 7) ((watchedBay .faulted true true []).setLoan 0 (loanIn .lapsed .append))).bay 7).lastFault = .none) := by
  decide +kernel

theorem test_removal_faults : (let s := ((faulting .online .standby).setSlot 3 { staged .filling with lead := some 9 }).setLines 7 ⟨true, true⟩
    let t := after (.removal 7) s
    (s.lines 7).presence = true ∧ s.holdsLoans 7 = true ∧ (t.bay 7).state = .empty ∧ (t.loan 0).state = .faulted ∧ t.loan 1 = .free
      ∧ (t.fifo 7 3).orders = [] ∧ (t.slot 3).state = .free ∧ t.tagHolder 7 0 = none
      ∧ t.exchange.answerList = [plain 2 .diskFault 1, plain 5 .diskFault 6, plain 9 .diskFault 6]
      ∧ t.capture.record.map (fun r => (r.cause, r.loansFaulted, r.ordersFailed)) = some (.removed, 2, 2))
    ∧ (let s := (fetching none).setBay 7 { Bay.initial with state := .admitting, admitCell := some 8 }
       s.hasWork 7 = true ∧ ((after (.removal 7) s).bay 7).lastFault = .removed
         ∧ (after (.removal 7) s).exchange.answerList = [plain 8 .diskFault 1]) := by decide +kernel

/-! ## Ends of accesses to the Exchange Area -/

/-- A part in a state with these writes in its Answer Write list, the first in flight. -/
def answering (p : PartState) (l : List AnswerWrite) : State :=
  State.port (State.moving (lent p .online { loanIn .held .readShared with inFlight := 2 }) 5 (readOf (some 0))) (fun x =>
    { x with answerList := l, answerBusy := true })

theorem test_answerWritten : (let s := answering .running [reported 5 .ok 0 8 .disk, plain 6 .format 1]
    let t := after .answerWritten s
    Memory.read t.hostMem 0x100280 = some 3 ∧ Memory.read t.hostMem 0x1002F1 = some 1 ∧ Memory.read t.hostMem 0x1002F2 = some 8
      ∧ t.exchange.answerQueue = [5] ∧ t.isHeld 5 = false ∧ t.exchange.answerList = [plain 6 .format 1]
      ∧ t.notices.flags.answer = true ∧ (t.meter 3).orders.current = 1 ∧ (t.loan 0).inFlight = 1
      ∧ (after .answerWritten t).meters.noGroup.current = 1
      ∧ (after .answerWritten (answering .halted [plain 5 .ok 0])).exchange.answerList = [plain 5 .ok 0]) := by decide +kernel

theorem test_answered_last : (let s := fun l => State.queueing ((answering .running [plain 5 .ok 0]).setLoan 0 l)
    let l := fun st cell => { loanIn st .writeSole with inFlight := 1, returnCell := cell }
    (s (l .lapsing none)).transfer? 5 = some (readOf (some 0))
      ∧ (let t := after .answerWritten (s (l .lapsing none))
         (t.loan 0).state = .lapsed ∧ t.waiting 7 = [2] ∧ t.exchange.answerList = [plain 11 .ok 1, plain 13 .ok 3])
      ∧ (let t := after .answerWritten (s (l .returning (some 8)))
         t.loan 0 = .free ∧ t.exchange.answerList = [plain 8 .ok 0, plain 11 .ok 1, plain 13 .ok 3])
      ∧ (let t := after .answerWritten (s (l .lapsing (some 8)))
         t.loan 0 = .free ∧ t.exchange.answerList = [plain 8 .ok 0, plain 11 .ok 1, plain 13 .ok 3])
      ∧ (let t := after .answerWritten (s (l .faulted (some 8)))
         t.loan 0 = .free ∧ t.waiting 7 = [1, 2, 3] ∧ t.exchange.answerList = [plain 8 .ok 0])) := by decide +kernel

theorem test_answered_last_listed : (State.queueing ((answering .running [plain 5 .ok 0]).setLoan 0
    { loanIn .lapsing .writeSole with inFlight := 1 })).waitingListed :=
  waitingListed_of_seven (l := [1, 2, 3]) rfl (by decide) (by decide +kernel)

theorem test_snapshot_written : (let a : Answer := ⟨5, .ok, 0, 0, .none, some (loanIn .held .append).snapshot⟩
    let s : State := { answering .running [.answer a] with hostMem := [(0x1002D0, 0x55)] }
    let t := after .answerWritten s
    (loanIn .held .append).snapshot.length = 48 ∧ Memory.read t.hostMem 0x1002A0 = (loanIn .held .append).snapshot[0]?
      ∧ Memory.read t.hostMem 0x1002CF = (loanIn .held .append).snapshot[47]? ∧ Memory.read t.hostMem 0x1002D0 = some 0x55) := by
  decide +kernel

theorem test_reported_by_offset : (let a : AppendRecord := ⟨5, 0, 0, 12, false, none, [⟨1, 0, 8, true⟩, ⟨1, 8, 4, false⟩]⟩
    a.blocksIntoFrame < a.frameBlocks ∧ a.reported none .appendBroken = a
      ∧ (a.reported (some 8) .mediaError).breakPoint = some 8 ∧ (a.reported (some 8) .mediaError).reservations = []
      ∧ (a.reported (some 8) .mediaError).framesDone = 1 ∧ (a.reported (some 8) .mediaError).blocksIntoFrame = 3) := by decide +kernel

theorem test_interimWriteEnd : (let t := after .interimWriteEnd (answering .running [.interim 1023 511])
    Memory.read t.hostMem (0x100000 + 1023 * 128 + 116) = some 0xFF ∧ Memory.read t.hostMem (0x100000 + 1023 * 128 + 117) = some 1
      ∧ t.exchange.answerList = []
      ∧ (after .interimWriteEnd (answering .restarting [.interim 3 4])).exchange.answerList = [.interim 3 4]) := by decide +kernel

/-- A part in a state with a write of each record in flight. -/
def recording (p : PartState) : State :=
  { partIn p with
    exchange := { exchangeIn p with
      meterPort := ⟨false, some ⟨0x100000, leBytes 1092 5⟩⟩, summaryPort := ⟨false, some ⟨0xFFFFFFFFFFFFF000, leBytes 392 6⟩⟩ }
    capture := { FaultCapture.initial with triggered := true, autoRearm := true, record := some record, writing := some 0x100000 } }

theorem test_faultRecordWriteEnd : (let t := after .faultRecordWriteEnd (recording .running)
    Memory.read t.hostMem 0x120000 = some 3 ∧ Memory.read t.hostMem 0x120010 = some 6 ∧ t.capture.record = none
      ∧ t.capture.triggered = false ∧ t.notices.flags.fault = true
      ∧ (after .faultRecordWriteEnd (recording .halted)).notices.flags.fault = false) := by decide +kernel

theorem test_record_images : (leBytes 1092 5).length = 1092 ∧ (leBytes 392 6).length = 392 ∧ running.meterImage.length = 1092
    ∧ (running.summaryImage 1).length = 392 ∧ record.image.length = 20 := by decide +kernel

theorem test_recordWriteEnds : (let t := after .meterBlockWriteEnd (recording .halted)
    Memory.read t.hostMem 0x120200 = some 5 ∧ t.exchange.meterPort.inFlight = none ∧ t.notices.flags.meter = true
      ∧ (after .meterBlockWriteEnd (recording .restarting)).notices.flags.meter = false)
    ∧ Memory.read (after .baySummaryWriteEnd (recording .running)).hostMem 0x1F040 = some 6 := by decide +kernel

theorem test_held_requests_begin : (let s := State.port (recording .running) (fun x => { x with
      meterPort := { x.meterPort with held := true }, summaryPort := { x.summaryPort with held := true } })
    (after .meterBlockWriteEnd s).exchange.meterPort = ⟨false, some ⟨0x100000, (after .meterBlockWriteEnd s).meterImage⟩⟩
      ∧ (after .baySummaryWriteEnd s).exchange.summarySeq = 1
      ∧ (after .baySummaryWriteEnd s).exchange.summaryPort = ⟨false, some ⟨0x100000, s.summaryImage 1⟩⟩) := by decide +kernel

theorem test_exchangeAreaError : (let halts := fun (a : AreaAccess) (s : State) =>
      ((after (.exchangeAreaError a) s).exchange.part, (after (.exchangeAreaError a) s).exchange.haltCause)
    halts .visitRead (State.port sweeping (fun x => { x with sweep := visiting 1023 })) = (.halted, .cell)
      ∧ halts .takeRead (State.port running (fun x => { x with take := some ⟨5, false⟩ })) = (.halted, .cell)
      ∧ halts .takenWrite (State.port running (fun x => { x with take := some ⟨5, true⟩ })) = (.halted, .cell)
      ∧ halts .answerFields (answering .stopping [plain 5 .ok 0]) = (.halted, .answer)
      ∧ halts .answerHand (answering .running [plain 5 .ok 0]) = (.halted, .answer)
      ∧ halts .interim (answering .running [.interim 5 0]) = (.halted, .answer)
      ∧ halts (.faultRecord 1) (recording .running) = (.halted, .faultRecord)
      ∧ halts (.meterBlock 2) (recording .stopped) = (.halted, .meterBlock)
      ∧ halts (.baySummary 0) (recording .running) = (.halted, .baySummary)
      ∧ halts (.baySummary 2) (recording .restarting) = (.restarting, .baySummary)
      ∧ halts (.meterBlock 0) (recording .halted) = (.halted, .none)) := by decide +kernel

/-! ## Arithmetic of the scheduler, offers of faults -/

theorem test_cost : (let a : Arbiter := { Arbiter.initial with seekMin := 3000, seekMax := 12000, rate := 62, h := 1000000 }
    costOf a 1655360 256 = 7239 ∧ costOf a 1000000 1 = 17 ∧ costOf { a with rate := 1, h := 0 } 4294967295 256 = 65535
      ∧ tagsFor 7239 40 500000 520000 = ⟨520000, 566330⟩) := by decide +kernel

theorem test_rebase : (let s := fun v => ((running.setArbiter 7 { Arbiter.initial with v := v }).setFifo 7 15
      ⟨[5], some 1, some ⟨2147483648, 2147483664⟩, 2147483664⟩).setFifo 7 0 ⟨[], none, none, 1073741823⟩
    (s 2147483647).rebase 7 = s 2147483647 ∧ (((s 2147483648).rebase 7).arbiter 7).v = 1073741824
      ∧ ((s 2147483648).rebase 7).fifo 7 15 = ⟨[5], some 1, some ⟨1073741824, 1073741840⟩, 1073741840⟩
      ∧ ((s 2147483648).rebase 7).fifo 7 0 = Fifo.initial) := by decide +kernel

theorem test_offer : (let shut : State := { running with capture := { FaultCapture.initial with triggered := true, suppressed := 255 } }
    shut.capture.triggered = true ∧ (shut.offer .removed 3 1 2).capture = { shut.capture with sequence := 1 }
      ∧ ((partIn .halted).offer .removed 3 1 2).capture.suppressed = 1
      ∧ ((partIn .restarting).offer .removed 3 1 2).capture.record = none
      ∧ running.capture.triggered = false ∧ (running.offer .removed 3 1 2).capture.triggered = true
      ∧ (running.offer .removed 3 1 2).capture.record = some ⟨.removed, 3, 1, 2, 0, 0, 0, false, 1⟩)
    ∧ (let s := State.port (delivering .resident 1) (fun x => { x with part := .halted })
       s.itemOn 7 = some ⟨5, 4, false, true, some 7⟩ ∧ (after (.stagingError 7 []) s).capture.suppressed = 1)
    ∧ (let s := State.port (fetching none) (fun x => { x with part := .restarting })
       (after (.fetchEnd 7 .stagingError) s).capture.suppressed = 1) := by decide +kernel

/-! ## Boundaries of the scheduler's choices -/

theorem test_eligible : (let s := headed serviceOf 100
    let drains := fun first => s.setSlot 4 { staged .draining with place := some ⟨7, first, 8⟩ }
    s.eligibleHead 7 3 = some (5, ⟨16, 100⟩) ∧ (drains 1008).eligibleHead 7 3 = some (5, ⟨16, 100⟩)
      ∧ (drains 1007).eligibleHead 7 3 = none ∧ (s.setGroup 3 { Group.initial with capReached := true }).eligibleHead 7 3 = none
      ∧ ({ s with capture := { FaultCapture.initial with triggered := true, holdMask := 8 } } : State).eligibleHead 7 3 = none
      ∧ ({ s with capture := { FaultCapture.initial with holdMask := 8 } } : State).eligibleHead 7 3 = some (5, ⟨16, 100⟩)
      ∧ ((((s.setTag 7 0 (some 8)).setTag 7 1 (some 8)).setTag 7 2 (some 8)).eligibleHead 7 3) = some (5, ⟨16, 100⟩)) := by
  decide +kernel

theorem test_freeTag : (let s := ((running.setTag 7 0 (some 8)).setTag 7 1 (some 8)).setTag 7 2 (some 8)
    s.freeTag 7 = some 3 ∧ (s.setTag 7 3 (some 9)).freeTag 7 = none ∧ running.freeTag 7 = some 0) := by decide +kernel

/-- A part of whose slots 0 is a FREE one, 255 a FREE one reserved for bay 7, and all others stage data, used in this order. -/
def stagedOut (k0 k255 : Slot) : State :=
  { running with staging := ⟨(0, k0) :: (List.range 254).map (fun k => (k + 1, staged .resident)) ++ [(255, k255)],
                             [2, 254, 1], []⟩ }

theorem test_allocate : (let kept : Slot := { Slot.free with reservedFor := some 7 }
    let lent : Slot := { Slot.free with reservedFor := some 8 }
    (stagedOut .free kept).allocate 7 = some 255 ∧ (stagedOut .free lent).allocate 7 = some 0
      ∧ (stagedOut lent lent).allocate 7 = some 2
      ∧ ((stagedOut lent lent).setSlot 2 { staged .resident with deliveries := 1 }).allocate 7 = some 254
      ∧ (((stagedOut lent lent).setSlot 2 { staged .resident with deliveries := 1 }).setSlot 254 .free).allocate 7 = some 254) := by
  decide +kernel

/-! ## Offers of a slot -/

/-- A state in which bays 20 and 3 wait for a slot, in this order. -/
def State.slotAwaited (s : State) : State := { s with staging := { s.staging with slotWait := [20, 3] } }

/-- The slot is kept for bay 20, and bay 3 is at the head of the list. -/
def keptFor20 (t : State) (k : Nat) : Bool := t.slot k == { Slot.free with reservedFor := some 20 } && t.staging.slotWait == [3]

theorem test_offers : keptFor20 (after (.deliveryEnd 7 .complete) (State.slotAwaited (delivering .stale 1))) 4 = true
    ∧ keptFor20 (after (.deliveryEnd 7 .complete) (State.slotAwaited (delivering .resident 1))) 4 = true
    ∧ keptFor20 (after (.fetchEnd 7 (.bufferError 0)) (State.slotAwaited (fetching none))) 4 = true
    ∧ keptFor20 (after (.fetchEnd 7 .stagingError) (State.slotAwaited (fetching (some .linkFailed)))) 4 = true
    ∧ keptFor20 (after (.diskWriteEnd 7 ⟨0, 0⟩) (State.slotAwaited (writing writeOf))) 4 = true
    ∧ keptFor20 (after (.diskReadEnd 7 ⟨3, 0⟩ 0) (State.slotAwaited (filling { Slot.free with staleRetry := true }))) 4 = true := by
  decide +kernel

theorem test_no_offer : (let waits := fun t : State => t.staging.slotWait = [20, 3]
    waits (after (.deliveryEnd 7 .complete) (State.slotAwaited (delivering .resident 2)))
      ∧ (let s := State.port (State.slotAwaited (delivering .stale 1)) (fun x => { x with part := .halted })
         waits (after (.deliveryEnd 7 .complete) s) ∧ (after (.deliveryEnd 7 .complete) s).slot 4 = .free)
      ∧ waits (after (.stagingError 7 []) (State.slotAwaited (delivering .resident 1)))
      ∧ waits (after (.fetchEnd 7 .stagingError) (State.slotAwaited (fetching none)))) := by decide +kernel

theorem test_flush_offers : (let s := State.slotAwaited (((asked (copyOf [(1, 16), (11, 7), (12, 1000), (16, 8)])).setSlot 4
      (staged .resident)).setSlot 6 (staged .resident))
    let t := after (.slotFlush 5) s
    s.handed .slotFlush 5 ≠ none ∧ t.slot 4 = { Slot.free with reservedFor := some 20 }
      ∧ t.slot 6 = { Slot.free with reservedFor := some 3 } ∧ t.staging.slotWait = []) := by decide +kernel

theorem test_offers_ordered : (State.slotAwaited (((asked 0).setSlot 4 (staged .resident)).setSlot 6 (staged .resident))).tablesOrdered := by
  unfold State.tablesOrdered Table.ordered
  decide +kernel

/-! ## Spin-up requests -/

/-- The bay state, the spin-up pending and the commands outstanding of bay 7. -/
def spin (s : State) : BayState × Bool × List CommandKind :=
  ((s.bay 7).state, (s.bay 7).spinUpPending, (s.bay 7).outstanding.map (fun d => d.kind))

theorem test_spinUp_asked : (let down := fun st => { Bay.initial with state := st, capacity := 100000 }
    let s := fun st => (askedOf (loanIn .held .writeSole) (transferCopy 6 1000)).setBay 7 (down st)
    spin (after (.write 5) (s .spunDown)) = (.spinningUp, false, [.start])
      ∧ spin (after (.write 5) (s .spinningDown)) = (.spinningDown, true, [])
      ∧ spin (after (.write 5) (s .online)) = (.online, false, [])
      ∧ spin (after (.write 5) ((s .spunDown).setGroup 3 { Group.initial with capReached := true })) = (.spunDown, false, [])
      ∧ spin (after (.write 5) ((s .spunDown).setGroup 3 { Group.initial with weight := 0 })) = (.spunDown, false, [])
      ∧ spin (after (.write 5) ((s .spunDown).setSlot 0 { staged .draining with place := some ⟨7, 1007, 1⟩ })) = (.spunDown, false, [])) := by
  decide +kernel

theorem test_headReady : (askedOf (loanIn .held .writeSole) (transferCopy 6 1000)).headReady 7 3 writeOf :=
  ⟨by decide +kernel, by decide +kernel, by decide +kernel, ⟨0, by decide +kernel⟩, fun _ h => absurd h List.not_mem_nil⟩

theorem test_spinUp_asked_more : (let down := fun s : State => s.setBay 7 { Bay.initial with state := .spunDown, capacity := 100000 }
    spin (after (.appendWrite 5) (down (askedOf (appending 8 false) (transferCopy 7 0)))) = (.spinningUp, false, [.start])
      ∧ (let shut := ((headed serviceOf 100).setGroup 3 { Group.initial with weight := 0 }).setFifo 7 9 Fifo.initial
         let s := down (State.holding shut 8 (copyOf [(1, 10), (10, 3), (32, 4)]))
         s.handed .groupSet 8 ≠ none ∧ (s.setGroup 3 { Group.initial with weight := 4 }).eligibleHead 7 3 = none
           ∧ spin (after (.groupSet 8) s) = (.spinningUp, false, [.start]))) := by decide +kernel

/-! ## The completion test of a retirement -/

/-- What bay 7 has sent and what waits to be sent. -/
def sent (s : State) : List CommandKind × List CommandKind :=
  ((s.bay 7).outstanding.map (fun d => d.kind), (s.bay 7).sendList.map (fun d => d.kind))

theorem test_retires_at_once : (let copy := copyOf [(1, 14), (11, 7)]
    let s := State.holding (State.withBay running 7 .online) 5 copy
    s.hasWork 7 = false ∧ s.holdsLoans 7 = false ∧ sent (after (.bayRetire 5) s) = ([.standby], [])
      ∧ sent (after (.bayRetire 5) (s.setLines 7 .low)) = ([], [.standby])
      ∧ sent (after (.bayRetire 5) (s.setLoan 0 (loanIn .faulted .append))) = ([], [])
      ∧ (s.setTag 7 3 (some 8)).hasWork 7 = true ∧ sent (after (.bayRetire 5) (s.setTag 7 3 (some 8))) = ([], [])) := by decide +kernel

/-- The same part with bay 7 RETIRING. -/
def State.retiring (s : State) : State := s.setBay 7 { Bay.initial with state := .retiring, capacity := 100000 }

theorem test_retires_last : (let retired := fun st => State.retiring (askedOf (loanIn st .readShared) (loanCopy 3 0))
    (retired .held).hasWork 7 = false ∧ sent (after (.loanReturn 5) (retired .held)) = ([.standby], [])
      ∧ sent (after (.loanReturn 5) (retired .waiting)) = ([.standby], [])
      ∧ sent (after (.loanReturn 5) ((retired .faulted).setLines 7 .low)) = ([], [.standby])
      ∧ sent (after (.loanReturn 5) ((retired .held).setLoan 1 (loanIn .faulted .append))) = ([], []))
    ∧ (let s := fun st => State.retiring ((answering .running [plain 5 .ok 0]).setLoan 0
         { loanIn st .readShared with inFlight := 1, returnCell := some 8 })
       sent (after .answerWritten (s .returning)) = ([.standby], []) ∧ sent (after .answerWritten (s .faulted)) = ([.standby], [])
         ∧ sent (after .answerWritten ((s .returning).setSlot 0 (staged .draining))) = ([], []))
    ∧ (let s := (commanded .spinningUp (.control .start)).setBay 7
         { (commanded .spinningUp (.control .start)).bay 7 with retirePending := true }
       ((after (.startEnd ⟨7, 0⟩) s).bay 7).state = .retiring ∧ sent (after (.startEnd ⟨7, 0⟩) s) = ([.standby], [])) := by
  decide +kernel

theorem test_retires_ordered : (State.retiring (askedOf (loanIn .held .readShared) (loanCopy 3 0))).tablesOrdered
    ∧ (State.retiring (askedOf (loanIn .held .readShared) (loanCopy 3 0))).waitingListed := by
  refine ⟨?_, fun _ => ⟨List.nodup_nil, fun _ h => absurd h List.not_mem_nil⟩⟩
  unfold State.tablesOrdered Table.ordered
  decide +kernel

theorem test_retiresWithout : (State.retiring (askedOf (loanIn .held .readShared) (loanCopy 3 0))).retiresWithout 7 0 :=
  ⟨by decide +kernel,
    loans_all (P := fun m l => m ≠ 0 → l.bay = 7 → l.state = .free) (fun _ _ _ => rfl) (by decide +kernel),
    by decide +kernel, by decide +kernel⟩

/-! ## What else a tick counts -/

theorem test_tick_counts : (let bay := fun (st : BayState) (n : Nat) => running.setBay 7 { Bay.initial with state := st, idleTicks := n }
    (after .tick running).clock.meterTickCount = 1 ∧ (after .tick metered).clock.meterTickCount = 0
      ∧ ((after .tick (bay .online 4)).bay 7).idleTicks = 5 ∧ ((after .tick (bay .online 65535)).bay 7).idleTicks = 65535
      ∧ ((after .tick ((bay .online 4).setTag 7 0 (some 3))).bay 7).idleTicks = 0
      ∧ ((after .tick (bay .retiring 4)).bay 7).idleTicks = 0
      ∧ ((after .tick (State.port (bay .online 4) (fun x => { x with part := .halted }))).bay 7).idleTicks = 4) := by decide +kernel

/-! ## Host memory errors on record writes -/

/-- A part that writes each record over bytes of host memory that hold 9. -/
def rewriting : State :=
  { recording .running with hostMem := [0x120000, 0x12000F, 0x120010, 0x120200, 0x120203, 0x120204, 0x120643].map (fun a => (a, 9)) }

theorem test_failed_parts : (let reads := fun (a : AreaAccess) (z : Nat) => Memory.read (after (.exchangeAreaError a) rewriting).hostMem z
    reads (.faultRecord 0) 0x120000 = some 9 ∧ reads (.faultRecord 0) 0x120010 = some 9
      ∧ reads (.faultRecord 1) 0x120000 = record.image[0]? ∧ reads (.faultRecord 1) 0x12000F = record.image[15]?
      ∧ reads (.faultRecord 1) 0x120010 = some 9
      ∧ reads (.meterBlock 0) 0x120200 = some 9 ∧ reads (.meterBlock 1) 0x120200 = some 5 ∧ reads (.meterBlock 1) 0x120203 = some 0
      ∧ reads (.meterBlock 1) 0x120204 = some 9 ∧ reads (.meterBlock 2) 0x120204 = some 0 ∧ reads (.meterBlock 2) 0x120643 = some 9) := by
  decide +kernel

theorem test_failed_summary : (let s : State := { recording .running with hostMem := [0x1F040, 0x1F1C3, 0x1F1C7].map (fun a => (a, 9)) }
    let reads := fun (a : AreaAccess) (z : Nat) => Memory.read (after (.exchangeAreaError a) s).hostMem z
    reads (.baySummary 0) 0x1F1C7 = some 9 ∧ reads (.baySummary 1) 0x1F1C7 = some 0 ∧ reads (.baySummary 1) 0x1F040 = some 9
      ∧ reads (.baySummary 2) 0x1F040 = some 6 ∧ reads (.baySummary 2) 0x1F1C3 = some 9) := by decide +kernel

theorem test_taken_write_fails : (let s := State.port running (fun x => { x with take := some ⟨1023, false⟩ })
    let t := after (.exchangeAreaError .takenWrite) s
    Memory.read t.hostMem 0x11FF80 = some 2 ∧ t.exchange.take = none ∧ t.isHeld 1023 = false
      ∧ (after (.exchangeAreaError .takeRead) s).hostMem = [] ∧ (after (.exchangeAreaError .takeRead) s).exchange.take = none) := by
  decide +kernel

/-! ## The order behind a dispatched one -/

/-- The write at the head of group 3 on bay 7, with an order behind it in cell 8 that a RESIDENT slot may serve. -/
def followed (kind : OrderKind) : State :=
  ((State.moving (headed { serviceOf with kind := .serviceWrite } 100) 8 { serviceOf with kind := kind, first := 5000 }).setFifo 7 3
    ⟨[5, 8], some 1, some ⟨16, 100⟩, 100⟩).setSlot 9 { staged .resident with place := some ⟨7, 5000, 8⟩ }

theorem test_next_joins : (let t := after (.dispatch 7) (followed .serviceRead)
    (followed .serviceRead).choice 7 = some (3, 5, ⟨16, 100⟩) ∧ t.fifo 7 3 = ⟨[], none, none, 100⟩
      ∧ t.engine.items = [⟨8, 9, false, false, none⟩, ⟨5, 0, true, false, none⟩]) := by decide +kernel

/-- What is staged of blocks that the dispatched write is about to change is joined no more; a fill is, and its refetch follows. -/
theorem test_next_not_outdated : (let late := { staged .resident with place := some ⟨7, 1000, 6000⟩ }
    let fill := { Slot.free with state := .filling, place := some ⟨7, 1000, 6000⟩, lead := some 9, refetchCount := 4 }
    let t := after (.dispatch 7) ((followed .serviceRead).setSlot 9 late)
    let u := after (.dispatch 7) ((followed .serviceRead).setSlot 9 fill)
    (t.fifo 7 3).orders = [8] ∧ (t.fifo 7 3).tags ≠ none ∧ (t.slot 9).state = .free
      ∧ (u.fifo 7 3).orders = [] ∧ u.slot 9 = { fill with joiners := [8], staleRetry := true }) := by decide +kernel

theorem test_next_stays : (let s := followed .serviceWrite
    let t := after (.dispatch 7) s
    let cost := costOf { Arbiter.initial with h := 1008 } 5000 8
    (s.giveBoth 5 0 0 { serviceOf with kind := .serviceWrite }).candidate 7 5000 8 = some 9
      ∧ t.fifo 7 3 = ⟨[8], some cost, some ⟨100, 100 + cost * 16⟩, 100 + cost * 16⟩
      ∧ t.engine.items = [⟨5, 0, true, false, none⟩]) := by decide +kernel

/-! ## Further ends -/

theorem test_media_offers : keptFor20 (after (.mediaError 7 ⟨some 3, 0⟩ 1007) (State.slotAwaited (filling .free))) 4 = true
    ∧ keptFor20 (after (.mediaError 7 ⟨some 0, 0⟩ 1007) (State.slotAwaited (writing writeOf))) 4 = true
    ∧ (let s := commanded .spinningUp (.control .start)
       ((after (.mediaError 7 ⟨none, 0⟩ 9) s).bay 7).outstanding = [{ Command.control .start with linkErrors := 1, number := 0 }]
         ∧ ((after (.mediaError 7 ⟨none, 0⟩ 9) s).bay 7).mediaErrors = 0) := by decide +kernel

theorem test_joiners_metered : (let s := (filling .free).setMeter 3 { GroupMeter.zero with staged := ⟨4294967290, 0, 0⟩ }
    ((after (.diskReadEnd 7 ⟨3, 0⟩ 0) s).meter 3).staged.current = 4294967295
      ∧ ((after (.diskReadEnd 7 ⟨3, 0⟩ 0) s).meter 9).staged.current = 0) := by decide +kernel

theorem test_present_drops : (let busy : Slot := { staged .resident with deliveries := 1 }
    let s := ((standing .retiring false false).setSlot 4 (staged .resident)).setSlot 6 busy
    let t := after (.standbyEnd ⟨7, 0⟩) s
    (t.bay 7).state = .present ∧ (t.slot 4).state = .free ∧ (t.slot 6).state = .stale
      ∧ ((after (.standbyEnd ⟨7, 0⟩) (State.port s (fun x => { x with part := .halted }))).slot 4).state = .resident) := by
  decide +kernel

/-- Two deliveries of slot 4 run: that of cell 5 into 512 bytes at 8192 and 3584 at 4096, that of cell 6 into 4096 bytes at 65536. -/
def twice : State :=
  let copy := copyOf [(1, 8), (10, 3), (11, 7), (12, 1001), (16, 1), (20, 1), (32, 65536), (40, 4096)]
  { State.port (splitting .running) (fun x =>
      { x with held := x.held ++ [⟨6, copy, some { serviceOf with first := 1001, count := 1 }⟩] }) with
    engine := ⟨[⟨5, 4, false, true, some 7⟩, ⟨6, 4, false, false, some 2⟩]⟩ }

theorem test_twice_checked : twice.ordersChecked :=
  ordersChecked_of_all (show twice.exchange.held.all _ = true by decide +kernel)

theorem test_both_stopped : (let s : State := { twice with hostMem := [(8192, 7), (16384, 9), (65535, 5), (65536, 6), (69631, 7), (69632, 8)] }
    let t := after (.stagingError 7 [0, 0, 0, 0, 0, 0, 0, 0]) s
    t.hostMem = [(16384, 9), (65535, 5), (69632, 8)]
      ∧ t.exchange.answerList = [plain 5 .stagingError 4, plain 6 .stagingError 4]) := by decide +kernel

theorem test_doomed_again : (let s := (fetching (some .linkFailed)).setBay 7 { Bay.initial with state := .admitting, admitCell := some 8 }
    ((after (.operationTimeout 7) s).slot 4).fetchFailure = some .admitFailed
      ∧ ((after (.removal 7) s).slot 4).fetchFailure = some .removed) := by decide +kernel

theorem test_interrupt_link_down : (let s : State := { watchedBay .empty false false [] with
      notices := { Notices.initial with enable := .ofWord 0x2 } }
    let t := after (.presenceRise 7) (after .linkReset s)
    t.link.up = false ∧ t.notices.interrupt = true ∧ t.notices.messages = 1
      ∧ (after .linkUp t).notices = t.notices) := by decide +kernel

/-- Two orders await validation: one of each copy, that of cell 5 first. -/
def State.behindOf (first copy : BitVec 1024) : State :=
  State.port (State.holding (asked first) 6 copy) (fun x => { x with awaiting := [5, 6] })

theorem test_handed_oldest : (let loan := State.behindOf (openCopy 2 0) (loanCopy 3 0)
    let service := State.behindOf (openCopy 2 0) (serviceCopy 8 1000)
    loan.exchange.awaiting = [5, 6] ∧ loan.handed .loanReturn 6 = none ∧ loan.handed .loanOpen 5 ≠ none
      ∧ service.handed .serviceRead 6 = some ⟨6, serviceCopy 8 1000, none⟩
      ∧ (State.port service (fun x => { x with part := .stopped })).handed .serviceRead 6 = none) := by decide +kernel

theorem test_no_joiner_unmetered : (let s := ((filling .free).setMeter 9 { GroupMeter.zero with staged := ⟨4294967300, 7, 8⟩ })
    ((after (.diskReadEnd 7 ⟨3, 0⟩ 0) s).meter 9).staged = ⟨4294967300, 7, 8⟩) := by decide +kernel

theorem test_layout_answer : (let a := answerImage ⟨5, .wrongState, 0x11223344, 256, .staged, none⟩ 0x55667788#32 0xBEEF
    a = [21, 2, 0x00, 0x01, 0x44, 0x33, 0x22, 0x11, 0x88, 0x77, 0x66, 0x55, 0xEF, 0xBE, 0, 0]
      ∧ fieldAt a 4 4 = 0x11223344 ∧ fieldAt a 12 2 = 0xBEEF ∧ fieldAt a 16 4 = 0) := by decide +kernel

theorem test_layout_snapshot : (let l : Loan := { appending 12 true with openingCell := some 0, inFlight := 1024, term := 0xABCD }
    fieldAt l.snapshot 0 1 = 2 ∧ fieldAt l.snapshot 1 1 = 9 ∧ fieldAt l.snapshot 4 4 = 1000 ∧ fieldAt l.snapshot 12 1 = 2
      ∧ fieldAt l.snapshot 13 1 = 5 ∧ fieldAt l.snapshot 14 2 = 0xABCD ∧ fieldAt l.snapshot 18 2 = 1024
      ∧ fieldAt l.snapshot 32 4 = 12) := by decide +kernel

theorem test_layout_records : (let b : Bay := { Bay.initial with
        state := .faulted, lastFault := .removed, captureEnable := true, captured := true, mediaErrors := 65535, capacity := 99999 }
    let s := (running.setBay 23 b).setMeter 15 { GroupMeter.zero with cappedLast := true, orders := ⟨1, 2, 281474976710655⟩ }
    fieldAt record.image 2 2 = 7 ∧ fieldAt record.image 16 4 = 6
      ∧ fieldAt (s.summaryImage 9) 368 1 = 8 ∧ fieldAt (s.summaryImage 9) 369 1 = 6 ∧ fieldAt (s.summaryImage 9) 370 1 = 0x25
      ∧ fieldAt (s.summaryImage 9) 372 4 = 99999 ∧ fieldAt (s.summaryImage 9) 376 2 = 65535 ∧ fieldAt (s.summaryImage 9) 388 4 = 9
      ∧ fieldAt s.meterImage 16 2 = 256 ∧ fieldAt s.meterImage 1036 4 = 2 ∧ fieldAt s.meterImage 1040 1 = 1
      ∧ fieldAt s.meterImage 1072 8 = 281474976710655) := by decide +kernel

theorem test_summary_wraps : (let s := State.port running (fun x => { x with
        summarySeq := 0xFFFFFFFF#32, summaryPort := { held := true, inFlight := none } })
    s.beginSummary.exchange.summarySeq = 0) := by decide +kernel

/-! ## The interrupt at every event -/

/-- A state with every notice enabled. -/
def enabling (s : State) : State := { s with notices := { s.notices with enable := .ofWord 0x3F } }

/-- The interrupt and its messages. -/
def interrupted (s : State) : Bool × Nat := (s.notices.interrupt, s.notices.messages)

theorem test_lapseQueued : running.lapseQueued
    ∧ (lapsing { loanIn .held .writeSole with term := 1 } 2).exchange.lapseQueue = []
    ∧ (after (.termLapse 0) (lapsing { loanIn .held .writeSole with term := 1 } 2)).exchange.lapseQueue = [0]
    ∧ ((after (.termLapse 0) (lapsing { loanIn .held .writeSole with term := 1 } 2)).loan 0).state = .lapsed :=
  ⟨fun _ h => absurd h List.not_mem_nil, by decide +kernel⟩

theorem test_interrupt_raised : (let raised := fun (c : Instr) (s : State) => interrupted (stepped { enabling s with pending := [c] })
    let full := State.port running (fun x => { x with postFifo := List.replicate 64 5 })
    let queued := State.port running (fun x => { x with answerQueue := [5], control := { x.control with answerMode := .first } })
    (enabling full).notices.condition = false ∧ raised (.post 6) full = (true, 1)
      ∧ raised .answerWritten (answering .running [plain 5 .ok 0]) = (true, 1)
      ∧ raised (.termLapse 0) (lapsing { loanIn .held .writeSole with term := 1 } 2) = (true, 1)
      ∧ raised .faultRecordWriteEnd (recording .running) = (true, 1) ∧ raised .meterBlockWriteEnd (recording .running) = (true, 1)
      ∧ raised (.presenceRise 7) (watchedBay .empty false false []) = (true, 1)
      ∧ raised (.answerMode 0x001#32) queued = (true, 1)) := by decide +kernel

theorem test_interrupt_stays : (let up := fun s : State => { enabling s with
      exchange := { s.exchange with lapseQueue := [0] },
      notices := { flags := { NoticeBits.clear with lapse := true }, enable := .ofWord 0x3F, interrupt := true, messages := 4 } }
    let lapsed := up ((watchedBay .online true true []).setLoan 0 (loanIn .lapsed .append))
    lapsed.notices.condition = true ∧ interrupted (after .answerWritten (up (answering .running [plain 5 .ok 0]))) = (true, 4)
      ∧ (let t := after (.removal 7) lapsed
         t.notices.flags = { NoticeBits.clear with bay := true } ∧ interrupted t = (true, 4))
      ∧ interrupted (after .lapse (up running)) = (false, 4) ∧ interrupted (after .linkReset (up running)) = (false, 4)
      ∧ interrupted (after .restartEffects { up restarting with exchange := restarting.exchange }) = (false, 4)
      ∧ interrupted (after .powerOn (up running)) = (false, 0)
      ∧ interrupted (after (.presenceRise 7) (watchedBay .empty false false [])) = (false, 0)) := by decide +kernel

/-! ## The end of STOPPING -/

theorem test_stopping_ends : (let s := answering .stopping [plain 5 .ok 0]
    let ended := fun s : State => (after .answerWritten s).exchange.part
    s.exchange.held.map (fun o => o.cell) = [5] ∧ ended s = .stopped
      ∧ ended (State.port s (fun x => { x with take := some ⟨9, false⟩ })) = .stopping
      ∧ ended (State.moving s 6 (readOf none)) = .stopping
      ∧ ended (answering .stopping [plain 5 .ok 0, .interim 5 1]) = .stopping
      ∧ ended (answering .running [plain 5 .ok 0]) = .running) := by decide +kernel

theorem test_stopping_next_answer : (let t := after .answerWritten (answering .stopping [plain 5 .ok 0, .interim 6 1])
    t.exchange.answerBusy = true ∧ t.exchange.part = .stopping
      ∧ (after .interimWriteEnd t).exchange.part = .stopped ∧ (after .interimWriteEnd t).exchange.answerBusy = false
      ∧ (after .interimWriteEnd (answering .stopping [.interim 5 1])).exchange.part = .stopping
      ∧ (after .interimWriteEnd (answering .restarting [.interim 5 1])).exchange.answerBusy = false) := by decide +kernel

theorem test_stopping_take : (let s := State.port (partIn .stopping) (fun x => { x with take := some ⟨5, false⟩ })
    (after (.take 0#1024) s).exchange.part = .stopped ∧ (after (.take (copyOf [(1, 1)])) s).exchange.part = .stopping) := by
  decide +kernel

theorem test_fetched_tag : (let s := (fetching none).setTag 7 3 (some 5)
    s.tagOf 7 5 = some 3 ∧ ((after (.fetchEnd 7 (.complete 255)) (s.setLines 7 .low)).bay 7).sendList
      = [⟨.write, some 3, 1000, 8, 0, 0, 0⟩]) := by decide +kernel

/-! ## Requests of a Bay Summary -/

/-- The summary sequence number, and whether a rewrite is held and in flight. -/
def summarised (s : State) : Nat × Bool × Bool :=
  (s.exchange.summarySeq.toNat, s.exchange.summaryPort.held, s.exchange.summaryPort.inFlight.isSome)

theorem test_summary_of_orders : (let s := fun (copy : BitVec 1024) st => State.holding (State.withBay running 7 st) 5 copy
    let admission := copyOf [(1, 13), (11, 7)]
    let retire := copyOf [(1, 14), (11, 7)]
    let watch := fun disarm mask => copyOf [(1, 15), (32, disarm), (36, mask)]
    let busy := fun s : State => State.port s (fun x => { x with summaryPort := ⟨false, some ⟨0x100000, []⟩⟩ })
    summarised (after (.bayAdmit 5) (s admission .present)) = (1, false, true)
      ∧ summarised (after (.bayAdmit 5) (s admission .online)) = (0, false, false)
      ∧ summarised (after (.bayRetire 5) (s retire .online)) = (1, false, true)
      ∧ summarised (after (.bayRetire 5) (s retire .spunDown)) = (1, false, true)
      ∧ summarised (after (.bayRetire 5) (s retire .spinningUp)) = (0, false, false)
      ∧ summarised (after (.bayWatch 5) (s (watch 0 0x80) .online)) = (1, false, true)
      ∧ summarised (after (.bayWatch 5) (s (watch 1 0x80) .online)) = (0, false, false)
      ∧ summarised (after (.bayWatch 5) (s (watch 0 0) .online)) = (0, false, false)
      ∧ summarised (after (.bayAdmit 5) (busy (s admission .present))) = (0, true, true)
      ∧ summarised (after (.bayAdmit 5) (State.port (s admission .present) (fun x => { x with base := 0 }))) = (0, true, false)) := by
  decide +kernel

theorem test_summary_of_disks : summarised (after (.standbyEnd ⟨7, 0⟩) (standing .retiring false false)) = (1, false, true)
    ∧ summarised (after (.standbyEnd ⟨7, 0⟩) (standing .spinningDown true false)) = (1, false, true)
    ∧ summarised (after (.startEnd ⟨7, 0⟩) (commanded .spinningUp (.control .start))) = (1, false, true)
    ∧ summarised (after (.identifyEnd ⟨7, 0⟩ 1) admitting) = (1, false, true)
    ∧ summarised (after (.identifyEnd ⟨7, 0⟩ 0) admitting) = (1, false, true)
    ∧ summarised (after (.spinDown 7) idling) = (1, false, true)
    ∧ summarised (after (.cmdTimeout 7 ⟨none, 0⟩) (faulting .online .standby)) = (1, false, true) := by decide +kernel

theorem test_summary_of_lines : (let low := fun st => watchedBay st false false []
    let high := fun st => watchedBay st true true []
    let unwatched := fun s : State => s.setBay 7 { s.bay 7 with captureEnable := false }
    let port := fun (p : PartState) (s : State) => State.port s (fun x => { x with part := p })
    summarised (after (.readyRise 7) (watchedBay .spinningUp true false [])) = (1, false, true)
      ∧ summarised (after (.presenceRise 7) (low .empty)) = (1, false, true)
      ∧ summarised (after (.presenceRise 7) (low .faulted)) = (1, false, true)
      ∧ summarised (after (.presenceRise 7) (unwatched (low .empty))) = (1, false, true)
      ∧ summarised (after (.presenceRise 7) (unwatched (low .faulted))) = (0, false, false)
      ∧ summarised (after (.removal 7) (unwatched (high .online))) = (1, false, true)
      ∧ summarised (after (.removal 7) (unwatched ((high .online).setLoan 0 (loanIn .held .append)))) = (1, false, true)
      ∧ summarised (after (.presenceRise 7) (port .halted (low .empty))) = (0, true, false)
      ∧ summarised (after (.removal 7) (port .restarting (high .online))) = (0, true, false)) := by decide +kernel

theorem test_summary_of_bringup : (let s := State.reset.setLines 23 { presence := true, ready := false }
    summarised (after (.bringupEnd 0) s) = (0, true, false) ∧ summarised (after (.bringupEnd 0) State.reset) = (0, false, false)) := by
  decide +kernel

/-! ## Spin-ups when a hold or a cap ends -/

/-- Bay 7 in a state, the head of group 3 tagged there. -/
def headOn (st : BayState) : State :=
  ((headed serviceOf 100).setFifo 7 9 Fifo.initial).setBay 7 { Bay.initial with state := st, capacity := 100000 }

/-- The same where TRIGGERED is set and group 3 is held. -/
def heldOn (st : BayState) : State := { headOn st with capture := { FaultCapture.initial with triggered := true, holdMask := 0x8 } }

theorem test_spinUp_after_hold : (let hold := copyOf [(1, 17), (32, 1)]
    let same := copyOf [(1, 17), (32, 0)]
    let clear := copyOf [(1, 18)]
    let start := (BayState.spinningUp, false, [CommandKind.start])
    spin (after (.holdSet 8) (State.holding (heldOn .spunDown) 8 hold)) = start
      ∧ spin (after (.holdSet 8) (State.holding (heldOn .spinningDown) 8 hold)) = (.spinningDown, true, [])
      ∧ spin (after (.holdSet 8) (State.holding (heldOn .spunDown) 8 (copyOf [(1, 17), (32, 8)]))) = (.spunDown, false, [])
      ∧ spin (after (.holdSet 8) (State.holding (headOn .spunDown) 8 same)) = (.spunDown, false, [])
      ∧ spin (after (.faultClear 8) (State.holding (heldOn .spunDown) 8 clear)) = start
      ∧ summarised (after (.faultClear 8) (State.holding (heldOn .spunDown) 8 clear)) = (1, false, true)
      ∧ spin (after (.faultClear 8) (State.holding (headOn .spunDown) 8 clear)) = (.spunDown, false, [])) := by decide +kernel

theorem test_spinUp_after_record : (let s := fun (p : PartState) st rearm => { State.port (heldOn st) (fun x => { x with part := p }) with
      capture := { FaultCapture.initial with
        triggered := true, holdMask := 0x8, autoRearm := rearm, record := some record, writing := some 0x100000 } }
    spin (after .faultRecordWriteEnd (s .running .spunDown true)) = (.spinningUp, false, [.start])
      ∧ spin (after .faultRecordWriteEnd (s .stopping .spinningDown true)) = (.spinningDown, true, [])
      ∧ spin (after .faultRecordWriteEnd (s .running .spunDown false)) = (.spunDown, false, [])
      ∧ spin (after .faultRecordWriteEnd (s .stopped .spunDown true)) = (.spunDown, false, [])) := by decide +kernel

theorem test_spinUp_after_cap : (let s := fun st => { (headOn st).setGroup 3 { Group.initial with capReached := true } with
      clock := { LoanClock.initial with meterTickCount := 59 } }
    spin (after .meterPeriodEnd (s .spunDown)) = (.spinningUp, false, [.start])
      ∧ spin (after .meterPeriodEnd (s .spinningDown)) = (.spinningDown, true, [])
      ∧ spin (after .meterPeriodEnd (State.port (s .spunDown) (fun x => { x with part := .stopped }))) = (.spunDown, false, [])) := by
  decide +kernel

theorem test_wantsSpinUp : ¬(heldOn .spunDown).wantsSpinUp 7 ∧ (headOn .spunDown).wantsSpinUp 7 := by
  refine ⟨fun h => ?_, 3, 5, ⟨16, 100⟩, serviceOf, by decide, by decide +kernel, by decide +kernel, by decide +kernel,
    by decide +kernel, by decide +kernel, by decide +kernel, ⟨0, by decide +kernel⟩, fun _ h => absurd h List.not_mem_nil⟩
  rw [State.wantsSpinUp_iff] at h
  exact absurd h (by decide +kernel)

end Sys2Proof.Tests
end

section
namespace Sys2Proof.Machine

-- One proof at a time: proofs that wait for one another's case analyses would each hold a stack of their own.
set_option Elab.async false

/-! ## Footprints of whole commands, and what lies outside a footprint -/

section
variable {ps : List Part} {s t : State}

theorem Touches.loans (h : Touches ps s t) (w : Part.loans ∉ ps := by decide) : t.loans = s.loans := h.same .loans w
theorem Touches.part (h : Touches ps s t) (w : Part.part ∉ ps := by decide) : t.exchange.part = s.exchange.part := (h.same .part w).1
theorem Touches.base (h : Touches ps s t) (w : Part.base ∉ ps := by decide) : t.exchange.base = s.exchange.base := h.same .base w
theorem Touches.held (h : Touches ps s t) (w : Part.held ∉ ps := by decide) : t.exchange.held = s.exchange.held := h.same .held w
theorem Touches.answerList (h : Touches ps s t) (w : Part.answers ∉ ps := by decide) :
    t.exchange.answerList = s.exchange.answerList := (h.same .answers w).1
theorem Touches.answerBusy (h : Touches ps s t) (w : Part.answers ∉ ps := by decide) :
    t.exchange.answerBusy = s.exchange.answerBusy := (h.same .answers w).2
theorem Touches.lapseQueue (h : Touches ps s t) (w : Part.lapseQueue ∉ ps := by decide) :
    t.exchange.lapseQueue = s.exchange.lapseQueue := h.same .lapseQueue w
theorem Touches.answerQueue (h : Touches ps s t) (w : Part.answerQueue ∉ ps := by decide) :
    t.exchange.answerQueue = s.exchange.answerQueue := h.same .answerQueue w
theorem Touches.control (h : Touches ps s t) (w : Part.control ∉ ps := by decide) :
    t.exchange.control = s.exchange.control := h.same .control w
theorem Touches.notices (h : Touches ps s t) (w : Part.notices ∉ ps := by decide) : t.notices = s.notices := h.same .notices w
theorem Touches.clock (h : Touches ps s t) (w : Part.clock ∉ ps := by decide) : t.clock = s.clock := h.same .clock w
theorem Touches.meters (h : Touches ps s t) (w : Part.meters ∉ ps := by decide) : t.meters = s.meters := h.same .meters w
theorem Touches.staging (h : Touches ps s t) (w : Part.staging ∉ ps := by decide) : t.staging = s.staging := h.same .staging w
theorem Touches.fifos (h : Touches ps s t) (w : Part.fifos ∉ ps := by decide) : t.shares.fifos = s.shares.fifos := h.same .fifos w
theorem Touches.arbiters (h : Touches ps s t) (w : Part.arbiters ∉ ps := by decide) :
    t.shares.arbiters = s.shares.arbiters := h.same .arbiters w
theorem Touches.records (h : Touches ps s t) (w : Part.records ∉ ps := by decide) : t.bays.records = s.bays.records :=
  h.same .records w
theorem Touches.hostMem (h : Touches ps s t) (w : Part.hostMem ∉ ps := by decide) : t.hostMem = s.hostMem := h.same .hostMem w

theorem Touches.loan (h : Touches ps s t) (n : Nat) (w : Part.loans ∉ ps := by decide) : t.loan n = s.loan n := by
  simp only [State.loan, h.loans w]
theorem Touches.waiting (h : Touches ps s t) (b : Nat) (w : Part.loans ∉ ps := by decide) : t.waiting b = s.waiting b := by
  simp only [State.waiting, h.loans w]
theorem Touches.serving (h : Touches ps s t) (w : Part.part ∉ ps := by decide) : t.serving = s.serving := by
  simp only [State.serving, h.part w]
theorem Touches.order (h : Touches ps s t) (c : Nat) (w : Part.held ∉ ps := by decide) : t.order? c = s.order? c := by
  simp only [State.order?, h.held w]
theorem Touches.transfer (h : Touches ps s t) (c : Nat) (w : Part.held ∉ ps := by decide) : t.transfer? c = s.transfer? c := by
  simp only [State.transfer?, h.order c w]
theorem Touches.fifo (h : Touches ps s t) (b g : Nat) (w : Part.fifos ∉ ps := by decide) : t.fifo b g = s.fifo b g := by
  simp only [State.fifo, h.fifos w]
theorem Touches.arbiter (h : Touches ps s t) (b : Nat) (w : Part.arbiters ∉ ps := by decide) : t.arbiter b = s.arbiter b := by
  simp only [State.arbiter, h.arbiters w]
theorem Touches.slot (h : Touches ps s t) (k : Nat) (w : Part.staging ∉ ps := by decide) : t.slot k = s.slot k := by
  simp only [State.slot, h.staging w]
theorem Touches.bay (h : Touches ps s t) (b : Nat) (w : Part.records ∉ ps := by decide) : t.bay b = s.bay b := by
  simp only [State.bay, h.records w]
theorem Touches.meter (h : Touches ps s t) (g : Nat) (w : Part.meters ∉ ps := by decide) : t.meter g = s.meter g := by
  simp only [State.meter, h.meters w]
theorem Touches.lines (h : Touches ps s t) (b : Nat) (w : Part.lines ∉ ps := by decide) : t.lines b = s.lines b := by
  have : t.bays.lines = s.bays.lines := h.same .lines w
  simp only [State.lines, this]
theorem Touches.readyHigh (h : Touches ps s t) (b : Nat) (w : Part.lines ∉ ps := by decide) : t.readyHigh b = s.readyHigh b := by
  simp only [State.readyHigh, h.lines b w]
theorem Touches.tagHolder (h : Touches ps s t) (b i : Nat) (w : Part.arbiters ∉ ps := by decide) :
    t.tagHolder b i = s.tagHolder b i := by
  simp only [State.tagHolder, h.arbiter b w]

/-- A bay's work is what its FIFOs, its command tags and its slots show (R119). -/
theorem Touches.hasWork (h : Touches ps s t) (b : Nat) (w : Part.fifos ∉ ps := by decide) (w' : Part.arbiters ∉ ps := by decide)
    (w'' : Part.staging ∉ ps := by decide) : t.hasWork b = s.hasWork b := by
  simp only [State.hasWork, State.fifo, State.tagHolder, State.arbiter, h.fifos w, h.arbiters w', h.staging w'']

end

/-! ## Orders as commands -/

section
variable (cell : Fin 1024) (s : State)

theorem exec_loanOpen : exec (.loanOpen cell) s = s.handling .loanOpen cell (fun s c => s.openLoan cell c) := rfl
theorem exec_loanRenew : exec (.loanRenew cell) s = s.handling .loanRenew cell (fun s c => s.renewLoan cell c) := rfl
theorem exec_loanReturn : exec (.loanReturn cell) s = s.handling .loanReturn cell (fun s c => s.returnLoan cell c) := rfl
theorem exec_loanQuery : exec (.loanQuery cell) s = s.handling .loanQuery cell (fun s c => s.queryLoan cell c) := rfl
theorem exec_read : exec (.read cell) s = s.handling .read cell (fun s c => s.loanTransfer .read cell c) := rfl
theorem exec_write : exec (.write cell) s = s.handling .write cell (fun s c => s.loanTransfer .write cell c) := rfl
theorem exec_appendWrite : exec (.appendWrite cell) s = s.handling .appendWrite cell (fun s c => s.appendOrder cell c) := rfl
theorem exec_serviceRead :
    exec (.serviceRead cell) s = s.handling .serviceRead cell (fun s c => s.serviceTransfer .serviceRead cell c) := rfl
theorem exec_serviceWrite :
    exec (.serviceWrite cell) s = s.handling .serviceWrite cell (fun s c => s.serviceTransfer .serviceWrite cell c) := rfl
theorem exec_groupSet : exec (.groupSet cell) s = s.handling .groupSet cell (fun s c =>
    s.policy cell c [(3, c.group < Config.numGroups)] (fun s => (s.setShare c.group c.weight c.cap).reply cell .ok 0)) := rfl
theorem exec_diskSet : exec (.diskSet cell) s = s.handling .diskSet cell (fun s c =>
    s.policy cell c [(3, c.bay < Config.numBays), (4, c.seekShift ≤ 31)] (fun s => (s.setDisk c).reply cell .ok 0)) := rfl
theorem exec_clockSet : exec (.clockSet cell) s = s.handling .clockSet cell (fun s c =>
    s.policy cell c [(3, c.prescaleCode ≤ 3)] (fun s => s.setClock cell c)) := rfl
theorem exec_bayAdmit : exec (.bayAdmit cell) s = s.handling .bayAdmit cell (fun s c =>
    s.policy cell c [(3, c.bay < Config.numBays)] (fun s => s.admitBay cell c.bay)) := rfl
theorem exec_bayRetire : exec (.bayRetire cell) s = s.handling .bayRetire cell (fun s c =>
    s.policy cell c [(3, c.bay < Config.numBays)] (fun s => s.answerRetire cell c.bay)) := rfl
theorem exec_bayWatch : exec (.bayWatch cell) s = s.handling .bayWatch cell (fun s c =>
    s.policy cell c
      [(3, c.watchEnable.isSome), (4, c.bayMask < 16777216), (5, c.watchEnable != some true || c.edgeSelect.isSome)]
      (fun s => s.watchBays cell c)) := rfl
theorem exec_slotFlush : exec (.slotFlush cell) s = s.handling .slotFlush cell (fun s c =>
    s.policy cell c [(3, c.bay < Config.numBays), (4, c.count != 0), (5, c.first + c.count ≤ 4294967296)]
      (fun s => s.flush cell c.bay c.first c.count)) := rfl
theorem exec_holdSet : exec (.holdSet cell) s = s.handling .holdSet cell (fun s c =>
    s.policy cell c [] (fun s => s.setHold cell c.holdMask c.autoRearm)) := rfl
theorem exec_faultClear : exec (.faultClear cell) s = s.handling .faultClear cell (fun s c =>
    s.policy cell c [] (fun s => s.clearFault cell)) := rfl

end

/-- Power-on leaves the lines, host memory and the queue of commands. -/
theorem State.powerOn_touches (s : State) : Touches (footprint .powerOn) s s.powerOn := by
  refine ⟨fun p out => ?_⟩
  cases p
  case lines => rfl
  case hostMem => rfl
  case pending => rfl
  all_goals exact absurd (by decide) out

theorem State.linkUp_touches (s : State) : Touches (footprint .linkUp) s { s with link := { s.link with up := true } } := by
  refine ⟨fun p out => ?_⟩
  cases p
  case link => exact absurd (by decide) out
  all_goals and_intros <;> rfl

/-- Every command keeps to its footprint. -/
theorem exec_touches {c : Instr} {s t : State} (h : exec c s = .next t) : Touches (footprint c) s t := by
  cases c
  case powerOn => cases h; exact State.powerOn_touches s
  case bringupEnd => cases h; exact State.bringupEnd_touches ..
  case linkReset => cases h; exact State.linkReset_touches ..
  case restartEffects =>
    cases h
    split
    · exact State.restartEffects_touches ..
    · exact Touches.refl ..
  case restart => cases h; exact State.writeControl_touches ..
  case run => cases h; exact State.writeControl_touches ..
  case runStop => cases h; exact State.writeControl_touches ..
  case intakeMode => cases h; exact State.writeControl_touches ..
  case answerMode => cases h; exact State.writeControl_touches ..
  case sweepMs => cases h; exact State.writeControl_touches ..
  case exchangeBase => cases h; exact State.writeBase_touches ..
  case post => cases h; exact State.writePost_touches ..
  case answer => cases h; exact State.readAnswer_touches ..
  case lapse => cases h; exact State.readLapse_touches ..
  case notice => cases h; exact State.writeNotice_touches ..
  case noticeEnable => cases h; exact State.writeEnable_touches ..
  case registerWriteIgnored => cases h; exact Touches.refl ..
  case postFifoIntake => cases h; exact State.takePosted_touches ..
  case sweep => cases h; exact State.beginSweep_touches ..
  case sweepVisit => cases h; exact State.visited_touches ..
  case take => cases h; exact State.endTake_touches ..
  case loanOpen => rw [exec_loanOpen] at h; exact State.handling_touches h (fun u x => (State.openLoan_touches ..).mono rfl) rfl rfl
  case loanRenew => rw [exec_loanRenew] at h; exact State.handling_touches h (fun u x => (State.renewLoan_touches ..).mono rfl) rfl rfl
  case loanReturn => rw [exec_loanReturn] at h; exact State.handling_touches h (fun u x => (State.returnLoan_touches ..).mono rfl) rfl rfl
  case loanQuery => rw [exec_loanQuery] at h; exact State.handling_touches h (fun u x => (State.queryLoan_touches ..).mono rfl) rfl rfl
  case read => rw [exec_read] at h; exact State.handling_touches h (fun u x => (State.loanTransfer_touches ..).mono rfl) rfl rfl
  case write => rw [exec_write] at h; exact State.handling_touches h (fun u x => (State.loanTransfer_touches ..).mono rfl) rfl rfl
  case appendWrite => rw [exec_appendWrite] at h; exact State.handling_touches h (fun u x => (State.appendOrder_touches ..).mono rfl) rfl rfl
  case serviceRead => rw [exec_serviceRead] at h; exact State.handling_touches h (fun u x => (State.serviceTransfer_touches ..).mono rfl) rfl rfl
  case serviceWrite => rw [exec_serviceWrite] at h; exact State.handling_touches h (fun u x => (State.serviceTransfer_touches ..).mono rfl) rfl rfl
  case groupSet =>
    rw [exec_groupSet] at h
    refine State.handling_touches h (fun u x => State.policy_touches _ _ _ _ _ ?_ rfl) rfl rfl
    exact (State.reply_touches ..).after rfl ((State.setShare_touches ..).mono rfl)
  case diskSet =>
    rw [exec_diskSet] at h
    refine State.handling_touches h (fun u x => State.policy_touches _ _ _ _ _ ?_ rfl) rfl rfl
    exact (State.reply_touches ..).after rfl ((State.setDisk_touches ..).mono rfl)
  case clockSet =>
    rw [exec_clockSet] at h
    exact State.handling_touches h (fun u x => State.policy_touches _ _ _ _ _ ((State.setClock_touches ..).mono rfl) rfl) rfl rfl
  case bayAdmit =>
    rw [exec_bayAdmit] at h
    exact State.handling_touches h (fun u x => State.policy_touches _ _ _ _ _ ((State.admitBay_touches ..).mono rfl) rfl) rfl rfl
  case bayRetire =>
    rw [exec_bayRetire] at h
    exact State.handling_touches h (fun u x => State.policy_touches _ _ _ _ _ ((State.answerRetire_touches ..).mono rfl) rfl) rfl rfl
  case bayWatch =>
    rw [exec_bayWatch] at h
    exact State.handling_touches h (fun u x => State.policy_touches _ _ _ _ _ ((State.watchBays_touches ..).mono rfl) rfl) rfl rfl
  case slotFlush =>
    rw [exec_slotFlush] at h
    exact State.handling_touches h (fun u x => State.policy_touches _ _ _ _ _ ((State.flush_touches ..).mono rfl) rfl) rfl rfl
  case holdSet =>
    rw [exec_holdSet] at h
    exact State.handling_touches h (fun u x => State.policy_touches _ _ _ _ _ ((State.setHold_touches ..).mono rfl) rfl) rfl rfl
  case faultClear =>
    rw [exec_faultClear] at h
    exact State.handling_touches h (fun u x => State.policy_touches _ _ _ _ _ ((State.clearFault_touches ..).mono rfl) rfl) rfl rfl
  case tick => cases h; exact State.tick_touches ..
  case waitExpired => cases h; split; exacts [State.tick_touches .., Touches.refl ..]
  case termLapse => cases h; split; exacts [State.tick_touches .., Touches.refl ..]
  case spinDown => cases h; split; exacts [State.tick_touches .., Touches.refl ..]
  case meterPeriodEnd => cases h; split; exacts [State.tick_touches .., Touches.refl ..]
  case dispatch =>
    cases h
    exact (State.beginRecords_touches _).after rfl ((State.dispatch_touches ..).mono rfl)
  case deliveryItemStart => cases h; exact State.startChannel_touches ..
  case deliveryEnd => cases h; exact State.deliveryEnd_touches ..
  case fetchEnd => cases h; exact State.fetchEnd_touches ..
  case stagingError => cases h; exact State.stagingErrorOn_touches ..
  case diskReadEnd => cases h; exact State.diskReadEnd_touches ..
  case diskWriteEnd => cases h; exact State.diskWriteEnd_touches ..
  case mediaError => cases h; exact State.mediaError_touches ..
  case linkError => cases h; exact State.linkError_touches ..
  case cmdTimeout => cases h; exact State.cmdTimeout_touches ..
  case standbyEnd => cases h; exact State.standbyEnd_touches ..
  case startEnd => cases h; exact State.startEnd_touches ..
  case identifyEnd => cases h; exact State.identifyEnd_touches ..
  case operationTimeout =>
    cases h
    exact (State.beginRecords_touches _).after rfl ((State.operationFails_touches ..).mono rfl)
  case readyRise => cases h; exact State.readyRise_touches ..
  case readyFall => cases h; exact State.readyFall_touches ..
  case readyLost => cases h; exact State.readyLost_touches ..
  case presenceRise => cases h; exact State.presenceRise_touches ..
  case removal => cases h; exact State.presenceFall_touches ..
  case faultRecordWriteEnd => cases h; exact State.faultRecordWritten_touches ..
  case meterBlockWriteEnd => cases h; exact State.meterBlockWritten_touches ..
  case baySummaryWriteEnd => cases h; exact State.baySummaryWritten_touches ..
  case answerWritten => cases h; exact State.answerWritten_touches ..
  case exchangeAreaError => cases h; exact State.accessFails_touches ..
  case linkUp => cases h; exact State.linkUp_touches s
  case interimWriteEnd => cases h; exact State.interimWritten_touches ..

/-- Taking a command from the queue leaves everything but the queue. -/
theorem touches_pending (s : State) (rest : List Instr) : Touches [.pending] s { s with pending := rest } := by
  refine ⟨fun p out => ?_⟩
  cases p
  case pending => exact absurd (by decide) out
  all_goals and_intros <;> rfl

/-- A step is a cycle of the reference or one command on the state with the queue's rest. -/
theorem step_cases {s t : State} (h : step s = .next t) :
    (s.pending = [] ∧ t = s.microsecond) ∨ ∃ c rest, s.pending = c :: rest ∧ exec c { s with pending := rest } = .next t := by
  unfold step at h
  split at h
  · next empty => cases h; exact .inl ⟨empty, rfl⟩
  · next c rest front => exact .inr ⟨c, rest, front, h⟩

/-! ## Tables by rising number -/

section
variable {α : Type} {d v : α} {t : Table α} {n : Nat}

theorem Table.get_of_mem (h : Table.ordered t) (e : (n, v) ∈ t) : Table.get d t n = v := by
  induction t with
  | nil => simp at e
  | cons x t ih =>
    obtain ⟨below, h⟩ := List.pairwise_cons.1 h
    rcases List.mem_cons.1 e with rfl | e
    · simp [Table.get]
    · have : x.1 ≠ n := Nat.ne_of_lt (below n (List.mem_map_of_mem (f := Prod.fst) e))
      simp [Table.get, this, ih h e]

theorem Table.mem_of_get_ne (h : Table.get d t n ≠ d) : (n, Table.get d t n) ∈ t := by
  induction t with
  | nil => simp [Table.get] at h
  | cons x t ih =>
    by_cases hx : x.1 = n
    · simp [Table.get, ← hx]
    · simp only [Table.get, hx, if_false] at h ⊢
      exact List.mem_cons_of_mem _ (ih h)

/-- An entry that a predicate finds, where the default is none that it finds. -/
theorem Table.any_iff (h : Table.ordered t) (p : α → Bool) (hd : p d = false) :
    t.any (fun e => p e.2) = true ↔ ∃ n, p (Table.get d t n) = true := by
  constructor
  · intro a
    obtain ⟨⟨n, v⟩, mem, pv⟩ := List.any_eq_true.1 a
    exact ⟨n, by rw [Table.get_of_mem h mem]; exact pv⟩
  · rintro ⟨n, pv⟩
    exact List.any_eq_true.2 ⟨_, Table.mem_of_get_ne (d := d) (n := n) (fun e => by simp [e, hd] at pv), pv⟩

theorem Table.keys_insert_mem {m : Nat} (h : m ∈ Table.keys (Table.insert t n v)) : m = n ∨ m ∈ Table.keys t := by
  induction t with
  | nil => simpa [Table.insert, Table.keys] using h
  | cons x t ih =>
    simp only [Table.insert] at h
    split at h
    · simpa [Table.keys] using h
    · split at h
      · next he => simp only [Table.keys, List.map_cons, List.mem_cons] at h ⊢; tauto
      · simp only [Table.keys, List.map_cons, List.mem_cons] at h ih ⊢
        rcases h with h | h
        · exact .inr (.inl h)
        · rcases ih h with h | h
          · exact .inl h
          · exact .inr (.inr h)

theorem Table.ordered_insert (h : Table.ordered t) : Table.ordered (Table.insert t n v) := by
  induction t with
  | nil => simp [Table.insert, Table.ordered, Table.keys]
  | cons x t ih =>
    obtain ⟨below, rest⟩ := List.pairwise_cons.1 h
    simp only [Table.insert]
    split
    · next lt =>
      refine List.pairwise_cons.2 ⟨fun k hk => ?_, h⟩
      rcases List.mem_cons.1 hk with rfl | hk
      · exact lt
      · exact Nat.lt_trans lt (below k hk)
    · split
      · next eq => exact List.pairwise_cons.2 ⟨fun k hk => by simpa [eq] using below k hk, rest⟩
      · next nlt ne =>
        refine List.pairwise_cons.2 ⟨fun k hk => ?_, ih rest⟩
        rcases Table.keys_insert_mem hk with rfl | hk
        · exact Nat.lt_of_le_of_ne (Nat.le_of_not_lt nlt) (Ne.symm ne)
        · exact below k hk

theorem Table.ordered_filter (h : Table.ordered t) (p : Nat × α → Bool) : Table.ordered (t.filter p) :=
  List.Pairwise.sublist ((List.filter_sublist).map Prod.fst) h

theorem Table.ordered_set [DecidableEq α] (h : Table.ordered t) : Table.ordered (Table.set d t n v) := by
  unfold Table.set
  split
  · exact Table.ordered_filter h _
  · exact Table.ordered_insert h

end

/-! ## Conflicts -/

theorem conflicts_comm (a b : Loan) : conflicts a b = conflicts b a := by
  simp only [conflicts, overlaps]
  rw [Bool.and_comm (decide (a.first < _)), Bool.and_comm (a.mode == _), Bool.beq_comm (a := a.bay)]

theorem conflicts_otherBay {a b : Loan} (h : a.bay ≠ b.bay) : conflicts a b = false := by simp [conflicts, h]

/-- Conflicts are a matter of bay, range and mode (R3). -/
theorem conflicts_congr {a b l m : Loan} (hl : l.bay = a.bay ∧ l.first = a.first ∧ l.count = a.count ∧ l.mode = a.mode)
    (hm : m.bay = b.bay ∧ m.first = b.first ∧ m.count = b.count ∧ m.mode = b.mode) : conflicts l m = conflicts a b := by
  obtain ⟨h1, h2, h3, h4⟩ := hl
  obtain ⟨k1, k2, k3, k4⟩ := hm
  simp only [conflicts, h1, h2, h3, h4, k1, k2, k3, k4]

theorem State.mem_loansWhere {s : State} {p : Loan → Bool} (free : p .free = false) {n : Nat} :
    n ∈ s.loansWhere p ↔ p (s.loan n) = true := by
  simp only [State.loansWhere, List.mem_filter, and_iff_right_iff_imp]
  intro h
  refine Table.mem_keys_of_get_ne .free s.loans.table n (fun e => ?_)
  have : s.loan n = .free := e
  simp [this, free] at h

theorem State.mem_rivals {s : State} {l : Loan} {m : Nat} :
    m ∈ s.rivals l ↔ (s.loan m).state.inConflictSet = true ∧ conflicts (s.loan m) l = true := by
  rw [State.rivals, State.mem_loansWhere (by rfl), Bool.and_eq_true]

/-- A waiting loan is not blocked exactly when R9 grants it. -/
theorem State.blocked_eq_false {s : State} {n : Nat} {ahead : List Nat} : s.blocked n ahead = false ↔ s.grantable ahead n := by
  simp only [State.blocked, State.grantable, Bool.or_eq_false_iff, List.any_eq_false, State.mem_rivals, bne_iff_ne, ne_eq, and_imp,
    Decidable.not_not, Bool.not_eq_true]
  refine and_congr_left (fun _ => forall_congr' (fun m => ?_))
  cases conflicts (s.loan m) (s.loan n) <;> cases (s.loan m).state.inConflictSet <;> simp

/-! ## What the operations on loans do to the loans and the waiting lists -/

section
variable (s : State) (m n b c cell : Nat) (l : Loan)

theorem State.reply_loan (r : Result) (d : Nat) : (s.reply cell r d).loan m = s.loan m := (s.reply_touches cell r d).loan m
theorem State.replyOpt_loan (x : Option Nat) (r : Result) (d : Nat) : (s.replyOpt x r d).loan m = s.loan m :=
  (s.replyOpt_touches x r d).loan m
theorem State.replyOpt_waiting (x : Option Nat) (r : Result) (d : Nat) : (s.replyOpt x r d).waiting b = s.waiting b :=
  (s.replyOpt_touches x r d).waiting b

/-- The Loan Manager takes a number out of the Lapse Queue, wherever it stands (R16). -/
theorem State.dropLapse_lapseQueue : (s.dropLapse n).exchange.lapseQueue = s.exchange.lapseQueue.filter (fun m => m != n) := by
  unfold State.dropLapse
  split
  · rfl
  · next absent =>
    refine (List.filter_eq_self.2 (fun a ha => ?_)).symm
    rw [bne_iff_ne]; rintro rfl; exact absent ha

theorem State.freeLoan_loan : (s.freeLoan n).loan m = if m = n then .free else s.loan m := by
  rw [State.freeLoan, (State.dropLapse_touches ..).loan, State.setWaiting_loan, State.loan_setLoan]

theorem State.freeLoan_waiting : (s.freeLoan n).waiting b =
    if b = (s.loan n).bay then (s.waiting b).filter (fun m => m != n) else s.waiting b := by
  rw [State.freeLoan, (State.dropLapse_touches ..).waiting, State.waiting_setWaiting]
  split
  · next h => rw [h]
  · rfl

theorem State.freeLoan_lapseQueue : (s.freeLoan n).exchange.lapseQueue = s.exchange.lapseQueue.filter (fun m => m != n) := by
  rw [State.freeLoan, State.dropLapse_lapseQueue]; rfl

theorem State.expire_loan : (s.expire n).loan m = if m = n then .free else s.loan m := by
  rw [State.expire, State.replyOpt_loan, State.freeLoan_loan]

theorem State.expire_waiting : (s.expire n).waiting b =
    if b = (s.loan n).bay then (s.waiting b).filter (fun m => m != n) else s.waiting b := by
  rw [State.expire, State.replyOpt_waiting, State.freeLoan_waiting]

theorem State.faultWaiting_loan : (s.faultWaiting n).loan m = if m = n then .free else s.loan m := by
  rw [State.faultWaiting, State.freeLoan_loan, State.replyOpt_loan]

theorem State.faultWaiting_waiting : (s.faultWaiting n).waiting b =
    if b = (s.loan n).bay then (s.waiting b).filter (fun m => m != n) else s.waiting b := by
  rw [State.faultWaiting, State.freeLoan_waiting, State.replyOpt_waiting, State.replyOpt_loan]

theorem State.faultLoan_loan (cause : Cause) : (s.faultLoan cause n).loan m =
    if m = n then { s.loan n with state := .faulted, faultCause := cause } else s.loan m := by
  rw [State.faultLoan, (State.dropLapse_touches ..).loan, State.loan_setLoan]

theorem State.faultLoan_waiting (cause : Cause) : (s.faultLoan cause n).waiting b = s.waiting b := by
  rw [State.faultLoan, (State.dropLapse_touches ..).waiting, State.setLoan_waiting]

theorem State.finishReturn_loan : (s.finishReturn n).loan m = if m = n then .free else s.loan m := by
  rw [State.finishReturn, State.replyOpt_loan, State.freeLoan_loan]

theorem State.finishReturn_waiting : (s.finishReturn n).waiting b =
    if b = (s.loan n).bay then (s.waiting b).filter (fun m => m != n) else s.waiting b := by
  rw [State.finishReturn, State.replyOpt_waiting, State.freeLoan_waiting]

/-- A loan as a grant leaves it (R9). -/
def Loan.granted (l : Loan) : Loan := { l with state := .held, wait := 0, openingCell := none }

theorem State.grant_loan : (s.grant n).loan m = if m = n then (s.loan n).granted else s.loan m := by
  rw [State.grant, State.replyOpt_loan, State.loan_setLoan]; rfl

theorem State.grant_waiting : (s.grant n).waiting b = s.waiting b := by
  rw [State.grant, State.replyOpt_waiting, State.setLoan_waiting]

/-- A loan as a lapse leaves it (R14). -/
def Loan.afterLapse (l : Loan) : Loan := { l with state := if l.inFlight = 0 then .lapsed else .lapsing, term := 0 }

theorem State.pushLapse_lapseQueue : (s.pushLapse n).exchange.lapseQueue = s.exchange.lapseQueue ++ [n] := rfl

theorem State.lapseLoan_loan : (s.lapseLoan n).loan m = if m = n then (s.loan n).afterLapse else s.loan m := by
  rw [State.lapseLoan, (State.pushLapse_touches ..).loan, State.loan_setLoan, (State.removeQueued_touches ..).loan,
    (State.replyAll_touches ..).loan]
  rfl

theorem State.lapseLoan_waiting : (s.lapseLoan n).waiting b = s.waiting b := by
  rw [State.lapseLoan, (State.pushLapse_touches ..).waiting, State.setLoan_waiting, (State.removeQueued_touches ..).waiting,
    (State.replyAll_touches ..).waiting]

theorem State.mapLoans_loan (f : Loan → Loan) (h : f .free = .free) : (s.mapLoans f).loan n = f (s.loan n) :=
  Table.get_map _ _ _ f h

end

/-! ## Answers that an operation decides -/

theorem State.answered_refl (s : State) : s.answered s [] := by simp [State.answered]

/-- Answers decided one after another, while the part state stays (R178). -/
theorem State.answered.trans {s t u : State} {as bs : List AnswerWrite} (h : s.answered t as) (k : t.answered u bs)
    (serving : t.serving = s.serving) : s.answered u (as ++ bs) := by
  obtain ⟨h1, h2⟩ := h
  obtain ⟨k1, k2⟩ := k
  refine ⟨by rw [k1, h1, List.append_assoc], ?_⟩
  rw [k2, h2, serving]
  cases as <;> cases s.serving <;> simp

theorem State.answered_of_eq {s t : State} (list : t.exchange.answerList = s.exchange.answerList)
    (busy : t.exchange.answerBusy = s.exchange.answerBusy) : s.answered t [] := by
  simp [State.answered, list, busy]

/-- An operation outside the Answer Write list decides no answer. -/
theorem Touches.answered_nil {ps : List Part} {s t : State} (h : Touches ps s t) (w : Part.answers ∉ ps := by decide) :
    s.answered t [] := State.answered_of_eq (h.answerList w) (h.answerBusy w)

theorem State.putAnswer_answered (s : State) (w : AnswerWrite) : s.answered (s.putAnswer w) [w] := by
  simp [State.answered]

theorem State.answerWith_answered (s : State) (c : Nat) (r : Result) (d n : Nat) (src : Source) :
    s.answered (s.answerWith c r d n src) [reported c r d n src] := s.putAnswer_answered _

theorem State.reply_answered (s : State) (c : Nat) (r : Result) (d : Nat) : s.answered (s.reply c r d) [plain c r d] :=
  s.putAnswer_answered _

theorem State.replyOpt_answered (s : State) (c : Option Nat) (r : Result) (d : Nat) :
    s.answered (s.replyOpt c r d) (c.toList.map (fun x => plain x r d)) := by
  cases c
  · exact s.answered_refl
  · exact s.reply_answered _ _ _

theorem State.replyAll_answered (s : State) (cells : List Nat) (r : Result) (d : Nat) :
    s.answered (s.replyAll cells r d) (cells.map (fun c => plain c r d)) := by
  unfold State.replyAll
  induction cells generalizing s with
  | nil => exact s.answered_refl
  | cons c cells ih => exact (s.reply_answered c r d).trans (ih _) rfl

/-! ## The examination of a waiting list (R9) -/

section
variable (s : State)

/-- The loans that the walk of an examination grants, behind those passed that still wait. -/
def State.grantedFrom (s : State) (ahead : List Nat) (todo : List Nat) : List Nat :=
  match todo with
  | [] => []
  | n :: rest =>
    if s.blocked n ahead then s.grantedFrom (ahead ++ [n]) rest
    else n :: ((s.grant n).grantedFrom ahead rest).filter (fun m => m != n)

/-- The loans that the examination of bay b grants. -/
def State.grantedOn (s : State) (b : Nat) : List Nat := s.grantedFrom [] (s.waiting b)

theorem State.grantedFrom_sublist (ahead todo : List Nat) : (s.grantedFrom ahead todo).Sublist todo := by
  induction todo generalizing s ahead with
  | nil => exact List.Sublist.refl _
  | cons n rest ih =>
    unfold State.grantedFrom
    split
    · exact (ih s _).cons n
    · exact ((List.filter_sublist).trans (ih _ _)).cons_cons n

theorem State.examineFrom_loan (b m : Nat) (ahead todo : List Nat) :
    (s.examineFrom b ahead todo).loan m = if m ∈ s.grantedFrom ahead todo then (s.loan m).granted else s.loan m := by
  induction todo generalizing s ahead with
  | nil => simp [State.examineFrom, State.grantedFrom]
  | cons n rest ih =>
    unfold State.examineFrom State.grantedFrom
    split
    · exact ih s _
    · rw [ih, State.grant_loan]
      by_cases h : m = n
      · subst h; simp [Loan.granted]
      · simp [h]

theorem State.examineFrom_waiting_other (b c : Nat) (ahead todo : List Nat) (h : c ≠ b) :
    (s.examineFrom b ahead todo).waiting c = s.waiting c := by
  induction todo generalizing s ahead with
  | nil => simp [State.examineFrom, h]
  | cons n rest ih =>
    unfold State.examineFrom
    split
    · exact ih s _
    · rw [ih, State.grant_waiting]

theorem State.examineFrom_waiting_sublist (b : Nat) (ahead todo : List Nat) :
    ((s.examineFrom b ahead todo).waiting b).Sublist (ahead ++ todo) := by
  induction todo generalizing s ahead with
  | nil => simp [State.examineFrom]
  | cons n rest ih =>
    unfold State.examineFrom
    split
    · simpa using ih s (ahead ++ [n])
    · exact (ih _ ahead).trans ((List.sublist_cons_self n rest).append_left ahead)

/-- In a list without repetition the granted loans leave it and every other stays. -/
theorem State.examineFrom_waiting (b : Nat) (ahead todo : List Nat) (nodup : todo.Nodup) :
    (s.examineFrom b ahead todo).waiting b = ahead ++ todo.filter (fun n => !(s.grantedFrom ahead todo).contains n) := by
  induction todo generalizing s ahead with
  | nil => simp [State.examineFrom]
  | cons n rest ih =>
    obtain ⟨fresh, nodup⟩ := List.nodup_cons.1 nodup
    unfold State.examineFrom State.grantedFrom
    split
    · have out : n ∉ s.grantedFrom (ahead ++ [n]) rest := fun h => fresh ((s.grantedFrom_sublist _ _).subset h)
      rw [ih s _ nodup]
      simp [out]
    · rw [ih _ _ nodup]
      simp only [List.contains_cons, List.filter_cons, BEq.rfl, Bool.true_or, Bool.not_true, Bool.false_eq_true, if_false]
      congr 1
      refine List.filter_congr (fun m hm => ?_)
      have : m ≠ n := fun e => fresh (e ▸ hm)
      simp [this]

/-- A loan that was granted has no opening cell left to be answered. -/
theorem State.grantAnswers_grant (n : Nat) (g : List Nat) :
    (s.grant n).grantAnswers g = s.grantAnswers (g.filter (fun m => m != n)) := by
  simp only [State.grantAnswers, List.filterMap_filter]
  congr 1
  funext m
  rw [State.grant_loan]
  by_cases h : m = n
  · subst h; simp [Loan.granted]
  · simp [h]

theorem State.examineFrom_answered (b : Nat) (ahead todo : List Nat) :
    s.answered (s.examineFrom b ahead todo) (s.grantAnswers (s.grantedFrom ahead todo)) := by
  induction todo generalizing s ahead with
  | nil => exact (s.setWaiting_touches b ahead).answered_nil
  | cons n rest ih =>
    unfold State.examineFrom State.grantedFrom
    split
    · exact ih s _
    · have own : s.answered (s.grant n) ((s.loan n).openingCell.toList.map (fun x => plain x .ok n)) :=
        (s.setLoan n _).replyOpt_answered _ _ _
      have all := own.trans (ih (s.grant n) ahead) ((s.setLoan n _).replyOpt_touches _ _ _).serving
      convert all using 1
      rw [State.grantAnswers_grant]
      cases ho : (s.loan n).openingCell <;> simp [State.grantAnswers, ho]

/-- Which loans of a waiting list are granted: those that R9 grants, behind the loans passed. -/
theorem State.mem_grantedFrom (ahead todo : List Nat) (nodup : todo.Nodup)
    (wait : ∀ n ∈ todo, (s.loan n).state.inConflictSet = false) (before : List Nat) (n : Nat) (after : List Nat)
    (split : todo = before ++ n :: after) : n ∈ s.grantedFrom ahead todo ↔ s.grantable (ahead ++ before) n := by
  induction todo generalizing s ahead before with
  | nil => simp at split
  | cons k rest ih =>
    obtain ⟨fresh, nodup⟩ := List.nodup_cons.1 nodup
    unfold State.grantedFrom
    cases before with
    | nil =>
      obtain ⟨rfl, rfl⟩ : k = n ∧ rest = after := by simpa using split
      rw [List.append_nil, ← State.blocked_eq_false]
      cases s.blocked k ahead with
      | true =>
        have out : k ∉ s.grantedFrom (ahead ++ [k]) rest := fun h => fresh ((s.grantedFrom_sublist _ _).subset h)
        simp [out]
      | false => simp
    | cons j before =>
      obtain ⟨rfl, tail⟩ : k = j ∧ rest = before ++ n :: after := by simpa using split
      have ne : n ≠ k := fun e => fresh (by rw [tail, ← e]; simp)
      cases hb : s.blocked k ahead with
      | true =>
        rw [if_pos rfl, ih s (ahead ++ [k]) nodup (fun m hm => wait m (List.mem_cons_of_mem _ hm)) before tail]
        simp
      | false =>
        have free : (s.loan k).state.inConflictSet = false := wait k (by simp)
        rw [if_neg (by simp), List.mem_cons, List.mem_filter, or_iff_right ne, bne_iff_ne, and_iff_left ne,
          ih (s.grant k) ahead nodup ?_ before tail]
        · have kn : ∀ m, conflicts ((s.grant k).loan m) ((s.grant k).loan n) = conflicts (s.loan m) (s.loan n) := by
            intro m
            rw [State.grant_loan, State.grant_loan, if_neg ne]
            split
            · next e => exact conflicts_congr (by simp [e, Loan.granted]) ⟨rfl, rfl, rfl, rfl⟩
            · rfl
          simp only [State.grantable, kn]
          constructor
          · rintro ⟨set, line⟩
            refine ⟨fun m hm st => set m hm ?_, fun m hm => ?_⟩
            · rw [State.grant_loan]; split
              · rfl
              · exact st
            · rcases List.mem_append.1 hm with hm | hm
              · exact line m (List.mem_append_left _ hm)
              · rcases List.mem_cons.1 hm with rfl | hm
                · exact set m (Ne.symm ne) (by rw [State.grant_loan, if_pos rfl]; rfl)
                · exact line m (List.mem_append_right _ hm)
          · rintro ⟨set, line⟩
            refine ⟨fun m hm st => ?_, fun m hm => ?_⟩
            · by_cases e : m = k
              · exact e ▸ line k (by simp)
              · exact set m hm (by rwa [State.grant_loan, if_neg e] at st)
            · refine line m ?_
              rcases List.mem_append.1 hm with hm | hm
              · exact List.mem_append_left _ hm
              · exact List.mem_append_right _ (List.mem_cons_of_mem _ hm)
        · intro m hm
          rw [State.grant_loan, if_neg (fun e : m = k => fresh (e ▸ hm))]
          exact wait m (List.mem_cons_of_mem _ hm)

end

section
variable {s t u : State} {b : Nat}

theorem State.examine_loan (s : State) (b m : Nat) :
    (s.examine b).loan m = if m ∈ s.grantedOn b then (s.loan m).granted else s.loan m := s.examineFrom_loan ..

theorem State.examine_waiting_other {c : Nat} (s : State) (h : c ≠ b) : (s.examine b).waiting c = s.waiting c :=
  s.examineFrom_waiting_other _ _ _ _ h

theorem State.examine_waiting_sublist (s : State) (b c : Nat) : ((s.examine b).waiting c).Sublist (s.waiting c) := by
  by_cases h : c = b
  · subst h; exact s.examineFrom_waiting_sublist ..
  · rw [s.examine_waiting_other h]

theorem State.grantedOn_sublist (s : State) (b : Nat) : (s.grantedOn b).Sublist (s.waiting b) := s.grantedFrom_sublist ..

theorem State.examine_answered (s : State) (b : Nat) : s.answered (s.examine b) (s.grantAnswers (s.grantedOn b)) :=
  s.examineFrom_answered ..

/-- The examination as it is seen from a state s that differs from the one it is made in by no more than waits of the bay's waiting
loans and by loans that do not count for them. -/
theorem State.examined_of_examine (nodup : (u.waiting b).Nodup) (waits : ∀ n ∈ u.waiting b, (u.loan n).state = .waiting)
    (list : u.waiting b = s.waiting b)
    (same : ∀ n ∈ s.waiting b, u.loan n = { s.loan n with wait := (u.loan n).wait })
    (rivals : ∀ n ∈ s.waiting b, ∀ m, m ≠ n →
      ((u.loan m).state.inConflictSet = true ∧ conflicts (u.loan m) (u.loan n) = true ↔
        (s.loan m).state.inConflictSet = true ∧ conflicts (s.loan m) (s.loan n) = true))
    (left : t.waiting b = (u.examine b).waiting b) (after : ∀ n ∈ s.waiting b, t.loan n = (u.examine b).loan n) :
    s.examined t b (u.grantedOn b) := by
  refine ⟨list ▸ u.grantedOn_sublist b, fun before n behind split => ?_, ?_, fun n hn => ?_⟩
  · have mem : n ∈ s.waiting b := by rw [split]; simp
    have extent : ∀ m ∈ s.waiting b, (u.loan m).bay = (s.loan m).bay ∧ (u.loan m).first = (s.loan m).first
        ∧ (u.loan m).count = (s.loan m).count ∧ (u.loan m).mode = (s.loan m).mode := fun m hm => by
      rw [same m hm]; exact ⟨rfl, rfl, rfl, rfl⟩
    rw [State.grantedOn, u.mem_grantedFrom [] (u.waiting b) nodup (fun x hx => by rw [waits x hx]; rfl) before n behind
      (list.trans split), List.nil_append]
    unfold State.grantable
    refine and_congr (forall_congr' fun m => forall_congr' fun ne => ?_) (forall_congr' fun m => forall_congr' fun hm => ?_)
    · rw [← Bool.not_eq_true, ← Bool.not_eq_true, ← not_and, ← not_and, rivals n mem m ne]
    · rw [conflicts_congr (extent m (by rw [split]; simp [hm])) (extent n mem)]
  · rw [left, ← list]; exact u.examineFrom_waiting b [] (u.waiting b) nodup
  · rw [after n hn, State.examine_loan]
    split
    · next g => exact ⟨rfl, rfl, rfl⟩
    · next g => rw [same n hn]

end

/-! ## The law of R3 -/

section
variable {s t : State}

/-- Every loan of the conflict set of t was in that of s already, with the same extent. -/
def State.narrows (s t : State) : Prop :=
  ∀ n, (t.loan n).state.inConflictSet = true → (s.loan n).state.inConflictSet = true
    ∧ (t.loan n).bay = (s.loan n).bay ∧ (t.loan n).first = (s.loan n).first ∧ (t.loan n).count = (s.loan n).count
    ∧ (t.loan n).mode = (s.loan n).mode

theorem State.conflictFree.narrow (h : s.conflictFree) (k : s.narrows t) : t.conflictFree := by
  intro m n ne hm hn
  obtain ⟨sm, em⟩ := k m hm
  obtain ⟨sn, en⟩ := k n hn
  rw [conflicts_congr em en]
  exact h m n ne sm sn

theorem State.conflictFree.congr (h : s.conflictFree) (k : ∀ n, t.loan n = s.loan n) : t.conflictFree :=
  h.narrow (fun n hn => by rw [k] at hn ⊢; exact ⟨hn, rfl, rfl, rfl, rfl⟩)

/-- One loan changes, and enters the conflict set only where it conflicts with no loan of it. -/
theorem State.conflictFree.change {n : Nat} (h : s.conflictFree) (other : ∀ m, m ≠ n → t.loan m = s.loan m)
    (own : (t.loan n).state.inConflictSet = true →
      ∀ m, m ≠ n → (s.loan m).state.inConflictSet = true → conflicts (s.loan m) (t.loan n) = false) : t.conflictFree := by
  intro i j ne hi hj
  by_cases ei : i = n
  · subst ei
    rw [other j (Ne.symm ne)] at hj ⊢
    rw [conflicts_comm]; exact own hi j (Ne.symm ne) hj
  · rw [other i ei] at hi ⊢
    by_cases ej : j = n
    · subst ej; exact own hj i ei hi
    · rw [other j ej] at hj ⊢
      exact h i j ne hi hj

/-- A change of one loan that leaves its extent, and does not bring it into the conflict set. -/
theorem State.conflictFree.keep {n : Nat} (h : s.conflictFree) (other : ∀ m, m ≠ n → t.loan m = s.loan m)
    (own : (t.loan n).state.inConflictSet = true → (s.loan n).state.inConflictSet = true
      ∧ (t.loan n).bay = (s.loan n).bay ∧ (t.loan n).first = (s.loan n).first ∧ (t.loan n).count = (s.loan n).count
      ∧ (t.loan n).mode = (s.loan n).mode) : t.conflictFree :=
  h.narrow (fun m hm => by
    by_cases e : m = n
    · subst e; exact own hm
    · rw [other m e] at hm ⊢; exact ⟨hm, rfl, rfl, rfl, rfl⟩)

theorem State.conflictFree.examineFrom (h : s.conflictFree) (b : Nat) (ahead todo : List Nat) :
    (s.examineFrom b ahead todo).conflictFree := by
  induction todo generalizing s ahead with
  | nil => exact h.congr (fun n => rfl)
  | cons n rest ih =>
    unfold State.examineFrom
    cases hb : s.blocked n ahead with
    | true => exact ih h _
    | false =>
      refine ih (h.change (n := n) (fun m hm => by rw [State.grant_loan, if_neg hm]) (fun _ m hm st => ?_)) _
      rw [State.grant_loan, if_pos rfl]
      rw [← (State.blocked_eq_false.1 hb).1 m hm st]
      exact conflicts_congr ⟨rfl, rfl, rfl, rfl⟩ ⟨rfl, rfl, rfl, rfl⟩

theorem State.conflictFree.examine (h : s.conflictFree) (b : Nat) : (s.examine b).conflictFree := h.examineFrom b [] _

theorem State.conflictFree.freeLoan (h : s.conflictFree) (n : Nat) : (s.freeLoan n).conflictFree :=
  h.keep (n := n) (fun m hm => by rw [State.freeLoan_loan, if_neg hm])
    (fun st => by rw [State.freeLoan_loan, if_pos rfl] at st; exact absurd st (by decide))

end

/-! ## The waiting lists (R8) -/

section
variable {s t : State}

/-- Waiting lists that only lose loans keep their form, where the loans that stay are WAITING on the same bay as before. -/
theorem State.waitingListed.shrink (h : s.waitingListed) (sub : ∀ b, (t.waiting b).Sublist (s.waiting b))
    (same : ∀ b, ∀ n ∈ t.waiting b, (t.loan n).state = (s.loan n).state ∧ (t.loan n).bay = (s.loan n).bay) : t.waitingListed := by
  intro b
  refine ⟨(h b).1.sublist (sub b), fun n hn => ?_⟩
  obtain ⟨st, bay⟩ := same b n hn
  rw [st, bay]; exact (h b).2 n ((sub b).subset hn)

theorem State.waitingListed.congr (h : s.waitingListed) (loans : ∀ n, t.loan n = s.loan n) (lists : ∀ b, t.waiting b = s.waiting b) :
    t.waitingListed :=
  h.shrink (fun b => by rw [lists]) (fun b n _ => by rw [loans]; exact ⟨rfl, rfl⟩)

/-- The WAITING loans of two waiting lists are on two bays. -/
theorem State.waitingListed.bay (h : s.waitingListed) {b n : Nat} (mem : n ∈ s.waiting b) : (s.loan n).bay = b := ((h b).2 n mem).2

theorem State.waitingListed.state (h : s.waitingListed) {b n : Nat} (mem : n ∈ s.waiting b) : (s.loan n).state = .waiting :=
  ((h b).2 n mem).1

/-- A loan that does not wait is on no waiting list. -/
theorem State.waitingListed.absent (h : s.waitingListed) {n : Nat} (st : (s.loan n).state ≠ .waiting) (b : Nat) : n ∉ s.waiting b :=
  fun mem => st (h.state mem)

/-- One loan that is on no waiting list changes. -/
theorem State.waitingListed.change {n : Nat} (h : s.waitingListed) (other : ∀ m, m ≠ n → t.loan m = s.loan m)
    (lists : ∀ b, (t.waiting b).Sublist (s.waiting b)) (absent : ∀ b, n ∉ t.waiting b) : t.waitingListed :=
  h.shrink lists (fun b m hm => by
    rw [other m (fun e => absent b (e ▸ hm))]; exact ⟨rfl, rfl⟩)

/-- One loan changes, and stays in its state and on its bay. -/
theorem State.waitingListed.keep {n : Nat} (h : s.waitingListed) (other : ∀ m, m ≠ n → t.loan m = s.loan m)
    (lists : ∀ b, t.waiting b = s.waiting b) (own : (t.loan n).state = (s.loan n).state ∧ (t.loan n).bay = (s.loan n).bay) :
    t.waitingListed :=
  h.shrink (fun b => by rw [lists]) (fun b m hm => by
    by_cases e : m = n
    · subst e; exact own
    · rw [other m e]; exact ⟨rfl, rfl⟩)

theorem State.waitingListed.examine (h : s.waitingListed) (b : Nat) : (s.examine b).waitingListed := by
  refine h.shrink (fun c => s.examine_waiting_sublist b c) (fun c n hn => ?_)
  have out : n ∉ s.grantedOn b := by
    intro g
    have mem := (s.grantedOn_sublist b).subset g
    have : c = b := by rw [← h.bay mem, ← h.bay ((s.examine_waiting_sublist b c).subset hn)]
    subst this
    rw [State.examine, s.examineFrom_waiting c [] _ (h c).1] at hn
    have := (List.mem_filter.1 hn).2
    simp only [Bool.not_eq_true', List.contains_eq_mem, decide_eq_false_iff_not] at this
    exact this g
  rw [State.examine_loan, if_neg out]; exact ⟨rfl, rfl⟩

/-- A loan leaves the table and the waiting list of its bay. -/
theorem State.waitingListed.drop {n : Nat} (h : s.waitingListed) (loans : ∀ m, t.loan m = if m = n then .free else s.loan m)
    (lists : ∀ b, t.waiting b = if b = (s.loan n).bay then (s.waiting b).filter (fun m => m != n) else s.waiting b) :
    t.waitingListed := by
  refine h.change (n := n) (fun m hm => by rw [loans, if_neg hm]) (fun b => ?_) (fun b hb => ?_)
  · rw [lists]; split
    · exact List.filter_sublist
    · exact List.Sublist.refl _
  · rw [lists] at hb; split at hb
    · simp at hb
    · next out => exact out (h.bay hb).symm

theorem State.waitingListed.freeLoan (h : s.waitingListed) (n : Nat) : (s.freeLoan n).waitingListed :=
  h.drop (fun m => s.freeLoan_loan m n) (fun b => s.freeLoan_waiting n b)

end

/-! ## Laws of the loans

Three laws are about the Loan Table, the waiting lists and the Lapse Queue: that of the conflict set (R3), the form of the waiting lists
(R8) and that of the Lapse Queue (R16). The Loan Manager changes these by a few operations; a law that each of them keeps is kept by
every step. -/

/-- A loan may change to this one without leaving its state, its bay, its range or its mode. -/
def Loan.sameCourse (l m : Loan) : Prop :=
  m.state = l.state ∧ m.bay = l.bay ∧ m.first = l.first ∧ m.count = l.count ∧ m.mode = l.mode

theorem Loan.sameCourse_refl (l : Loan) : l.sameCourse l := ⟨rfl, rfl, rfl, rfl, rfl⟩

/-- A law that every operation on the loans keeps. -/
structure LoanLaw (P : State → Prop) : Prop where
  same : ∀ {s t : State}, P s → t.loans = s.loans → t.exchange.lapseQueue ⊆ s.exchange.lapseQueue → P t
  empty : ∀ {t : State}, t.loans = { table := [], waiting := [] } → t.exchange.lapseQueue = [] → P t
  update : ∀ {s : State} {n : Nat} {l : Loan}, P s → (s.loan n).sameCourse l → P (s.setLoan n l)
  counted : ∀ {s : State} {f : Loan → Loan}, P s → f .free = .free → (∀ l, Loan.sameCourse l (f l)) → P (s.mapLoans f)
  opened : ∀ {s : State} {n : Nat} {l : Loan}, P s → (s.loan n).state = .free → s.inTheWay l = [] → P (s.setLoan n l)
  queued : ∀ {s : State} {n : Nat} {l : Loan}, P s → (s.loan n).state = .free → l.state = .waiting →
    P ((s.setLoan n l).setWaiting l.bay (s.waiting l.bay ++ [n]))
  freed : ∀ {s : State} {n : Nat}, P s → P (s.freeLoan n)
  examined : ∀ {s : State} {b : Nat}, P s → P (s.examine b)
  returned : ∀ {s : State} {n cell : Nat}, P s → (s.loan n).state = .held → P (s.holdReturn n cell .returning)
  lapsed : ∀ {s : State} {n : Nat}, P s → (s.loan n).state = .held ∨ (s.loan n).afterLapse = s.loan n → P (s.lapseLoan n)
  settled : ∀ {s : State} {n : Nat}, P s → (s.loan n).state = .lapsing → P (s.setLoan n { s.loan n with state := .lapsed })
  faulted : ∀ {s : State} {n : Nat} {cause : Cause}, P s → (s.loan n).state ≠ .waiting → P (s.faultLoan cause n)

section
variable {P : State → Prop} {s t : State}

theorem LoanLaw.touch {ps : List Part} (L : LoanLaw P) (h : P s) (k : Touches ps s t) (w : Part.loans ∉ ps := by decide)
    (w' : Part.lapseQueue ∉ ps := by decide) : P t :=
  L.same h (k.loans w) (by rw [k.lapseQueue w']; exact List.Subset.refl _)

/-! ### Orders -/

/-- The entry that a LOAN_OPEN is given is FREE (R2). -/
theorem State.freeEntry_free {n : Nat} (h : s.freeEntry = some n) : (s.loan n).state = .free := by
  have := List.find?_some h; simpa using this

theorem State.openCheck_ok {c : Copy} {n : Nat} (h : s.openCheck c = .ok n) : s.freeEntry = some n := by
  unfold State.openCheck at h
  dsimp only at h
  repeat' split at h
  all_goals cases h
  next found => exact found

theorem LoanLaw.openLoan (L : LoanLaw P) (h : P s) (cell : Nat) (c : Copy) : P (s.openLoan cell c) := by
  unfold State.openLoan
  split
  · exact L.touch h (State.reply_touches ..)
  · next n ok =>
    have free := State.freeEntry_free (State.openCheck_ok ok)
    dsimp only
    split
    · next clear => exact L.touch (L.opened h free clear) (State.reply_touches ..)
    · split
      · exact L.touch h (State.reply_touches ..)
      · exact L.touch (L.queued (l := { c.newLoan with state := .waiting, wait := c.waitLimit, openingCell := some cell }) h free rfl)
          (State.putAnswer_touches ..)

/-- A loan that its node names is the entry of that number (R17). -/
theorem State.loanOf_some {n node : Nat} {l : Loan} (h : s.loanOf n node = some l) :
    n < 512 ∧ (s.loan n).state ≠ .free ∧ (s.loan n).node = node ∧ s.loan n = l := by
  unfold State.loanOf at h
  split at h
  · next c => exact ⟨c.1, c.2.1, c.2.2, by simpa using h⟩
  · cases h

theorem LoanLaw.renewLoan (L : LoanLaw P) (h : P s) (cell : Nat) (c : Copy) : P (s.renewLoan cell c) := by
  unfold State.renewLoan
  split
  · exact L.touch h (State.reply_touches ..)
  · next l own =>
    obtain ⟨-, -, -, rfl⟩ := State.loanOf_some own
    split
    · exact L.touch (L.update (l := { s.loan c.loan with term := c.term }) h ⟨rfl, rfl, rfl, rfl, rfl⟩) (State.reply_touches ..)
    all_goals exact L.touch h (State.reply_touches ..)

theorem LoanLaw.returnLoan (L : LoanLaw P) (h : P s) (cell : Nat) (c : Copy) : P (s.returnLoan cell c) := by
  unfold State.returnLoan
  dsimp only
  split
  · exact L.touch h (State.reply_touches ..)
  · next l own =>
    obtain ⟨-, -, -, rfl⟩ := State.loanOf_some own
    split
    · exact L.touch h (State.reply_touches ..)
    · split
      · exact L.touch (L.examined (L.touch (L.freed h) (State.reply_touches ..))) (State.completionTest_touches ..)
      · next held _ => exact L.returned h held
      · exact L.touch (L.examined (L.touch (L.touch (L.freed h) (State.replyOpt_touches ..)) (State.reply_touches ..)))
          (State.completionTest_touches ..)
      · exact L.touch (L.touch (L.freed h) (State.reply_touches ..)) (State.completionTest_touches ..)
      · next lapsing => exact L.update h ⟨lapsing.symm, rfl, rfl, rfl, rfl⟩
      · exact L.touch (L.touch (L.freed h) (State.reply_touches ..)) (State.completionTest_touches ..)
      · next faulted _ => exact L.update h ⟨faulted.symm, rfl, rfl, rfl, rfl⟩
      all_goals exact L.touch h (State.reply_touches ..)

theorem LoanLaw.raiseInFlight (L : LoanLaw P) (h : P s) (n : Nat) : P (s.raiseInFlight n) := L.update h ⟨rfl, rfl, rfl, rfl, rfl⟩

theorem LoanLaw.loanTransfer (L : LoanLaw P) (h : P s) (k : OrderKind) (cell : Nat) (c : Copy) : P (s.loanTransfer k cell c) := by
  unfold State.loanTransfer
  split
  · exact L.touch h (State.reply_touches ..)
  · split
    · exact L.touch h (State.reply_touches ..)
    · exact L.touch (L.raiseInFlight h _) (State.takeUp_touches ..)

theorem State.loanCheck_ok {k : OrderKind} {c : Copy} {l : Loan} (h : s.loanCheck k c = .ok l) :
    s.loanOf c.loan c.node = some l ∧ l.state = .held := by
  unfold State.loanCheck at h
  split at h
  · cases h
  · next m own =>
    split at h
    case' h_1 | h_2 | h_3 | h_4 | h_5 | h_6 => simp at h
    next held =>
      have same : m = l := by
        split at h
        · simp at h
        · split at h
          · simp at h
          · simpa using h
      exact same ▸ ⟨own, held⟩

theorem LoanLaw.setAppend (L : LoanLaw P) (h : P s) (n : Nat) (a : AppendRecord) : P (s.setAppend n a) :=
  L.update (l := { s.loan n with append := some a }) h ⟨rfl, rfl, rfl, rfl, rfl⟩

theorem LoanLaw.appendOrder (L : LoanLaw P) (h : P s) (cell : Nat) (c : Copy) : P (s.appendOrder cell c) := by
  unfold State.appendOrder
  split
  · exact L.touch h (State.reply_touches ..)
  · split
    · exact L.touch h (State.reply_touches ..)
    · next l ok =>
      have raised := L.raiseInFlight h c.loan
      unfold State.placeAppend
      dsimp only
      split
      · exact L.touch (L.touch raised (State.setTransfer_touches ..)) (State.reply_touches ..)
      · split
        · exact L.touch (L.touch raised (State.setTransfer_touches ..)) (State.reply_touches ..)
        · exact L.touch (L.setAppend raised ..) (State.takeUp_touches ..)

theorem LoanLaw.handling (L : LoanLaw P) {k : OrderKind} {cell : Nat} {act : State → Copy → State}
    (keeps : ∀ {u : State} (c : Copy), P u → P (act u c)) (h : P s) (step : s.handling k cell act = .next t) : P t := by
  unfold State.handling at step
  split at step <;> cases step
  · exact L.touch (keeps _ (L.touch h (State.validated_touches ..))) (State.beginRecords_touches _)
  · exact h

/-! ### The tick -/

theorem LoanLaw.foldl {α : Type} {f : State → α → State} (keeps : ∀ {u : State} (x : α), P u → P (f u x)) (xs : List α) (h : P s) :
    P (xs.foldl f s) := by
  induction xs generalizing s with
  | nil => exact h
  | cons x xs ih => exact ih (keeps x h)

theorem LoanLaw.expire (L : LoanLaw P) (n : Nat) (h : P s) : P (s.expire n) := L.touch (L.freed h) (State.replyOpt_touches ..)

theorem Loan.afterLapse_afterLapse (l : Loan) : l.afterLapse.afterLapse = l.afterLapse := by
  unfold Loan.afterLapse; rfl

/-- The loans that lapse together: one that comes again has lapsed already, and lapses to the same. -/
theorem LoanLaw.lapseAll (L : LoanLaw P) (ns : List Nat) (h : P s)
    (due : ∀ n ∈ ns, (s.loan n).state = .held ∨ (s.loan n).afterLapse = s.loan n) : P (ns.foldl (fun s n => s.lapseLoan n) s) := by
  induction ns generalizing s with
  | nil => exact h
  | cons n ns ih =>
    refine ih (L.lapsed h (due n (by simp))) (fun m hm => ?_)
    rw [State.lapseLoan_loan]
    split
    · exact .inr (Loan.afterLapse_afterLapse _)
    · exact due m (List.mem_cons_of_mem _ hm)

theorem Loan.countWait_sameCourse (l : Loan) : l.sameCourse l.countWait := by
  unfold Loan.countWait; split <;> exact ⟨rfl, rfl, rfl, rfl, rfl⟩

theorem State.countTerm_sameCourse (s : State) (l : Loan) : l.sameCourse (s.countTerm l) := by
  unfold State.countTerm; split <;> exact ⟨rfl, rfl, rfl, rfl, rfl⟩

theorem Loan.countWait_free : Loan.countWait .free = .free := by decide

theorem State.countTerm_free (s : State) : s.countTerm .free = .free := by
  unfold State.countTerm; rw [if_neg]; rintro ⟨h, -⟩; cases h

/-- A loan that lapses at a tick is HELD, also once the terms have counted. -/
theorem State.lapsing_held {n : Nat} (h : n ∈ s.lapsing) : ((s.mapLoans s.countTerm).loan n).state = .held := by
  rw [State.mapLoans_loan _ _ _ s.countTerm_free, (s.countTerm_sameCourse _).1]
  have := (State.mem_loansWhere (by rfl)).1 h
  unfold State.lapsesNext at this
  simp only [Bool.and_eq_true, beq_iff_eq] at this
  exact this.1.1

theorem LoanLaw.loanTick (L : LoanLaw P) (h : P s) : P s.loanTick := by
  unfold State.loanTick
  dsimp only
  refine L.touch ?_ (State.completionTests_touches ..)
  refine LoanLaw.foldl (fun b k => L.examined k) _ ?_
  refine L.lapseAll _ (L.counted ?_ (State.countTerm_free _) (State.countTerm_sameCourse _)) (fun n hn => .inl (State.lapsing_held hn))
  exact LoanLaw.foldl (fun n k => L.expire n k) _ (L.counted h Loan.countWait_free Loan.countWait_sameCourse)

theorem LoanLaw.tick (L : LoanLaw P) (h : P s) : P s.tick := by
  have ticked : P { s with clock := s.clock.produce } := L.same h rfl (List.Subset.refl _)
  unfold State.tick
  dsimp only
  split
  · refine L.touch (L.touch ?_ (State.meterTick_touches _)) (State.beginRecords_touches _)
    exact LoanLaw.foldl (fun b k => L.touch k (State.idleTick_touches ..)) _ (L.loanTick ticked)
  · exact ticked

/-! ### The end of a transfer -/

theorem LoanLaw.finishReturn (L : LoanLaw P) (n : Nat) (h : P s) : P (s.finishReturn n) :=
  L.touch (L.freed h) (State.replyOpt_touches ..)

theorem LoanLaw.inFlightOver (L : LoanLaw P) (n : Nat) (h : P s) : P (s.inFlightOver n) := by
  unfold State.inFlightOver
  dsimp only
  split
  · exact L.touch (L.examined (L.finishReturn n h)) (State.completionTest_touches ..)
  · exact L.touch (L.examined (L.finishReturn n h)) (State.completionTest_touches ..)
  · next lapsing _ => exact L.examined (L.settled h lapsing)
  · exact L.touch (L.finishReturn n h) (State.completionTest_touches ..)
  · exact h

theorem LoanLaw.transferEnded (L : LoanLaw P) (n : Nat) (reserved : Option Nat) (r : Result) (h : P s) :
    P (s.transferEnded n reserved r) := by
  have told : P (s.setLoan n { s.loan n with
      inFlight := (s.loan n).inFlight - 1, append := (s.loan n).append.map (fun a => a.reported reserved r) }) :=
    L.update h ⟨rfl, rfl, rfl, rfl, rfl⟩
  unfold State.transferEnded
  dsimp only
  split
  · exact L.inFlightOver n told
  · exact told

theorem LoanLaw.answerWritten (L : LoanLaw P) (h : P s) : P s.answerWritten := by
  unfold State.answerWritten
  split
  · next a rest _ _ =>
    have poked : P ((s.pokeAnswer a).pokeHand a.cell) := L.touch (L.touch h (State.pokeAnswer_touches ..)) (State.pokeHand_touches ..)
    dsimp only
    split
    · refine L.touch ?_ (State.beginRecords_touches _)
      unfold State.finishAnswer State.reportAnswer
      dsimp only
      refine L.touch ?_ (State.tryStop_touches _)
      have met : ∀ g, P (((((s.pokeAnswer a).pokeHand a.cell).nextAnswer rest).growAnswers a.cell).unhold a.cell |>.meterAnswered g) :=
        fun g => L.touch (L.touch (L.touch (L.touch poked (State.nextAnswer_touches ..)) (State.growAnswers_touches ..))
          (State.unhold_touches ..)) (State.meterAnswered_touches ..)
      split
      · exact L.transferEnded _ _ _ (met _)
      · exact met _
    · exact L.touch poked (State.idleAnswers_touches _)
  · exact h

/-! ### Bay faults -/

theorem LoanLaw.faultLoans (L : LoanLaw P) (b : Nat) (cause : Cause) (h : P s) : P (s.faultLoans b cause) := by
  have set : ∀ n ∈ s.toFault b, (s.loan n).state ≠ .waiting := by
    intro n hn e
    have := (State.mem_loansWhere (by simp [Loan.free, LoanState.inConflictSet])).1 hn
    simp [e, LoanState.inConflictSet] at this
  have waiting : ∀ (ns : List Nat) {u : State}, P u → (∀ n ∈ s.toFault b, (u.loan n).state ≠ .waiting) →
      P (ns.foldl (fun s n => s.faultWaiting n) u)
        ∧ ∀ n ∈ s.toFault b, ((ns.foldl (fun s n => s.faultWaiting n) u).loan n).state ≠ .waiting := by
    intro ns
    induction ns with
    | nil => exact fun hu su => ⟨hu, su⟩
    | cons k ns ih =>
      intro u hu su
      refine ih (L.freed (L.touch hu (State.replyOpt_touches ..))) (fun n hn => ?_)
      rw [State.faultWaiting_loan]
      split
      · decide
      · exact su n hn
  have faulting : ∀ (ns : List Nat) {u : State}, P u → (∀ n ∈ ns, (u.loan n).state ≠ .waiting) →
      P (ns.foldl (fun s n => s.faultLoan cause n) u) := by
    intro ns
    induction ns with
    | nil => exact fun hu _ => hu
    | cons k ns ih =>
      intro u hu su
      refine ih (L.faulted hu (su k (by simp))) (fun n hn => ?_)
      rw [State.faultLoan_loan]
      split
      · nofun
      · exact su n (List.mem_cons_of_mem _ hn)
  obtain ⟨freed, still⟩ := waiting (s.waiting b) h set
  exact faulting _ freed still

theorem LoanLaw.bayFault (L : LoanLaw P) (b : Nat) (cause : Cause) (h : P s) : P (s.bayFault b cause) := by
  unfold State.bayFault
  dsimp only
  have recorded := L.touch (L.touch (L.touch h (State.putBay_touches s b ((s.bay b).faulted cause)))
    (State.releaseEnded_touches _ b (s.bay b).outstanding)) (State.answerAdmit_touches _ b .diskFault Cause.admitFailed.code)
  split
  · unfold State.spreadFault
    dsimp only
    exact L.touch (L.touch (L.touch (L.faultLoans b cause recorded) (State.faultShares_touches ..)) (State.faultStaging_touches ..))
      (State.offer_touches ..)
  · exact recorded

theorem LoanLaw.operationFails (L : LoanLaw P) (b : Nat) (h : P s) : P (s.operationFails b) := by
  unfold State.operationFails
  split
  · exact L.bayFault _ _ h
  · exact L.bayFault _ _ h
  · exact h

theorem LoanLaw.linkError (L : LoanLaw P) (b : Nat) (tag : Option (Fin 4)) (number : Nat) (h : P s) :
    P (s.linkError b tag number) := by
  unfold State.linkError
  split
  · exact h
  · split
    · exact L.touch (L.touch h (State.endCommand_touches ..)) (State.resend_touches ..)
    · refine L.touch ?_ (State.beginRecords_touches _)
      unfold State.linkFails
      split
      case h_4 => exact L.operationFails _ h
      case h_5 => exact L.operationFails _ h
      all_goals exact L.bayFault _ _ h

theorem LoanLaw.mediaError (L : LoanLaw P) (b : Nat) (tag : Option (Fin 4)) (number firstBad : Nat) (h : P s) :
    P (s.mediaError b tag number firstBad) := by
  unfold State.mediaError
  split
  · exact h
  · split
    · split
      · exact L.touch h (State.mediaOn_touches ..)
      · exact L.touch (L.touch h (State.endCommand_touches ..)) (State.discardReport_touches ..)
    · exact L.linkError _ _ _ h
  · exact L.linkError _ _ _ h

theorem LoanLaw.cmdTimeout (L : LoanLaw P) (b : Nat) (tag : Option (Fin 4)) (number : Nat) (h : P s) :
    P (s.cmdTimeout b tag number) := by
  unfold State.cmdTimeout
  split
  · exact L.touch (L.bayFault _ _ h) (State.beginRecords_touches _)
  · exact h

theorem LoanLaw.identifyEnd (L : LoanLaw P) (b number : Nat) (size : BitVec 64) (h : P s) : P (s.identifyEnd b number size) := by
  unfold State.identifyEnd
  split
  · have ended := L.touch h (State.endCommand_touches s b none number)
    refine L.touch ?_ (State.beginRecords_touches _)
    split
    · exact L.operationFails _ ended
    · exact L.touch ended (State.admitted_touches ..)
  · exact h

theorem LoanLaw.readyLost (L : LoanLaw P) (b : Nat) (h : P s) : P (s.readyLost b) := by
  unfold State.readyLost
  split
  · exact L.touch (L.bayFault _ _ h) (State.beginRecords_touches _)
  · exact h

theorem LoanLaw.presenceFall (L : LoanLaw P) (b : Nat) (h : P s) : P (s.presenceFall b) := by
  unfold State.presenceFall
  split
  · have low := L.touch h (State.setPresence_touches s b false)
    dsimp only
    split
    · refine L.touch ?_ (State.beginRecords_touches _)
      have captured := L.touch low (State.capturePresence_touches _ b .remove)
      unfold State.removed
      split
      · exact captured
      · split
        · exact L.bayFault _ _ captured
        · exact L.touch (L.touch (L.touch captured (State.putBay_touches ..)) (State.answerAdmit_touches ..)) (State.discardBay_touches ..)
    · exact low
  · exact h

/-! ### Every step -/

theorem LoanLaw.readLapse (L : LoanLaw P) (h : P s) : P s.readLapse := by
  have returned : ∀ (u : State) w, P u → P (u.returned w) := fun u w hu => L.touch hu (State.returned_touches ..)
  unfold State.readLapse
  split
  · exact returned _ _ h
  · split
    · split
      · exact returned _ _ h
      · next n rest queue =>
        refine returned _ _ (L.same h rfl ?_)
        rw [State.setLapseQueue_exchange_lapseQueue, queue]
        exact List.subset_cons_self n rest
    · exact returned _ _ h

theorem State.restartEffects_loans (s : State) :
    s.restartEffects.loans = { table := [], waiting := [] } ∧ s.restartEffects.exchange.lapseQueue = [] := by
  have bays : Touches [.arbiters, .records] s.cleared (overBays (overBays s.cleared (fun s b => s.setArbiter b (s.arbiter b).restarted))
      (fun s b => s.setBay b (s.bay b).restarted)) :=
    overBays_touches (fun u b => (State.setBay_touches ..).mono rfl)
      (overBays_touches (fun u b => (State.setArbiter_touches ..).mono rfl) (Touches.refl ..))
  have loans : s.cleared.loans = { table := [], waiting := [] } := rfl
  have queue : s.cleared.exchange.lapseQueue = [] := rfl
  rw [← loans, ← queue]
  unfold State.restartEffects
  dsimp only
  split
  · have records : Touches [.ports] _ _ := (State.requestSummary_touches _).trans (State.beginRecords_touches
      (overBays (overBays s.cleared (fun s b => s.setArbiter b (s.arbiter b).restarted))
        (fun s b => s.setBay b (s.bay b).restarted)).requestSummary)
    exact ⟨records.loans.trans bays.loans, records.lapseQueue.trans bays.lapseQueue⟩
  · exact ⟨bays.loans, bays.lapseQueue⟩

/-- A law of the loans is kept by every command. -/
theorem LoanLaw.exec (L : LoanLaw P) {c : Instr} (h : P s) (e : exec c s = .next t) : P t := by
  cases c
  case powerOn => cases e; exact L.empty rfl rfl
  case restartEffects =>
    cases e
    split
    · exact L.empty s.restartEffects_loans.1 s.restartEffects_loans.2
    · exact h
  case lapse => cases e; exact L.readLapse h
  case loanOpen cell => rw [exec_loanOpen] at e; exact L.handling (fun c k => L.openLoan k cell c) h e
  case loanRenew cell => rw [exec_loanRenew] at e; exact L.handling (fun c k => L.renewLoan k cell c) h e
  case loanReturn cell => rw [exec_loanReturn] at e; exact L.handling (fun c k => L.returnLoan k cell c) h e
  case read cell => rw [exec_read] at e; exact L.handling (fun c k => L.loanTransfer k .read cell c) h e
  case write cell => rw [exec_write] at e; exact L.handling (fun c k => L.loanTransfer k .write cell c) h e
  case appendWrite cell => rw [exec_appendWrite] at e; exact L.handling (fun c k => L.appendOrder k cell c) h e
  case tick => cases e; exact L.tick h
  case waitExpired => cases e; split; exacts [L.tick h, h]
  case termLapse => cases e; split; exacts [L.tick h, h]
  case spinDown => cases e; split; exacts [L.tick h, h]
  case meterPeriodEnd => cases e; split; exacts [L.tick h, h]
  case mediaError => cases e; exact L.mediaError _ _ _ _ h
  case linkError => cases e; exact L.linkError _ _ _ h
  case cmdTimeout => cases e; exact L.cmdTimeout _ _ _ h
  case identifyEnd => cases e; exact L.identifyEnd _ _ _ h
  case operationTimeout => cases e; exact L.touch (L.operationFails _ h) (State.beginRecords_touches _)
  case readyLost => cases e; exact L.readyLost _ h
  case removal => cases e; exact L.presenceFall _ h
  case answerWritten => cases e; exact L.answerWritten h
  all_goals exact L.touch h (exec_touches e) (by dsimp only [footprint]; decide) (by dsimp only [footprint]; decide)

/-- A law of the loans is kept by every step. -/
theorem LoanLaw.step (L : LoanLaw P) (h : P s) (e : step s = .next t) : P t := by
  rcases step_cases e with ⟨-, rfl⟩ | ⟨c, rest, -, e⟩
  · exact L.touch h (State.microsecond_touches _)
  · exact L.exec (L.touch h (touches_pending s rest)) e

end

section
variable {s t : State}

theorem State.loan_of_empty (h : s.loans = { table := [], waiting := [] }) (n : Nat) : s.loan n = .free := by
  simp only [State.loan, h, Table.get]

theorem State.waiting_of_empty (h : s.loans = { table := [], waiting := [] }) (b : Nat) : s.waiting b = [] := by
  simp only [State.waiting, h, Table.get]

theorem State.loan_of_loans (h : t.loans = s.loans) (n : Nat) : t.loan n = s.loan n := by simp only [State.loan, h]

theorem State.waiting_of_loans (h : t.loans = s.loans) (b : Nat) : t.waiting b = s.waiting b := by simp only [State.waiting, h]

theorem State.conflictFree_of_empty (h : s.loans = { table := [], waiting := [] }) : s.conflictFree := by
  intro m n _ hm
  rw [State.loan_of_empty h] at hm; exact absurd hm (by decide)

theorem State.waitingListed_of_empty (h : s.loans = { table := [], waiting := [] }) : s.waitingListed := by
  intro b
  rw [State.waiting_of_empty h]; exact ⟨List.nodup_nil, fun n hn => absurd hn List.not_mem_nil⟩

/-- The law of R3 is a law of the loans. -/
theorem conflictFree_law : LoanLaw State.conflictFree where
  same h loans _ := h.congr (State.loan_of_loans loans)
  empty loans _ := State.conflictFree_of_empty loans
  update {s n l} h course := by
    obtain ⟨st, extent⟩ := course
    refine h.keep (n := n) (fun m hm => by rw [State.loan_setLoan, if_neg hm]) (fun set => ?_)
    rw [State.loan_setLoan, if_pos rfl] at set ⊢
    exact ⟨st ▸ set, extent⟩
  counted {s f} h free course := by
    refine h.narrow (fun n set => ?_)
    rw [State.mapLoans_loan _ _ _ free] at set ⊢
    obtain ⟨st, extent⟩ := course (s.loan n)
    exact ⟨st ▸ set, extent⟩
  opened {s n l} h _ clear := by
    refine h.change (n := n) (fun m hm => by rw [State.loan_setLoan, if_neg hm]) (fun _ m _ set => ?_)
    rw [State.loan_setLoan, if_pos rfl]
    have out : m ∉ s.rivals l := by
      rw [(List.append_eq_nil_iff.1 clear).1]; exact List.not_mem_nil
    rw [State.mem_rivals, not_and, Bool.not_eq_true] at out
    exact out set
  queued {s n l} h _ wait := by
    refine h.keep (n := n) (fun m hm => by rw [State.setWaiting_loan, State.loan_setLoan, if_neg hm]) (fun set => ?_)
    rw [State.setWaiting_loan, State.loan_setLoan, if_pos rfl, wait] at set
    cases set
  freed h := h.freeLoan _
  examined h := h.examine _
  returned {s n cell} h held := by
    refine h.keep (n := n) (fun m hm => by rw [State.holdReturn, State.loan_setLoan, if_neg hm]) (fun _ => ?_)
    rw [State.holdReturn, State.loan_setLoan, if_pos rfl, held]
    exact ⟨rfl, rfl, rfl, rfl, rfl⟩
  lapsed {s n} h due := by
    refine h.keep (n := n) (fun m hm => by rw [State.lapseLoan_loan, if_neg hm]) (fun set => ?_)
    rw [State.lapseLoan_loan, if_pos rfl] at set ⊢
    refine ⟨?_, rfl, rfl, rfl, rfl⟩
    rcases due with held | gone
    · rw [held]; rfl
    · rw [gone] at set; exact set
  settled {s n} h _ := by
    refine h.keep (n := n) (fun m hm => by rw [State.loan_setLoan, if_neg hm]) (fun set => ?_)
    rw [State.loan_setLoan, if_pos rfl] at set; cases set
  faulted {s n cause} h _ := by
    refine h.keep (n := n) (fun m hm => by rw [State.faultLoan_loan, if_neg hm]) (fun set => ?_)
    rw [State.faultLoan_loan, if_pos rfl] at set; cases set

/-- The form of the waiting lists is a law of the loans. -/
theorem waitingListed_law : LoanLaw State.waitingListed where
  same h loans _ := h.congr (State.loan_of_loans loans) (State.waiting_of_loans loans)
  empty loans _ := State.waitingListed_of_empty loans
  update {s n l} h course := by
    refine h.keep (n := n) (fun m hm => by rw [State.loan_setLoan, if_neg hm]) (fun b => rfl) ?_
    rw [State.loan_setLoan, if_pos rfl]; exact ⟨course.1, course.2.1⟩
  counted {s f} h free course := by
    refine h.shrink (fun b => List.Sublist.refl _) (fun b n _ => ?_)
    rw [State.mapLoans_loan _ _ _ free]; exact ⟨(course _).1, (course _).2.1⟩
  opened {s n l} h free _ :=
    h.change (n := n) (fun m hm => by rw [State.loan_setLoan, if_neg hm]) (fun b => List.Sublist.refl _)
      (h.absent (by rw [free]; nofun))
  queued {s n l} h free wait := by
    have absent := h.absent (n := n) (by rw [free]; nofun)
    intro b
    rw [State.waiting_setWaiting]
    have old : ∀ m ∈ s.waiting b, ((s.setLoan n l).loan m).state = .waiting ∧ ((s.setLoan n l).loan m).bay = b := by
      intro m hm
      rw [State.loan_setLoan, if_neg (fun e : m = n => absent b (e ▸ hm))]
      exact (h b).2 m hm
    split
    · next own =>
      subst own
      refine ⟨List.Nodup.append (h _).1 (List.nodup_singleton n) (by simpa using absent l.bay), fun m hm => ?_⟩
      rw [State.setWaiting_loan]
      rcases List.mem_append.1 hm with hm | hm
      · exact old m hm
      · obtain rfl := List.mem_singleton.1 hm
        rw [State.loan_setLoan, if_pos rfl]; exact ⟨wait, rfl⟩
    · exact ⟨(h b).1, old⟩
  freed h := h.freeLoan _
  examined h := h.examine _
  returned {s n cell} h held :=
    h.change (n := n) (fun m hm => by rw [State.holdReturn, State.loan_setLoan, if_neg hm]) (fun b => List.Sublist.refl _)
      (h.absent (by rw [held]; nofun))
  lapsed {s n} h due := by
    refine h.change (n := n) (fun m hm => by rw [State.lapseLoan_loan, if_neg hm]) (fun b => by rw [State.lapseLoan_waiting])
      (fun b => ?_)
    rw [State.lapseLoan_waiting]
    refine h.absent ?_ b
    rcases due with held | gone
    · rw [held]; nofun
    · rw [← gone]; unfold Loan.afterLapse; split <;> nofun
  settled {s n} h lapsing :=
    h.change (n := n) (fun m hm => by rw [State.loan_setLoan, if_neg hm]) (fun b => List.Sublist.refl _)
      (h.absent (by rw [lapsing]; nofun))
  faulted {s n cause} h st :=
    h.change (n := n) (fun m hm => by rw [State.faultLoan_loan, if_neg hm]) (fun b => by rw [State.faultLoan_waiting])
      (fun b => by rw [State.faultLoan_waiting]; exact h.absent st b)

end

/-- Settles O4: both are laws of the loans. -/
theorem stepsKeepLoansFreeOfConflict : Obligations.StepsKeepLoansFreeOfConflict :=
  ⟨fun _ _ h e => conflictFree_law.step h e, fun _ _ h e => waitingListed_law.step h e⟩

/-! ## Power-on -/

/-- The laws of the loans and of their queues hold where nothing is held. -/
theorem State.reset_loans : State.reset.conflictFree ∧ State.reset.waitingListed ∧ State.reset.lapseQueued :=
  ⟨State.conflictFree_of_empty rfl, State.waitingListed_of_empty rfl, fun _ hn => absurd hn List.not_mem_nil⟩

theorem State.reset_held : State.reset.heldOnce ∧ State.reset.ordersChecked :=
  ⟨⟨List.nodup_nil, nofun⟩, fun _ ho => absurd ho List.not_mem_nil⟩

theorem State.reset_noticesFollow : State.reset.noticesFollow := ⟨rfl, fun _ => rfl, nofun⟩

theorem Table.ordered_nil {α : Type} : Table.ordered ([] : Table α) := List.Pairwise.nil

theorem State.reset_tablesOrdered : State.reset.tablesOrdered := by
  unfold State.tablesOrdered; and_intros <;> exact Table.ordered_nil

theorem State.reset_limits : State.reset.intakeLimits ∧ State.reset.captureLimits :=
  ⟨⟨Nat.zero_le _, Nat.zero_le _, rfl⟩, Nat.zero_le _, nofun, nofun⟩

/-- Settles O9: each value is read off, and the laws hold of empty tables and queues. -/
theorem powerOnValues : Obligations.PowerOnValues := by
  unfold Obligations.PowerOnValues
  obtain ⟨conflicts, waiting, lapse⟩ := State.reset_loans
  refine ⟨rfl, rfl, by decide, rfl, rfl, rfl, rfl, rfl, rfl, fun _ => rfl, fun _ => rfl, fun _ => ⟨rfl, rfl, rfl, rfl⟩,
    fun _ _ => ⟨rfl, rfl⟩, fun _ => ⟨rfl, rfl, rfl, rfl, rfl, rfl⟩, fun _ => rfl, rfl, rfl, rfl, fun _ => ⟨rfl, rfl⟩, rfl, rfl, rfl,
    rfl, fun _ => rfl, rfl, rfl, rfl, rfl, rfl, rfl, conflicts, waiting, State.reset_held.1, State.reset_held.2,
    State.reset_noticesFollow, lapse, State.reset_hostMem_wf, State.reset_tablesOrdered, State.reset_limits.1, State.reset_limits.2⟩

/-! ## The Lapse Queue -/

/-- Only LAPSING and LAPSED loans are queued, and the waiting lists have their form: a law of the loans (R8, R16). -/
theorem lapseQueued_law : LoanLaw (fun s => s.waitingListed ∧ s.lapseQueued) where
  same h loans sub := ⟨waitingListed_law.same h.1 loans sub, fun n hn => by
    rw [State.loan_of_loans loans]; exact h.2 n (sub hn)⟩
  empty loans queue := ⟨State.waitingListed_of_empty loans, fun n hn => by rw [queue] at hn; exact absurd hn List.not_mem_nil⟩
  update {s n l} h course := by
    refine ⟨waitingListed_law.update h.1 course, fun m hm => ?_⟩
    rw [State.loan_setLoan]
    split
    · next e => rw [course.1, ← e]; exact h.2 m hm
    · exact h.2 m hm
  counted {s f} h free course := by
    refine ⟨waitingListed_law.counted h.1 free course, fun m hm => ?_⟩
    rw [State.mapLoans_loan _ _ _ free, (course _).1]; exact h.2 m hm
  opened {s n l} h free clear := by
    refine ⟨waitingListed_law.opened h.1 free clear, fun m hm => ?_⟩
    have old := h.2 m hm
    rw [State.loan_setLoan, if_neg (fun e : m = n => by rw [e, free] at old; simp at old)]; exact old
  queued {s n l} h free wait := by
    refine ⟨waitingListed_law.queued h.1 free wait, fun m hm => ?_⟩
    have old := h.2 m hm
    rw [State.setWaiting_loan, State.loan_setLoan, if_neg (fun e : m = n => by rw [e, free] at old; simp at old)]; exact old
  freed {s n} h := by
    refine ⟨h.1.freeLoan n, fun m hm => ?_⟩
    rw [State.freeLoan_lapseQueue, List.mem_filter, bne_iff_ne] at hm
    rw [State.freeLoan_loan, if_neg hm.2]; exact h.2 m hm.1
  examined {s b} h := by
    refine ⟨h.1.examine b, fun m hm => ?_⟩
    rw [(s.examine_touches b).lapseQueue] at hm
    have old := h.2 m hm
    have out : m ∉ s.grantedOn b := fun g => by
      rw [h.1.state ((s.grantedOn_sublist b).subset g)] at old; simp at old
    rw [State.examine_loan, if_neg out]; exact old
  returned {s n cell} h held := by
    refine ⟨waitingListed_law.returned h.1 held, fun m hm => ?_⟩
    have old := h.2 m hm
    rw [State.holdReturn, State.loan_setLoan, if_neg (fun e : m = n => by rw [e, held] at old; simp at old)]; exact old
  lapsed {s n} h due := by
    refine ⟨waitingListed_law.lapsed h.1 due, fun m hm => ?_⟩
    rw [State.lapseLoan_loan]
    split
    · show ((s.loan n).afterLapse).state = _ ∨ _
      unfold Loan.afterLapse
      dsimp only
      split <;> simp
    · next other =>
      rw [State.lapseLoan, State.pushLapse_lapseQueue, List.mem_append] at hm
      refine h.2 m (hm.resolve_right (by simpa using other) |> fun k => ?_)
      rwa [State.setLoan_exchange, (State.removeQueued_touches ..).lapseQueue, (State.replyAll_touches ..).lapseQueue] at k
  settled {s n} h lapsing := by
    refine ⟨waitingListed_law.settled h.1 lapsing, fun m hm => ?_⟩
    rw [State.loan_setLoan]
    split
    · exact .inr rfl
    · exact h.2 m hm
  faulted {s n cause} h st := by
    refine ⟨waitingListed_law.faulted h.1 st, fun m hm => ?_⟩
    rw [State.faultLoan, State.dropLapse_lapseQueue, List.mem_filter, bne_iff_ne] at hm
    rw [State.faultLoan_loan, if_neg hm.2]; exact h.2 m hm.1

/-! ## The notice flags of an event -/

/-- The level flags follow their queues (R191, R192). -/
def State.levels (s : State) : Prop :=
  s.notices.flags.lapse = !s.exchange.lapseQueue.isEmpty
    ∧ (s.exchange.control.answerMode = .each → s.notices.flags.answer = !s.exchange.answerQueue.isEmpty)

theorem State.noticesFollow_iff (s : State) :
    s.noticesFollow ↔ s.levels ∧ (s.notices.interrupt = true → s.notices.condition = true) := by
  simp only [State.noticesFollow, State.levels, and_assoc]

/-- The part of the condition that LAPSE has no share in. -/
def Notices.others (n : Notices) : Bool :=
  n.flags.fault && n.enable.fault || n.flags.bay && n.enable.bay || n.flags.answer && n.enable.answer
    || n.flags.meter && n.enable.meter || n.flags.postOverflow && n.enable.postOverflow

theorem NoticeBits.highest_ne_zero (n : NoticeBits) :
    (n.highest != 0) = (n.fault || n.bay || n.lapse || n.answer || n.meter || n.postOverflow) := by
  unfold NoticeBits.highest
  repeat' split
  all_goals simp_all

theorem Notices.condition_eq (n : Notices) : n.condition = (n.flags.lapse && n.enable.lapse || n.others) := by
  simp only [Notices.condition, Notices.shown, NoticeBits.and, NoticeBits.highest_ne_zero, Notices.others]
  ac_rfl

/-- From n to m nothing but LAPSE changes. -/
structure Notices.lapseOnly (n m : Notices) : Prop where
  enable : m.enable = n.enable
  flags : { m.flags with lapse := n.flags.lapse } = n.flags

theorem Notices.lapseOnly.others {n m : Notices} (h : n.lapseOnly m) : m.others = n.others := by
  have flags := h.flags
  simp only [Notices.others, h.enable]
  rw [← flags]

theorem Notices.lapseOnly.trans {n k m : Notices} (h : n.lapseOnly k) (j : k.lapseOnly m) : n.lapseOnly m :=
  ⟨j.enable.trans h.enable, by rw [← h.flags, ← j.flags]⟩

section
variable {s t u : State} {ps : List Part}

/-- An event that leaves the level flags at their queues and the interrupt under its condition. -/
def State.noted (s t : State) : Prop := s.levels → t.levels ∧ s.notices.Followed t.notices

theorem State.levels.quiet (h : s.levels) (k : Touches ps s t) (w : Part.notices ∉ ps := by decide)
    (w₁ : Part.lapseQueue ∉ ps := by decide) (w₂ : Part.answerQueue ∉ ps := by decide) (w₃ : Part.control ∉ ps := by decide) :
    t.levels := by
  unfold State.levels
  rw [k.notices w, k.lapseQueue w₁, k.answerQueue w₂, k.control w₃]; exact h

theorem State.noted_of_quiet (k : Touches ps s t) (w : Part.notices ∉ ps := by decide)
    (w₁ : Part.lapseQueue ∉ ps := by decide) (w₂ : Part.answerQueue ∉ ps := by decide) (w₃ : Part.control ∉ ps := by decide) :
    s.noted t :=
  fun h => ⟨h.quiet k w w₁ w₂ w₃, by rw [k.notices w]; exact Notices.followed_refl _⟩

/-- Behind an event that notes, one that touches neither flags nor queues. -/
theorem State.noted.after (h : s.noted t) (k : Touches ps t u) (w : Part.notices ∉ ps := by decide)
    (w₁ : Part.lapseQueue ∉ ps := by decide) (w₂ : Part.answerQueue ∉ ps := by decide) (w₃ : Part.control ∉ ps := by decide) :
    s.noted u :=
  fun l => ⟨(h l).1.quiet k w w₁ w₂ w₃, by rw [k.notices w]; exact (h l).2⟩

/-- Before it, one that touches neither. -/
theorem State.noted.before (k : Touches ps s t) (h : t.noted u) (w : Part.notices ∉ ps := by decide)
    (w₁ : Part.lapseQueue ∉ ps := by decide) (w₂ : Part.answerQueue ∉ ps := by decide) (w₃ : Part.control ∉ ps := by decide) :
    s.noted u :=
  fun l => by
    have := h (l.quiet k w w₁ w₂ w₃)
    rwa [k.notices w] at this

/-! ### One change of flags or enables -/

/-- Event flags change, and the level flags do not. -/
theorem State.setFlags_noted {f : NoticeBits} (lapse : f.lapse = s.notices.flags.lapse)
    (answer : s.exchange.control.answerMode = .each → f.answer = s.notices.flags.answer) : s.noted (s.setFlags f) := by
  refine fun l => ⟨⟨?_, fun each => ?_⟩, Notices.renew_followed _ _ _⟩
  · rw [State.setFlags, Notices.renew_flags, lapse]; exact l.1
  · rw [State.setFlags, Notices.renew_flags, answer each]; exact l.2 each

theorem State.noticeFault_noted (s : State) : s.noted s.noticeFault := State.setFlags_noted rfl (fun _ => rfl)
theorem State.noticeBay_noted (s : State) : s.noted s.noticeBay := State.setFlags_noted rfl (fun _ => rfl)
theorem State.noticeMeter_noted (s : State) : s.noted s.noticeMeter := State.setFlags_noted rfl (fun _ => rfl)
theorem State.noticeOverflow_noted (s : State) : s.noted s.noticeOverflow := State.setFlags_noted rfl (fun _ => rfl)

theorem State.setLapseQueue_flags (s : State) (q : List Nat) :
    (s.setLapseQueue q).notices = s.notices.renew { s.notices.flags with lapse := !q.isEmpty } s.notices.enable := rfl

theorem State.setLapseQueue_noted (s : State) (q : List Nat) : s.noted (s.setLapseQueue q) := by
  refine fun l => ⟨⟨?_, fun each => ?_⟩, Notices.renew_followed _ _ _⟩
  · rw [State.setLapseQueue_flags, Notices.renew_flags]; rfl
  · rw [State.setLapseQueue_flags, Notices.renew_flags]; exact l.2 each

theorem State.shrinkAnswers_noted (s : State) (q : List Nat) : s.noted (s.shrinkAnswers q) := by
  refine fun l => ⟨⟨?_, fun each => ?_⟩, Notices.renew_followed _ _ _⟩
  · show (Notices.renew _ _ _).flags.lapse = _
    rw [Notices.renew_flags]; exact l.1
  · have mode : s.exchange.control.answerMode = .each := each
    show (Notices.renew _ _ _).flags.answer = _
    rw [Notices.renew_flags, mode]; rfl

theorem State.growAnswers_notices (s : State) (c : Nat) : (s.growAnswers c).notices =
    s.notices.renew { s.notices.flags with
      answer := match s.exchange.control.answerMode with
        | .each => true
        | .first => s.notices.flags.answer || s.exchange.answerQueue.isEmpty } s.notices.enable := rfl

theorem State.growAnswers_noted (s : State) (c : Nat) : s.noted (s.growAnswers c) := by
  refine fun l => ⟨⟨?_, fun each => ?_⟩, Notices.renew_followed _ _ _⟩
  · rw [State.growAnswers_notices, Notices.renew_flags]; exact l.1
  · have mode : s.exchange.control.answerMode = .each := each
    rw [State.growAnswers_notices, Notices.renew_flags, mode, State.growAnswers_exchange_answerQueue]; simp

/-- A change of ANSWER_MODE, made where the other fields of CONTROL are stored (R182, R192). -/
theorem State.changeAnswerMode_noted (s : State) (c : Control) :
    s.noted ({ s with exchange := { s.exchange with control := c } }.changeAnswerMode s.exchange.control.answerMode) := by
  intro l
  unfold State.changeAnswerMode
  dsimp only
  split
  · next same => exact ⟨⟨l.1, fun each => l.2 (same ▸ each)⟩, Notices.followed_refl _⟩
  · refine ⟨⟨?_, fun each => ?_⟩, Notices.renew_followed _ _ _⟩
    · rw [State.setFlags, Notices.renew_flags]; exact l.1
    · have mode : c.answerMode = .each := each
      rw [State.setFlags, Notices.renew_flags]
      simp only [mode, answerLevel]

theorem State.writeControl_noted (s : State) (w : Word) : s.noted (s.writeControl w) := by
  have store : s.noted (s.storeControl (.ofWord w)) := by
    unfold State.storeControl
    exact (((s.changeAnswerMode_noted (.ofWord w)).after (State.changeSweepMs_touches ..)).after
      (State.changeIntake_touches ..)).after (State.actOnRun_touches _)
  unfold State.writeControl
  dsimp only
  split
  · split
    · exact (store.after (State.requestRestart_touches ..)).after (State.beginRecords_touches _)
    · exact store.after (State.beginRecords_touches _)
  · exact State.noted_of_quiet (Touches.refl [] s)

theorem State.writePost_noted (s : State) (w : Word) : s.noted (s.writePost w) := by
  unfold State.writePost
  split
  · split
    · exact fun l => ⟨l, Notices.followed_refl _⟩
    · exact s.noticeOverflow_noted
  · exact State.noted_of_quiet (Touches.refl [] s)

theorem State.returned_noted {w : Option Word} (h : s.noted t) : s.noted (t.returned w) := h.after (State.returned_touches ..)

theorem State.readAnswer_noted (s : State) : s.noted s.readAnswer := by
  have same : ∀ w, s.noted (s.returned w) := fun w => State.noted_of_quiet (State.returned_touches ..)
  unfold State.readAnswer
  repeat' split
  case h_2 => exact State.returned_noted (s.shrinkAnswers_noted _)
  all_goals exact same _

theorem State.readLapse_noted (s : State) : s.noted s.readLapse := by
  have same : ∀ w, s.noted (s.returned w) := fun w => State.noted_of_quiet (State.returned_touches ..)
  unfold State.readLapse
  repeat' split
  case h_2 => exact State.returned_noted (s.setLapseQueue_noted _)
  all_goals exact same _

theorem State.writeNotice_noted (s : State) (w : Word) : s.noted (s.writeNotice w) := by
  unfold State.writeNotice
  split
  · refine State.setFlags_noted rfl (fun each => ?_)
    simp [NoticeBits.clearedBy, each]
  · exact State.noted_of_quiet (Touches.refl [] s)

theorem State.writeEnable_noted (s : State) (w : Word) : s.noted (s.writeEnable w) := by
  unfold State.writeEnable
  split
  · refine fun l => ⟨⟨?_, fun each => ?_⟩, Notices.renew_followed _ _ _⟩
    · show (Notices.renew _ _ _).flags.lapse = _
      rw [Notices.renew_flags]; exact l.1
    · show (Notices.renew _ _ _).flags.answer = _
      rw [Notices.renew_flags]; exact l.2 each
  · exact State.noted_of_quiet (Touches.refl [] s)

theorem State.markTaken_noted (s : State) (c : Nat) : s.noted (s.markTaken c) := by
  unfold State.markTaken State.dropAnswered
  split
  · exact (s.shrinkAnswers_noted _).after (State.poke_touches ..)
  · exact State.noted_of_quiet (State.poke_touches ..)

theorem State.endTake_noted (s : State) (copy : Copy) : s.noted (s.endTake copy) := by
  unfold State.endTake
  split
  · exact State.noted_of_quiet (Touches.refl [] s)
  · next t _ =>
    dsimp only
    refine State.noted.after (State.noted.after ?_ (State.resumeSweep_touches ..)) (State.tryStop_touches _)
    repeat' split
    · exact State.noted.before (State.setTake_touches ..) ((State.markTaken_noted _ _).after (State.hold_touches ..))
    · exact State.noted_of_quiet (State.setTake_touches ..)
    · exact (State.noted_of_quiet (State.setTake_touches s none)).after (State.strayPost_touches _)

theorem State.accessFails_noted (s : State) (access : AreaAccess) : s.noted (s.accessFails access) := by
  unfold State.accessFails
  split
  · exact State.noted_of_quiet (State.visitFails_touches ..)
  · exact State.noted_of_quiet (State.takeReadFails_touches ..)
  · unfold State.takenWriteFails
    split
    · exact State.noted.before (State.setTake_touches ..) ((State.markTaken_noted _ _).after (State.areaError_touches ..))
    · exact State.noted_of_quiet (Touches.refl [] s)
  · exact State.noted_of_quiet (State.answerFails_touches ..)
  · exact State.noted_of_quiet (State.answerFails_touches ..)
  · exact State.noted_of_quiet (State.answerFails_touches ..)
  · exact State.noted_of_quiet (State.faultRecordFails_touches ..)
  · exact State.noted_of_quiet (State.meterBlockFails_touches ..)
  · exact State.noted_of_quiet (State.baySummaryFails_touches ..)

theorem State.capturePresence_noted (s : State) (b : Nat) (edge : EdgeSelect) : s.noted (s.capturePresence b edge) := by
  unfold State.capturePresence
  dsimp only
  repeat' split
  · exact State.noted.before (State.putBay_touches ..) (State.noticeBay_noted _)
  · exact State.noted_of_quiet (State.putBay_touches ..)
  · exact State.noted_of_quiet (Touches.refl [] s)

theorem State.presenceRise_noted (s : State) (b : Nat) : s.noted (s.presenceRise b) := by
  unfold State.presenceRise
  dsimp only
  repeat' split
  · exact State.noted_of_quiet (Touches.refl [] s)
  · exact State.noted.before (State.setPresence_touches ..) (((State.capturePresence_noted _ _ _).after
      (State.inserted_touches ..)).after (State.beginRecords_touches _))
  · exact State.noted_of_quiet (State.setPresence_touches ..)

theorem State.faultNotice_noted (s : State) : s.noted s.faultNotice := by
  unfold State.faultNotice
  split
  · exact s.noticeFault_noted
  · exact State.noted_of_quiet (Touches.refl [] s)

theorem State.meterNotice_noted (s : State) : s.noted s.meterNotice := by
  unfold State.meterNotice
  split
  · exact State.noted_of_quiet (Touches.refl [] s)
  · exact s.noticeMeter_noted

/-- The Fault Capture Unit's record changes and nothing else; its write in flight counts with the ports. -/
theorem State.setCapture_touches (s : State) (v : FaultCapture) : Touches [.ports, .capture] s { s with capture := v } := by
  refine ⟨fun p out => ?_⟩
  cases p
  case ports => exact absurd (by decide) out
  case capture => exact absurd (by decide) out
  all_goals and_intros <;> rfl

theorem State.faultRecordWritten_noted (s : State) : s.noted s.faultRecordWritten := by
  unfold State.faultRecordWritten
  split
  · next base r _ _ =>
    exact .before (s.pokeParts_touches (base.toNat + Config.faultRecordOffset) r.image faultRecordParts)
      (.before (State.setCapture_touches _ _)
        (((State.faultNotice_noted _).after (State.rearmed_touches _)).after (State.beginRecords_touches _)))
  · exact State.noted_of_quiet (Touches.refl [] s)

theorem State.meterBlockWritten_noted (s : State) : s.noted s.meterBlockWritten := by
  unfold State.meterBlockWritten
  split
  · exact State.noted_of_quiet (Touches.refl [] s)
  · next w _ =>
    exact .before (s.pokeParts_touches (w.base.toNat + Config.meterBlockOffset) w.image meterBlockParts)
      (.before (State.endMeterWrite_touches _) ((State.meterNotice_noted _).after (State.beginRecords_touches _)))

end

/-! ### LAPSE falls, LAPSE rises -/

theorem Notices.lapseOnly_refl (n : Notices) : n.lapseOnly n := ⟨rfl, rfl⟩

/-- Where LAPSE alone changes and does not rise, the condition does not become true. -/
theorem Notices.lapseOnly.condition {n m : Notices} (h : n.lapseOnly m) (less : m.flags.lapse = true → n.flags.lapse = true)
    (holds : m.condition = true) : n.condition = true := by
  rw [Notices.condition_eq, h.others, h.enable, Bool.or_eq_true, Bool.and_eq_true] at holds
  rw [Notices.condition_eq, Bool.or_eq_true, Bool.and_eq_true]
  exact holds.imp_left (And.imp_left less)

theorem Notices.lapseOnly.symm {n m : Notices} (h : n.lapseOnly m) : m.lapseOnly n :=
  ⟨h.enable.symm, by rw [← h.flags]⟩

section
variable {s t u : State} {ps : List Part}

/-- An event in which LAPSE alone may change, and only falls. -/
def State.falls (s t : State) : Prop :=
  s.levels → t.levels ∧ s.notices.Followed t.notices ∧ s.notices.lapseOnly t.notices
    ∧ (t.notices.condition = true → s.notices.condition = true)

/-- An event in which LAPSE alone may change, and only rises. -/
def State.rises (s t : State) : Prop :=
  s.levels → t.levels ∧ s.notices.Followed t.notices ∧ s.notices.lapseOnly t.notices
    ∧ (s.notices.condition = true → t.notices.condition = true)

theorem State.falls.noted (h : s.falls t) : s.noted t := fun l => ⟨(h l).1, (h l).2.1⟩
theorem State.rises.noted (h : s.rises t) : s.noted t := fun l => ⟨(h l).1, (h l).2.1⟩

theorem State.falls_of_quiet (k : Touches ps s t) (w : Part.notices ∉ ps := by decide)
    (w₁ : Part.lapseQueue ∉ ps := by decide) (w₂ : Part.answerQueue ∉ ps := by decide) (w₃ : Part.control ∉ ps := by decide) :
    s.falls t := fun l => by
  refine ⟨l.quiet k w w₁ w₂ w₃, ?_⟩
  rw [k.notices w]; exact ⟨Notices.followed_refl _, Notices.lapseOnly_refl _, id⟩

theorem State.rises_of_quiet (k : Touches ps s t) (w : Part.notices ∉ ps := by decide)
    (w₁ : Part.lapseQueue ∉ ps := by decide) (w₂ : Part.answerQueue ∉ ps := by decide) (w₃ : Part.control ∉ ps := by decide) :
    s.rises t := fun l => by
  refine ⟨l.quiet k w w₁ w₂ w₃, ?_⟩
  rw [k.notices w]; exact ⟨Notices.followed_refl _, Notices.lapseOnly_refl _, id⟩

theorem State.falls.refl (s : State) : s.falls s := State.falls_of_quiet (Touches.refl [] s)

theorem State.falls.trans (h : s.falls t) (k : t.falls u) : s.falls u := fun l => by
  obtain ⟨lt, fst, ost, mst⟩ := h l
  obtain ⟨lu, ftu, otu, mtu⟩ := k lt
  refine ⟨lu, fst.trans ftu ?_, ost.trans otu, fun c => mst (mtu c)⟩
  revert mst mtu
  cases s.notices.condition <;> cases t.notices.condition <;> cases u.notices.condition <;> simp

theorem State.rises.trans (h : s.rises t) (k : t.rises u) : s.rises u := fun l => by
  obtain ⟨lt, fst, ost, mst⟩ := h l
  obtain ⟨lu, ftu, otu, mtu⟩ := k lt
  refine ⟨lu, fst.trans ftu ?_, ost.trans otu, fun c => mtu (mst c)⟩
  revert mst mtu
  cases s.notices.condition <;> cases t.notices.condition <;> cases u.notices.condition <;> simp

/-- Behind a fall, an event that touches neither flags nor queues. -/
theorem State.falls.after (h : s.falls t) (k : Touches ps t u) (w : Part.notices ∉ ps := by decide)
    (w₁ : Part.lapseQueue ∉ ps := by decide) (w₂ : Part.answerQueue ∉ ps := by decide) (w₃ : Part.control ∉ ps := by decide) :
    s.falls u := h.trans (State.falls_of_quiet k w w₁ w₂ w₃)

theorem State.falls.foldl {α : Type} {f : State → α → State} (h : ∀ u x, State.falls u (f u x)) (xs : List α) (s : State) :
    s.falls (xs.foldl f s) := by
  induction xs generalizing s with
  | nil => exact .refl s
  | cons x xs ih => exact (h s x).trans (ih _)

theorem State.rises.foldl {α : Type} {f : State → α → State} (h : ∀ u x, State.rises u (f u x)) (xs : List α) (s : State) :
    s.rises (xs.foldl f s) := by
  induction xs generalizing s with
  | nil => exact State.rises_of_quiet (Touches.refl [] s)
  | cons x xs ih => exact (h s x).trans (ih _)

theorem State.setLapseQueue_lapseOnly (s : State) (q : List Nat) : s.notices.lapseOnly (s.setLapseQueue q).notices := by
  rw [State.setLapseQueue_flags]
  exact ⟨Notices.renew_enable _ _ _, by rw [Notices.renew_flags]⟩

theorem State.pushLapse_rises (s : State) (n : Nat) : s.rises (s.pushLapse n) := fun l => by
  obtain ⟨levels, followed⟩ := s.setLapseQueue_noted (s.exchange.lapseQueue ++ [n]) l
  have only := s.setLapseQueue_lapseOnly (s.exchange.lapseQueue ++ [n])
  refine ⟨levels, followed, only, only.symm.condition fun _ => ?_⟩
  rw [State.setLapseQueue_flags, Notices.renew_flags]; simp

theorem State.dropLapse_falls (s : State) (n : Nat) : s.falls (s.dropLapse n) := by
  unfold State.dropLapse
  split
  · next queued =>
    intro l
    obtain ⟨levels, followed⟩ := s.setLapseQueue_noted (s.exchange.lapseQueue.filter (fun m => m != n)) l
    have only := s.setLapseQueue_lapseOnly (s.exchange.lapseQueue.filter (fun m => m != n))
    refine ⟨levels, followed, only, only.condition fun _ => ?_⟩
    rw [l.1]; simpa using List.ne_nil_of_mem queued
  · exact .refl s

theorem State.freeLoan_falls (s : State) (n : Nat) : s.falls (s.freeLoan n) :=
  (State.falls_of_quiet ((State.setLoan_touches s n .free).trans ((State.setWaiting_touches ..).mono rfl))).trans
    (State.dropLapse_falls _ n)

theorem State.expire_falls (s : State) (n : Nat) : s.falls (s.expire n) := (s.freeLoan_falls n).after (State.replyOpt_touches ..)

theorem State.finishReturn_falls (s : State) (n : Nat) : s.falls (s.finishReturn n) :=
  (s.freeLoan_falls n).after (State.replyOpt_touches ..)

theorem State.faultWaiting_falls (s : State) (n : Nat) : s.falls (s.faultWaiting n) :=
  (State.falls_of_quiet (State.replyOpt_touches ..)).trans (State.freeLoan_falls _ n)

theorem State.faultLoan_falls (s : State) (cause : Cause) (n : Nat) : s.falls (s.faultLoan cause n) :=
  (State.falls_of_quiet (State.setLoan_touches ..)).trans (State.dropLapse_falls _ n)

theorem State.faultLoans_falls (s : State) (b : Nat) (cause : Cause) : s.falls (s.faultLoans b cause) :=
  (State.falls.foldl (fun u n => u.faultWaiting_falls n) _ _).trans (State.falls.foldl (fun u n => u.faultLoan_falls cause n) _ _)

theorem State.inFlightOver_falls (s : State) (n : Nat) : s.falls (s.inFlightOver n) := by
  unfold State.inFlightOver
  dsimp only
  split
  · exact ((s.finishReturn_falls n).after (State.examine_touches ..)).after (State.completionTest_touches ..)
  · exact ((s.finishReturn_falls n).after (State.examine_touches ..)).after (State.completionTest_touches ..)
  · exact (State.falls_of_quiet (State.setLoan_touches ..)).after (State.examine_touches ..)
  · exact (s.finishReturn_falls n).after (State.completionTest_touches ..)
  · exact .refl s

theorem State.transferEnded_falls (s : State) (n : Nat) (reserved : Option Nat) (r : Result) :
    s.falls (s.transferEnded n reserved r) := by
  unfold State.transferEnded
  dsimp only
  split
  · exact (State.falls_of_quiet (State.setLoan_touches ..)).trans (State.inFlightOver_falls _ n)
  · exact State.falls_of_quiet (State.setLoan_touches ..)

theorem State.reportAnswer_falls (s : State) (a : Answer) (t : Option Transfer) : s.falls (s.reportAnswer a t) := by
  have met := State.falls_of_quiet (s.meterAnswered_touches (t.map (fun t => t.group)))
  unfold State.reportAnswer
  dsimp only
  split
  · exact met.trans (State.transferEnded_falls _ _ _ _)
  · exact met

theorem State.returnLoan_falls (s : State) (cell : Nat) (c : Copy) : s.falls (s.returnLoan cell c) := by
  have replied : ∀ r d, s.falls (s.reply cell r d) := fun r d => State.falls_of_quiet (State.reply_touches ..)
  have held : ∀ st, s.falls (s.holdReturn c.loan cell st) := fun st => State.falls_of_quiet (State.holdReturn_touches ..)
  have freed := (s.freeLoan_falls c.loan).after (State.reply_touches _ cell .ok c.loan)
  unfold State.returnLoan
  dsimp only
  split
  · exact replied _ _
  · split
    · exact replied _ _
    · split
      · exact (freed.after (State.examine_touches ..)).after (State.completionTest_touches ..)
      · exact held _
      · exact ((((s.freeLoan_falls c.loan).after (State.replyOpt_touches ..)).after (State.reply_touches ..)).after
          (State.examine_touches ..)).after (State.completionTest_touches ..)
      · exact freed.after (State.completionTest_touches ..)
      · exact held _
      · exact freed.after (State.completionTest_touches ..)
      · exact held _
      · exact replied _ _
      · exact replied _ _

theorem State.bayFault_falls (s : State) (b : Nat) (cause : Cause) : s.falls (s.bayFault b cause) := by
  have record := ((State.falls_of_quiet (s.putBay_touches b ((s.bay b).faulted cause))).after
    (State.releaseEnded_touches _ b (s.bay b).outstanding)).after
    (State.answerAdmit_touches _ b .diskFault Cause.admitFailed.code)
  unfold State.bayFault
  dsimp only
  split
  · exact (((record.trans (State.faultLoans_falls _ b cause)).after (State.faultShares_touches ..)).after
      (State.faultStaging_touches ..)).after (State.offer_touches ..)
  · exact record

theorem State.operationFails_falls (s : State) (b : Nat) : s.falls (s.operationFails b) := by
  unfold State.operationFails
  split
  · exact s.bayFault_falls _ _
  · exact s.bayFault_falls _ _
  · exact .refl s

theorem State.linkError_falls (s : State) (b : Nat) (tag : Option (Fin 4)) (number : Nat) :
    s.falls (s.linkError b tag number) := by
  unfold State.linkError
  split
  · exact .refl s
  · split
    · exact (State.falls_of_quiet (State.endCommand_touches ..)).after (State.resend_touches ..)
    · refine State.falls.after ?_ (State.beginRecords_touches _)
      unfold State.linkFails
      split
      case h_4 => exact s.operationFails_falls _
      case h_5 => exact s.operationFails_falls _
      all_goals exact s.bayFault_falls _ _

theorem State.mediaError_falls (s : State) (b : Nat) (tag : Option (Fin 4)) (number firstBad : Nat) :
    s.falls (s.mediaError b tag number firstBad) := by
  unfold State.mediaError
  split
  · exact .refl s
  · split
    · split
      · exact State.falls_of_quiet (State.mediaOn_touches ..)
      · exact (State.falls_of_quiet (State.endCommand_touches ..)).after (State.discardReport_touches ..)
    · exact s.linkError_falls _ _ _
  · exact s.linkError_falls _ _ _

theorem State.cmdTimeout_falls (s : State) (b : Nat) (tag : Option (Fin 4)) (number : Nat) :
    s.falls (s.cmdTimeout b tag number) := by
  unfold State.cmdTimeout
  split
  · exact (s.bayFault_falls _ _).after (State.beginRecords_touches _)
  · exact .refl s

theorem State.identifyEnd_falls (s : State) (b number : Nat) (size : BitVec 64) : s.falls (s.identifyEnd b number size) := by
  unfold State.identifyEnd
  split
  · have ended := State.falls_of_quiet (s.endCommand_touches b none number)
    refine State.falls.after ?_ (State.beginRecords_touches _)
    split
    · exact ended.trans (State.operationFails_falls _ _)
    · exact ended.after (State.admitted_touches ..)
  · exact .refl s

theorem State.readyLost_falls (s : State) (b : Nat) : s.falls (s.readyLost b) := by
  unfold State.readyLost
  split
  · exact (s.bayFault_falls _ _).after (State.beginRecords_touches _)
  · exact .refl s

theorem State.removed_falls (s : State) (b : Nat) : s.falls (s.removed b) := by
  unfold State.removed
  split
  · exact .refl s
  · split
    · exact s.bayFault_falls _ _
    · exact ((State.falls_of_quiet (State.putBay_touches ..)).after (State.answerAdmit_touches ..)).after (State.discardBay_touches ..)

theorem State.lapseLoan_rises (s : State) (n : Nat) : s.rises (s.lapseLoan n) :=
  (((State.rises_of_quiet (State.replyAll_touches ..)).trans (State.rises_of_quiet (State.removeQueued_touches ..))).trans
    (State.rises_of_quiet (State.setLoan_touches ..))).trans (State.pushLapse_rises _ _)

/-! ### A raised flag before a fall -/

/-- An event that raises a flag other than LAPSE: the condition stays, or holds by that flag. -/
def State.raised (s t : State) : Prop :=
  s.levels → t.levels ∧ s.notices.Followed t.notices ∧ (t.notices.condition = s.notices.condition ∨ t.notices.others = true)

theorem State.raised_of_quiet (k : Touches ps s t) (w : Part.notices ∉ ps := by decide)
    (w₁ : Part.lapseQueue ∉ ps := by decide) (w₂ : Part.answerQueue ∉ ps := by decide) (w₃ : Part.control ∉ ps := by decide) :
    s.raised t := fun l => ⟨(State.noted_of_quiet k w w₁ w₂ w₃ l).1, (State.noted_of_quiet k w w₁ w₂ w₃ l).2, .inl (by rw [k.notices w])⟩

theorem State.raised.before (k : Touches ps s t) (h : t.raised u) (w : Part.notices ∉ ps := by decide)
    (w₁ : Part.lapseQueue ∉ ps := by decide) (w₂ : Part.answerQueue ∉ ps := by decide) (w₃ : Part.control ∉ ps := by decide) :
    s.raised u := fun l => by
  have := h (l.quiet k w w₁ w₂ w₃)
  rwa [k.notices w] at this

/-- A raise and then falls are one change (R194): a flag raised stays pending. -/
theorem State.raised.falls (h : s.raised t) (k : t.falls u) : s.noted u := fun l => by
  obtain ⟨lt, fst, up⟩ := h l
  obtain ⟨lu, ftu, only, -⟩ := k lt
  refine ⟨lu, fst.trans ftu (up.imp_right fun o => ?_)⟩
  rw [Notices.condition_eq, Notices.condition_eq, only.others, o, Bool.or_true, Bool.or_true]

/-- Flags that rise while LAPSE keeps its value. -/
theorem Notices.raised_condition {n m : Notices} (enable : m.enable = n.enable) (lapse : m.flags.lapse = n.flags.lapse)
    (more : n.others = true → m.others = true) : m.condition = n.condition ∨ m.others = true := by
  rw [Notices.condition_eq, Notices.condition_eq, enable, lapse]
  revert more
  cases n.others <;> cases m.others <;> simp

theorem State.noticeBay_raised (s : State) : s.raised s.noticeBay := fun l => by
  obtain ⟨levels, followed⟩ := s.noticeBay_noted l
  refine ⟨levels, followed, Notices.raised_condition (Notices.renew_enable ..) ?_ ?_⟩
  · rw [State.noticeBay, State.setFlags, Notices.renew_flags]
  · rw [State.noticeBay, State.setFlags]
    simp only [Notices.others, Notices.renew_flags, Notices.renew_enable]
    cases s.notices.flags.bay <;> simp +contextual [or_imp]

theorem State.growAnswers_raised (s : State) (c : Nat) : s.raised (s.growAnswers c) := fun l => by
  obtain ⟨levels, followed⟩ := s.growAnswers_noted c l
  have rising : s.notices.flags.answer = true → (match s.exchange.control.answerMode with
      | .each => true
      | .first => s.notices.flags.answer || s.exchange.answerQueue.isEmpty) = true := by
    intro set; split <;> simp [set]
  refine ⟨levels, followed, Notices.raised_condition ?_ ?_ ?_⟩
  · rw [State.growAnswers_notices, Notices.renew_enable]
  · rw [State.growAnswers_notices, Notices.renew_flags]
  · rw [State.growAnswers_notices]
    simp only [Notices.others, Notices.renew_flags, Notices.renew_enable, Bool.or_eq_true, Bool.and_eq_true]
    exact fun shown => by
      rcases shown with (((fault | bay) | answer) | meter) | overflow
      · exact .inl (.inl (.inl (.inl fault)))
      · exact .inl (.inl (.inl (.inr bay)))
      · exact .inl (.inl (.inr ⟨rising answer.1, answer.2⟩))
      · exact .inl (.inr meter)
      · exact .inr overflow

theorem State.presenceFall_noted (s : State) (b : Nat) : s.noted (s.presenceFall b) := by
  unfold State.presenceFall
  split
  · dsimp only
    split
    · have captured : ∀ u : State, u.raised (u.capturePresence b .remove) := fun u => by
        unfold State.capturePresence
        dsimp only
        repeat' split
        · exact State.raised.before (State.putBay_touches ..) (State.noticeBay_raised _)
        · exact State.raised_of_quiet (State.putBay_touches ..)
        · exact State.raised_of_quiet (Touches.refl [] u)
      exact .before (State.setPresence_touches ..) (((captured _).falls (State.removed_falls _ b)).after (State.beginRecords_touches _))
    · exact State.noted_of_quiet (State.setPresence_touches ..)
  · exact State.noted_of_quiet (Touches.refl [] s)

theorem State.answerWritten_noted (s : State) : s.noted s.answerWritten := by
  unfold State.answerWritten
  split
  · next a rest _ _ =>
    have poked := (s.pokeAnswer_touches a).trans ((State.pokeHand_touches _ a.cell).mono rfl)
    dsimp only
    split
    · unfold State.finishAnswer
      refine .before poked (State.noted.before (State.nextAnswer_touches _ rest) (((?_ : State.noted _ _).after (State.tryStop_touches _)).after
        (State.beginRecords_touches _)))
      exact (State.growAnswers_raised _ _).falls ((State.falls_of_quiet (State.unhold_touches ..)).trans (State.reportAnswer_falls _ _ _))
    · exact .before poked (State.noted_of_quiet (State.idleAnswers_touches _))
  · exact State.noted_of_quiet (Touches.refl [] s)

end

/-! ### The tick -/

section
variable {s t u : State} {ps : List Part}

/-- An event that keeps the level flags at their queues and the interrupt under its condition, and is one change where the condition is
false before it or the Lapse Queue has its form. -/
def State.heeds (s t : State) : Prop :=
  s.levels → t.levels
    ∧ ((s.notices.interrupt = true → s.notices.condition = true) → t.notices.interrupt = true → t.notices.condition = true)
    ∧ (s.notices.condition = false ∨ s.lapseQueued → s.notices.Followed t.notices)

theorem State.noted.heeds (h : s.noted t) : s.heeds t := fun l => by
  obtain ⟨levels, followed⟩ := h l
  exact ⟨levels, followed.2.2, fun _ => followed⟩

/-- A fall and then a rise: one change where the condition is false at first, or where the fall leaves the flags. -/
theorem State.falls.rises (h : s.falls t) (k : t.rises u) (still : s.lapseQueued → t.notices = s.notices) : s.heeds u := fun l => by
  obtain ⟨lt, fst, -, less⟩ := h l
  obtain ⟨lu, ftu, -, -⟩ := k lt
  refine ⟨lu, fun i => ftu.2.2 (fst.2.2 i), fun cause => fst.trans ftu (.inl ?_)⟩
  rcases cause with off | queued
  · rw [off, Bool.eq_false_iff]
    exact fun on => absurd (less on) (by rw [off]; simp)
  · rw [still queued]

theorem State.expire_unqueued {n : Nat} (out : n ∉ s.exchange.lapseQueue) :
    (s.expire n).notices = s.notices ∧ (s.expire n).exchange.lapseQueue = s.exchange.lapseQueue := by
  have freed : Touches [.loans] s (s.freeLoan n) := by
    unfold State.freeLoan State.dropLapse
    dsimp only
    rw [if_neg (by simpa only [State.setWaiting_exchange, State.setLoan_exchange] using out)]
    exact (State.setLoan_touches ..).trans (State.setWaiting_touches ..)
  have answered : Touches [.loans, .answers] s (s.expire n) := (freed.mono rfl).trans ((State.replyOpt_touches ..).mono rfl)
  exact ⟨answered.notices, answered.lapseQueue⟩

theorem State.expireAll_unqueued {ns : List Nat} (out : ∀ n ∈ ns, n ∉ s.exchange.lapseQueue) :
    (ns.foldl (fun s n => s.expire n) s).notices = s.notices := by
  induction ns generalizing s with
  | nil => rfl
  | cons n ns ih =>
    obtain ⟨flags, queue⟩ := State.expire_unqueued (out n (by simp))
    rw [List.foldl_cons, ih (fun m hm => queue ▸ out m (List.mem_cons_of_mem _ hm)), flags]

/-- A loan that expires is WAITING (R10). -/
theorem State.mem_expiring {n : Nat} (h : n ∈ s.expiring) : (s.loan n).state = .waiting ∧ (s.loan n).wait ≤ 1 := by
  obtain ⟨b, -, hn⟩ := List.mem_flatMap.1 h
  have due := (List.mem_filter.1 hn).2
  rw [Loan.expiresNext, Bool.and_eq_true, beq_iff_eq, decide_eq_true_eq] at due
  exact due

theorem State.loanTick_heeds (s : State) : s.heeds s.loanTick := by
  have expired : s.falls (s.expiring.foldl (fun s n => s.expire n) (s.mapLoans Loan.countWait)) :=
    (State.falls_of_quiet (State.mapLoans_touches ..)).trans (State.falls.foldl (fun u n => u.expire_falls n) _ _)
  have still (queued : s.lapseQueued) :
      (s.expiring.foldl (fun s n => s.expire n) (s.mapLoans Loan.countWait)).notices = s.notices :=
    State.expireAll_unqueued fun n hn mem => by
      have waiting := (State.mem_expiring hn).1
      rcases queued n mem with e | e <;> rw [e] at waiting <;> cases waiting
  unfold State.loanTick
  refine State.falls.rises expired (State.rises.trans (State.rises.trans (State.rises.trans
    (State.rises_of_quiet (State.mapLoans_touches _ _)) (State.rises.foldl (fun u n => u.lapseLoan_rises n) _ _))
    (State.rises_of_quiet (State.examineAll_touches _ _))) (State.rises_of_quiet (State.completionTests_touches _ _))) still

theorem State.heeds.after (h : s.heeds t) (k : Touches ps t u) (w : Part.notices ∉ ps := by decide)
    (w₁ : Part.lapseQueue ∉ ps := by decide) (w₂ : Part.answerQueue ∉ ps := by decide) (w₃ : Part.control ∉ ps := by decide) :
    s.heeds u := fun l => by
  obtain ⟨levels, rest⟩ := h l
  refine ⟨levels.quiet k w w₁ w₂ w₃, ?_⟩
  rw [k.notices w]; exact rest

theorem State.heeds.before (k : Touches ps s t) (h : t.heeds u) (w : Part.notices ∉ ps := by decide)
    (w₁ : Part.lapseQueue ∉ ps := by decide) (w₂ : Part.answerQueue ∉ ps := by decide) (w₃ : Part.control ∉ ps := by decide)
    (w₄ : Part.loans ∉ ps := by decide) : s.heeds u := fun l => by
  have := h (l.quiet k w w₁ w₂ w₃)
  rw [k.notices w] at this
  refine ⟨this.1, this.2.1, fun cause => this.2.2 (cause.imp_right fun queued n hn => ?_)⟩
  rw [k.loan n w₄]
  exact queued n (k.lapseQueue w₁ ▸ hn)

/-- The Loan Clock's counters change and nothing else. -/
theorem State.clock_touches (s : State) (k : LoanClock) : Touches [.clock] s { s with clock := k } := by
  refine ⟨fun p out => ?_⟩
  cases p
  case clock => exact absurd (by decide) out
  all_goals and_intros <;> rfl

theorem State.tick_heeds (s : State) : s.heeds s.tick := by
  unfold State.tick
  dsimp only
  split
  · have idle := Touches.foldl (l := allBays) (fun u b => State.idleTick_touches u b)
      (Touches.refl _ { s with clock := s.clock.produce }.loanTick)
    exact .before (s.clock_touches _) ((((State.loanTick_heeds _).after idle).after (State.meterTick_touches _)).after
      (State.beginRecords_touches _))
  · exact fun l => ⟨l, id, fun _ => Notices.followed_refl _⟩

/-! ### Every step -/

theorem State.restartEffects_noted (s : State) : s.noted s.restartEffects := by
  have bays : Touches [.arbiters, .records] s.cleared (overBays (overBays s.cleared (fun s b => s.setArbiter b (s.arbiter b).restarted))
      (fun s b => s.setBay b (s.bay b).restarted)) :=
    overBays_touches (fun u b => (State.setBay_touches ..).mono rfl)
      (overBays_touches (fun u b => (State.setArbiter_touches ..).mono rfl) (Touches.refl ..))
  have cleared : s.noted s.cleared := fun _ => by
    have flags : s.cleared.notices.flags = .clear := Notices.renew_flags ..
    refine ⟨⟨?_, fun _ => ?_⟩, Notices.renew_followed ..⟩
    · rw [flags]; rfl
    · rw [flags]; rfl
  unfold State.restartEffects
  dsimp only
  split
  · exact ((cleared.after bays).after (State.requestSummary_touches _)).after (State.beginRecords_touches _)
  · exact cleared.after bays

theorem handling_noted {k : OrderKind} {cell : Nat} {act : State → Copy → State} (acts : ∀ (u : State) c, u.noted (act u c))
    (e : s.handling k cell act = .next t) : s.noted t := by
  unfold State.handling at e
  split at e <;> cases e
  · exact .before (State.validated_touches ..) ((acts _ _).after (State.beginRecords_touches _))
  · exact State.noted_of_quiet (Touches.refl [] s)

/-- Every command but a reset and a link reset heeds the flags, the queues and the interrupt. -/
theorem exec_heeds {c : Instr} (e : exec c s = .next t) (power : c ≠ .powerOn) (link : c ≠ .linkReset) : s.heeds t := by
  cases c
  case powerOn => exact absurd rfl power
  case linkReset => exact absurd rfl link
  case restartEffects =>
    cases e
    split
    · exact s.restartEffects_noted.heeds
    · exact (State.falls.refl s).noted.heeds
  case restart => cases e; exact (s.writeControl_noted _).heeds
  case run => cases e; exact (s.writeControl_noted _).heeds
  case runStop => cases e; exact (s.writeControl_noted _).heeds
  case intakeMode => cases e; exact (s.writeControl_noted _).heeds
  case answerMode => cases e; exact (s.writeControl_noted _).heeds
  case sweepMs => cases e; exact (s.writeControl_noted _).heeds
  case post => cases e; exact (s.writePost_noted _).heeds
  case answer => cases e; exact s.readAnswer_noted.heeds
  case lapse => cases e; exact s.readLapse_noted.heeds
  case notice => cases e; exact (s.writeNotice_noted _).heeds
  case noticeEnable => cases e; exact (s.writeEnable_noted _).heeds
  case take => cases e; exact (s.endTake_noted _).heeds
  case loanReturn cell =>
    rw [exec_loanReturn] at e
    exact (handling_noted (fun u c => (u.returnLoan_falls cell c).noted) e).heeds
  case tick => cases e; exact s.tick_heeds
  case waitExpired => cases e; split; exacts [s.tick_heeds, (State.falls.refl s).noted.heeds]
  case termLapse => cases e; split; exacts [s.tick_heeds, (State.falls.refl s).noted.heeds]
  case spinDown => cases e; split; exacts [s.tick_heeds, (State.falls.refl s).noted.heeds]
  case meterPeriodEnd => cases e; split; exacts [s.tick_heeds, (State.falls.refl s).noted.heeds]
  case mediaError => cases e; exact (s.mediaError_falls _ _ _ _).noted.heeds
  case linkError => cases e; exact (s.linkError_falls _ _ _).noted.heeds
  case cmdTimeout => cases e; exact (s.cmdTimeout_falls _ _ _).noted.heeds
  case identifyEnd => cases e; exact (s.identifyEnd_falls _ _ _).noted.heeds
  case operationTimeout => cases e; exact ((s.operationFails_falls _).after (State.beginRecords_touches _)).noted.heeds
  case readyLost => cases e; exact (s.readyLost_falls _).noted.heeds
  case presenceRise => cases e; exact (s.presenceRise_noted _).heeds
  case removal => cases e; exact (s.presenceFall_noted _).heeds
  case faultRecordWriteEnd => cases e; exact s.faultRecordWritten_noted.heeds
  case meterBlockWriteEnd => cases e; exact s.meterBlockWritten_noted.heeds
  case answerWritten => cases e; exact s.answerWritten_noted.heeds
  case exchangeAreaError => cases e; exact (s.accessFails_noted _).heeds
  all_goals exact (State.noted_of_quiet (exec_touches e) (by dsimp only [footprint]; decide) (by dsimp only [footprint]; decide)
    (by dsimp only [footprint]; decide) (by dsimp only [footprint]; decide)).heeds

/-- A link reset leaves the flags and the messages and takes the interrupt away (R187, log entry 31). -/
theorem State.linkReset_notices (s : State) : s.linkReset.notices = { s.notices with interrupt := false } :=
  (State.requestRestart_touches _ .linkReset).notices

theorem State.linkReset_levels (l : s.levels) : s.linkReset.levels := by
  have quiet := s.linkReset_touches
  unfold State.levels
  rw [State.linkReset_notices, quiet.lapseQueue, quiet.answerQueue, quiet.control]
  exact l

/-- Power-on leaves no flag pending and nothing queued (R184). -/
theorem State.powerOn_notices (s : State) :
    s.powerOn.levels ∧ s.powerOn.notices.condition = false ∧ s.powerOn.notices.interrupt = false :=
  ⟨⟨rfl, fun _ => rfl⟩, rfl, rfl⟩

theorem exec_noticesFollow {c : Instr} (h : s.noticesFollow) (e : exec c s = .next t) : t.noticesFollow := by
  rw [State.noticesFollow_iff] at h ⊢
  obtain ⟨levels, interrupt⟩ := h
  by_cases power : c = .powerOn
  · subst power; cases e
    obtain ⟨l, -, off⟩ := s.powerOn_notices
    exact ⟨l, fun on => by rw [off] at on; cases on⟩
  · by_cases link : c = .linkReset
    · subst link; cases e
      refine ⟨State.linkReset_levels levels, fun on => ?_⟩
      rw [State.linkReset_notices] at on; cases on
    · obtain ⟨l, follows, -⟩ := exec_heeds e power link levels
      exact ⟨l, follows interrupt⟩

theorem exec_condition_rises {c : Instr} (h : s.noticesFollow) (e : exec c s = .next t) (off : s.notices.condition = false)
    (on : t.notices.condition = true) : t.notices.interrupt = true ∧ t.notices.messages = s.notices.messages + 1 := by
  obtain ⟨levels, -⟩ := s.noticesFollow_iff.1 h
  by_cases power : c = .powerOn
  · subst power; cases e
    rw [s.powerOn_notices.2.1] at on; cases on
  · by_cases link : c = .linkReset
    · subst link; cases e
      rw [State.linkReset_notices] at on
      exact absurd (off.symm.trans on) (by decide)
    · obtain ⟨-, -, followed⟩ := exec_heeds e power link levels
      exact (followed (.inl off)).1 off on

theorem exec_condition_stays {c : Instr} (h : s.noticesFollow) (queued : s.lapseQueued) (e : exec c s = .next t)
    (stays : s.notices.condition = true ∨ t.notices.condition = false) :
    (c ≠ .powerOn → t.notices.messages = s.notices.messages)
      ∧ (t.notices.condition = true → c ≠ .linkReset → t.notices.interrupt = s.notices.interrupt) := by
  obtain ⟨levels, -⟩ := s.noticesFollow_iff.1 h
  by_cases power : c = .powerOn
  · subst power; cases e
    exact ⟨fun other => absurd rfl other, fun on => by rw [s.powerOn_notices.2.1] at on; cases on⟩
  · by_cases link : c = .linkReset
    · subst link; cases e
      exact ⟨fun _ => by rw [State.linkReset_notices], fun _ other => absurd rfl other⟩
    · obtain ⟨-, -, followed⟩ := exec_heeds e power link levels
      obtain ⟨messages, interrupt⟩ := (followed (.inr queued)).2.1 stays
      exact ⟨fun _ => messages, fun on _ => interrupt on⟩

end

/-- Settles O6: an event is a sequence of changes of the flags in one direction, so it is one change (R194); between the expiries and the
lapses of a tick the Lapse Queue has not changed. -/
theorem stepsKeepNoticesFollowing : Obligations.StepsKeepNoticesFollowing := by
  refine ⟨fun s t h e => ?_, fun s t listed queued e => (lapseQueued_law.step ⟨listed, queued⟩ e).2,
    fun s t h e off on => ?_, fun s t h queued e stays => ?_⟩
  · rcases step_cases e with ⟨-, rfl⟩ | ⟨c, rest, -, e⟩
    · have quiet := s.microsecond_touches
      rw [State.noticesFollow_iff] at h ⊢
      exact ⟨h.1.quiet quiet, by rw [quiet.notices]; exact h.2⟩
    · have h : State.noticesFollow { s with pending := rest } := h
      exact exec_noticesFollow h e
  · rcases step_cases e with ⟨-, rfl⟩ | ⟨c, rest, -, e⟩
    · rw [s.microsecond_touches.notices] at on
      exact absurd (off.symm.trans on) (by decide)
    · have h : State.noticesFollow { s with pending := rest } := h
      exact exec_condition_rises (s := { s with pending := rest }) h e off on
  · rcases step_cases e with ⟨-, rfl⟩ | ⟨c, rest, front, e⟩
    · rw [s.microsecond_touches.notices]
      exact ⟨fun _ => rfl, fun _ _ => rfl⟩
    · have h : State.noticesFollow { s with pending := rest } := h
      rw [front, List.head?_cons, Ne, Option.some.injEq, Ne, Option.some.injEq]
      exact exec_condition_stays (s := { s with pending := rest }) h queued e stays

/-! ## An order that its owner is handed (R177) -/

section
variable {s u v : State} {k : OrderKind} {cell : Nat} {o : HeldOrder} {ps : List Part}

theorem State.handling_of_handed {act : State → Copy → State} (h : s.handed k cell = some o) :
    s.handling k cell act = .next (act (s.validated cell) o.copy).beginRecords := by
  simp only [State.handling, h]

/-- Answers decided while an order is acted on are answers of the whole event. -/
theorem State.answered.handling {as : List AnswerWrite} (h : (s.validated cell).answered v as) : s.answered v.beginRecords as := by
  have before := s.validated_touches cell
  have after := v.beginRecords_touches
  unfold State.answered at h ⊢
  rw [after.answerList, after.answerBusy]
  rwa [before.answerList, before.answerBusy, before.serving] at h

/-- What the order touches, the waiting place and the record ports. -/
theorem Touches.handling (h : Touches ps (s.validated cell) v) (w : within [.awaiting] ps = true := by rfl)
    (w' : within [.ports] ps = true := by rfl) : Touches ps s v.beginRecords :=
  ((s.validated_touches cell).mono w |>.trans h).trans (v.beginRecords_touches.mono w')

/-- An order that is answered, and does nothing else. -/
theorem State.handled_reply (cell : Nat) (r : Result) (d : Nat) :
    s.answered ((s.validated cell).reply cell r d).beginRecords [plain cell r d]
      ∧ Touches [.awaiting, .answers, .ports] s ((s.validated cell).reply cell r d).beginRecords :=
  ⟨((s.validated cell).reply_answered ..).handling, Touches.handling ((State.reply_touches ..).mono rfl)⟩

theorem BayState.accepts_iff {b : BayState} : b.accepts = true ↔ b ∈ [BayState.online, .spunDown, .spinningDown, .spinningUp] := by
  cases b <;> simp [BayState.accepts]

/-! ## LOAN_OPEN -/

theorem Touches.openCheck (h : Touches ps s u) (c : Copy) (w : Part.loans ∉ ps := by decide) (w' : Part.records ∉ ps := by decide) :
    u.openCheck c = s.openCheck c := by
  have entry : u.freeEntry = s.freeEntry := by simp only [State.freeEntry, State.loan, h.loans w]
  simp only [State.openCheck, entry, h.bay c.bay w']

theorem Touches.inTheWay (h : Touches ps s u) (l : Loan) (w : Part.loans ∉ ps := by decide) : u.inTheWay l = s.inTheWay l := by
  simp only [State.inTheWay, State.rivals, State.loansWhere, State.waiting, State.loan, h.loans w]

theorem State.freeEntry_eq_some {n : Nat} (bound : n < 512) (free : (s.loan n).state = .free)
    (lowest : ∀ m, m < n → (s.loan m).state ≠ .free) : s.freeEntry = some n := by
  rw [State.freeEntry, List.find?_range_eq_some]
  refine ⟨by simpa using free, by simpa [Config.numLoans] using bound, fun m hm => by simpa using lowest m hm⟩

theorem State.freeEntry_eq_none (full : ∀ n, n < 512 → (s.loan n).state ≠ .free) : s.freeEntry = none := by
  rw [State.freeEntry, List.find?_range_eq_none]
  intro n hn; simpa using full n (by simpa [Config.numLoans] using hn)

section
variable {c : Copy} (format : c.openFormatOk = true)
  (accepts : (s.bay c.bay).state ∈ [BayState.online, .spunDown, .spinningDown, .spinningUp])
  (fits : c.first + c.count ≤ (s.bay c.bay).capacity)
include format accepts fits

/-- Past the checks of format, bay and range a LOAN_OPEN takes the FREE entry there is (R5). -/
theorem State.openCheck_entry {n : Nat} (entry : s.freeEntry = some n) : s.openCheck c = .ok n := by
  have faultless : (s.bay c.bay).state ≠ .faulted := fun e => by rw [e] at accepts; simp at accepts
  simp only [State.openCheck, format, faultless, BayState.accepts_iff.2 accepts, Nat.not_lt.2 fits, entry, Bool.not_true,
    Bool.false_eq_true, if_false]

theorem State.openCheck_full (full : s.freeEntry = none) : s.openCheck c = .error (.tableFull, 0) := by
  have faultless : (s.bay c.bay).state ≠ .faulted := fun e => by rw [e] at accepts; simp at accepts
  simp only [State.openCheck, format, faultless, BayState.accepts_iff.2 accepts, Nat.not_lt.2 fits, full, Bool.not_true,
    Bool.false_eq_true, if_false]

end

theorem State.mem_inTheWay {l : Loan} {m : Nat} : m ∈ s.inTheWay l ↔
    ((s.loan m).state.inConflictSet = true ∨ m ∈ s.waiting l.bay) ∧ conflicts (s.loan m) l = true := by
  rw [State.inTheWay, List.mem_append, State.mem_rivals, List.mem_filter, or_and_right]

theorem State.exec_loanOpen_handed {cell : Fin 1024} (h : s.handed .loanOpen cell = some o) :
    exec (.loanOpen cell) s = .next ((s.validated cell).openLoan cell o.copy).beginRecords := by
  rw [exec_loanOpen]; exact State.handling_of_handed h

theorem State.openLoan_error {c : Copy} {r : Result} {d : Nat} (h : s.openCheck c = .error (r, d)) :
    s.openLoan cell c = s.reply cell r d := by
  simp only [State.openLoan, h]

theorem State.openLoan_granted {c : Copy} {n : Nat} (h : s.openCheck c = .ok n) (clear : s.inTheWay c.newLoan = []) :
    s.openLoan cell c = (s.setLoan n c.newLoan).reply cell .ok n := by
  simp only [State.openLoan, h, clear]

theorem State.openLoan_conflicts {c : Copy} {n : Nat} (h : s.openCheck c = .ok n) (blocked : s.inTheWay c.newLoan ≠ [])
    (limit : c.waitLimit = 0) : s.openLoan cell c = s.reply cell .conflict (least (s.inTheWay c.newLoan)) := by
  obtain ⟨m, ms, e⟩ := List.exists_cons_of_ne_nil blocked
  simp only [State.openLoan, h, e, limit, if_true]

theorem State.openLoan_waits {c : Copy} {n : Nat} (h : s.openCheck c = .ok n) (blocked : s.inTheWay c.newLoan ≠ [])
    (limit : c.waitLimit ≠ 0) : s.openLoan cell c =
      ((s.setLoan n { c.newLoan with state := .waiting, wait := c.waitLimit, openingCell := some cell }).setWaiting c.bay
        (s.waiting c.bay ++ [n])).putAnswer (.interim cell n) := by
  obtain ⟨m, ms, e⟩ := List.exists_cons_of_ne_nil blocked
  simp only [State.openLoan, h, e, limit, if_false]
  rfl

end

theorem Copy.openFormatOk_iff (c : Copy) : c.openFormatOk = true ↔
    (1 ≤ c.node ∧ c.node ≤ 250) ∧ c.group < 16 ∧ c.bay < 24 ∧ c.loanMode ≠ none ∧ c.count ≠ 0
      ∧ (c.loanMode = some .append → 1 ≤ c.frameBlocks ∧ c.frameBlocks ≤ 256) := by
  have mode : (c.loanMode != some LoanMode.append || 1 ≤ c.frameBlocks && c.frameBlocks ≤ 256) = true
      ↔ (c.loanMode = some .append → 1 ≤ c.frameBlocks ∧ c.frameBlocks ≤ 256) := by
    rw [Bool.or_eq_true, bne_iff_ne, Bool.and_eq_true, decide_eq_true_eq, decide_eq_true_eq, ← imp_iff_not_or]
  simp only [Copy.openFormatOk, Bool.and_eq_true, mode, decide_eq_true_eq, bne_iff_ne, Option.isSome_iff_ne_none,
    Config.numGroups, Config.numBays, and_assoc]

/-- Settles O25: the checks of R5 name the entry, nothing is in the way, and the entry is filled. -/
theorem loanOpenIsGranted : Obligations.LoanOpenIsGranted := by
  intro s cell o c mode n handed copy low high group bay kind count frame accepts fits bound free lowest set waits
  subst copy
  have touched := s.validated_touches cell
  have format := (Copy.openFormatOk_iff o.copy).2 ⟨⟨low, high⟩, group, bay, by rw [kind]; simp, count,
    fun e => frame (Option.some.inj (kind.symm.trans e))⟩
  have check : (s.validated cell).openCheck o.copy = .ok n := by
    rw [touched.openCheck]; exact State.openCheck_entry format accepts fits (State.freeEntry_eq_some bound free lowest)
  have clear : (s.validated cell).inTheWay (Copy.newLoan o.copy) = [] := by
    rw [touched.inTheWay, List.eq_nil_iff_forall_not_mem]
    intro m hm
    obtain ⟨st | list, conflict⟩ := State.mem_inTheWay.1 hm
    · rw [set m st] at conflict; cases conflict
    · rw [waits m list] at conflict; cases conflict
  refine ⟨_, State.exec_loanOpen_handed handed, ?_⟩
  rw [State.openLoan_granted check clear]
  have after := State.beginRecords_touches (((s.validated cell).setLoan n (Copy.newLoan o.copy)).reply cell .ok n)
  have loan : ∀ m, ((((s.validated cell).setLoan n (Copy.newLoan o.copy)).reply cell .ok n).beginRecords).loan m
      = if m = n then Copy.newLoan o.copy else s.loan m := fun m => by
    rw [after.loan, State.reply_loan, State.loan_setLoan, touched.loan]
  refine ⟨?_, fun m hm => by rw [loan, if_neg hm], ?_, ?_, ?_⟩
  · rw [loan, if_pos rfl]
    simp only [Copy.newLoan, Copy.term, kind, Option.getD_some, Option.some.injEq, AppendRecord.created]
  · rw [after.loans, (State.reply_touches ..).loans]; rfl
  · exact (((State.setLoan_touches _ n _).answered_nil).trans (State.reply_answered ..) rfl).handling
  · exact Touches.handling ((State.reply_touches ..).after rfl ((State.setLoan_touches ..).mono rfl))

/-- Settles O26: each case is the first check of R5 that fails. -/
theorem loanOpenIsRefused : Obligations.LoanOpenIsRefused := by
  intro s cell o c handed copy answer fails
  subst copy
  have touched := s.validated_touches cell
  obtain ⟨r, d, check, rfl⟩ : ∃ r d, s.openCheck o.copy = .error (r, d) ∧ answer = plain cell r d := by
    rcases fails with ⟨bad, rfl⟩ | ⟨format, st, rfl⟩ | ⟨format, st, rfl⟩ | ⟨format, st, long, rfl⟩ | ⟨format, st, fits, full, rfl⟩
    · refine ⟨.format, 0, ?_, rfl⟩
      have failed : Copy.openFormatOk o.copy = false := by
        rw [← Bool.not_eq_true, Copy.openFormatOk_iff]
        rintro ⟨node, group, bay, kind, count, frame⟩
        rcases bad with h | h | h | h | h | ⟨append, h⟩
        · exact h node
        · omega
        · omega
        · exact kind h
        · exact count h
        · exact h (frame append)
      simp only [State.openCheck, failed, Bool.not_false, if_true]
    · exact ⟨.diskFault, 0, by simp only [State.openCheck, format, st, Bool.not_true, Bool.false_eq_true, if_false, if_true], rfl⟩
    · refine ⟨.diskUnavailable, _, ?_, rfl⟩
      have faultless : (s.bay (Copy.bay o.copy)).state ≠ .faulted := fun e => by rw [e] at st; simp at st
      have refuses : (s.bay (Copy.bay o.copy)).state.accepts = false := by
        rw [← Bool.not_eq_true, BayState.accepts_iff]
        intro h
        cases e : (s.bay (Copy.bay o.copy)).state <;> rw [e] at h st <;> simp at h st
      simp only [State.openCheck, format, faultless, refuses, Bool.not_true, Bool.not_false, Bool.false_eq_true, if_false, if_true]
    · refine ⟨.range, 0, ?_, rfl⟩
      have faultless : (s.bay (Copy.bay o.copy)).state ≠ .faulted := fun e => by rw [e] at st; simp at st
      simp only [State.openCheck, format, faultless, BayState.accepts_iff.2 st, long, Bool.not_true, Bool.false_eq_true, if_false,
        if_true]
    · exact ⟨.tableFull, 0, State.openCheck_full format st fits (State.freeEntry_eq_none full), rfl⟩
  refine ⟨_, State.exec_loanOpen_handed handed, ?_⟩
  rw [State.openLoan_error (touched.openCheck o.copy |>.trans check)]
  exact State.handled_reply cell r d

/-- Settles O27: what is in the way decides, and the wait limit. -/
theorem loanOpenWaitsOrConflicts : Obligations.LoanOpenWaitsOrConflicts := by
  intro s cell o c n m handed copy format accepts fits bound free lowest way
  subst copy
  obtain ⟨inWay, lowestWay⟩ := way
  have touched := s.validated_touches cell
  have check : (s.validated cell).openCheck o.copy = .ok n := by
    rw [touched.openCheck]; exact State.openCheck_entry format accepts fits (State.freeEntry_eq_some bound free lowest)
  have member : m ∈ s.inTheWay (Copy.newLoan o.copy) := State.mem_inTheWay.2 inWay
  have blocked : (s.validated cell).inTheWay (Copy.newLoan o.copy) ≠ [] := by
    rw [touched.inTheWay]; exact List.ne_nil_of_mem member
  refine ⟨fun limit => ⟨_, State.exec_loanOpen_handed handed, ?_⟩, fun limit => ⟨_, State.exec_loanOpen_handed handed, ?_⟩⟩
  · have first : least ((s.validated cell).inTheWay (Copy.newLoan o.copy)) = m := by
      rw [touched.inTheWay, least, List.min?_eq_some_iff.2 ⟨member, fun j hj => lowestWay j (State.mem_inTheWay.1 hj)⟩]; rfl
    rw [State.openLoan_conflicts check blocked limit, first]
    exact State.handled_reply cell .conflict m
  · rw [State.openLoan_waits check blocked limit]
    obtain ⟨u, hu⟩ : ∃ u, u = ((s.validated cell).setLoan n { Copy.newLoan o.copy with
        state := .waiting, wait := Copy.waitLimit o.copy, openingCell := some cell.val }).setWaiting (Copy.bay o.copy)
          ((s.validated cell).waiting (Copy.bay o.copy) ++ [n]) := ⟨_, rfl⟩
    have placed : Touches [.loans] (s.validated cell) u := by
      rw [hu]; exact (State.setLoan_touches ..).trans (State.setWaiting_touches ..)
    have after : Touches [.answers, .ports] u (u.putAnswer (.interim cell n)).beginRecords :=
      ((State.putAnswer_touches ..).mono rfl).trans ((State.beginRecords_touches _).mono rfl)
    rw [← hu]
    refine ⟨?_, fun j hj => ?_, ?_, fun b hb => ?_, ?_, ?_⟩
    · rw [after.loan, hu, State.setWaiting_loan, State.loan_setLoan, if_pos rfl]
    · rw [after.loan, hu, State.setWaiting_loan, State.loan_setLoan, if_neg hj, touched.loan]
    · rw [after.waiting, hu, State.waiting_setWaiting, if_pos rfl, touched.waiting]
    · rw [after.waiting, hu, State.waiting_setWaiting, if_neg hb]; rfl
    · exact (placed.answered_nil.trans (u.putAnswer_answered _) placed.serving).handling
    · exact Touches.handling ((State.putAnswer_touches ..).after rfl (placed.mono rfl))

/-! ## The entry that an order names -/

section
variable {s u : State} {n node : Nat} {ps : List Part}

theorem State.loanOf_none (h : 512 ≤ n ∨ (s.loan n).state = .free ∨ (s.loan n).node ≠ node) : s.loanOf n node = none := by
  rw [State.loanOf, if_neg]
  rintro ⟨bound, used, own⟩
  rcases h with h | h | h
  · exact absurd bound (by simpa [Config.numLoans] using h)
  · exact used h
  · exact h own

theorem State.loanOf_own (bound : n < 512) (used : (s.loan n).state ≠ .free) (own : (s.loan n).node = node) :
    s.loanOf n node = some (s.loan n) := by
  rw [State.loanOf, if_pos ⟨bound, used, own⟩]

theorem Touches.loanOf (h : Touches ps s u) (n node : Nat) (w : Part.loans ∉ ps := by decide) : u.loanOf n node = s.loanOf n node := by
  simp only [State.loanOf, h.loan n w]

/-! ## LOAN_RENEW -/

variable {cell : Nat} {c : Copy}

theorem State.renewLoan_refused
    (h : 512 ≤ c.loan ∨ (s.loan c.loan).state ∈ [LoanState.free, .waiting, .returning] ∨ (s.loan c.loan).node ≠ c.node) :
    s.renewLoan cell c = s.reply cell .noLoan c.loan := by
  unfold State.renewLoan
  split
  · rfl
  · next l own =>
    obtain ⟨bound, used, node, rfl⟩ := State.loanOf_some own
    have state : (s.loan c.loan).state = .waiting ∨ (s.loan c.loan).state = .returning := by
      rcases h with h | h | h
      · omega
      · simpa [used] using h
      · exact absurd node h
    rcases state with st | st <;> simp only [st]

section
variable (bound : c.loan < 512) (own : (s.loan c.loan).node = c.node)
include bound own

theorem State.renewLoan_held (st : (s.loan c.loan).state = .held) :
    s.renewLoan cell c = (s.setLoan c.loan { s.loan c.loan with term := c.term }).reply cell .ok c.term := by
  simp only [State.renewLoan, State.loanOf_own bound (by rw [st]; decide) own, st]

theorem State.renewLoan_late (st : (s.loan c.loan).state ∈ [LoanState.lapsing, .lapsed]) :
    s.renewLoan cell c = s.reply cell .tooLate (s.loan c.loan).term := by
  have state : (s.loan c.loan).state = .lapsing ∨ (s.loan c.loan).state = .lapsed := by simpa using st
  rcases state with st | st <;> simp only [State.renewLoan, State.loanOf_own bound (by rw [st]; decide) own, st]

theorem State.renewLoan_faulted (st : (s.loan c.loan).state = .faulted) :
    s.renewLoan cell c = s.reply cell .diskFault (s.loan c.loan).term := by
  simp only [State.renewLoan, State.loanOf_own bound (by rw [st]; decide) own, st]

end

/-- A LOAN_RENEW acts on no entry but the one it names, and on no waiting list (R17). -/
theorem State.renewLoan_others (s : State) (cell : Nat) (c : Copy) :
    s.otherLoans (s.renewLoan cell c) c.loan ∧ (s.renewLoan cell c).loans.waiting = s.loans.waiting := by
  have replied : ∀ r d, s.otherLoans (s.reply cell r d) c.loan ∧ (s.reply cell r d).loans.waiting = s.loans.waiting :=
    fun r d => ⟨fun m _ => s.reply_loan m cell r d, rfl⟩
  unfold State.renewLoan
  split
  · exact replied _ _
  · split
    · exact ⟨fun m hm => by rw [State.reply_loan, State.loan_setLoan, if_neg hm], rfl⟩
    all_goals exact replied _ _

end

/-- Settles O28: the table of R17, a row for each state of the entry. -/
theorem loanRenewAnswersByTheEntry : Obligations.LoanRenewAnswersByTheEntry := by
  intro s cell o c handed copy
  subst copy
  have touched := s.validated_touches cell
  have others := (s.validated cell).renewLoan_others cell o.copy
  have after := State.beginRecords_touches ((s.validated cell).renewLoan cell o.copy)
  have replied : ∀ r d, (s.validated cell).renewLoan cell o.copy = (s.validated cell).reply cell r d →
      ((s.validated cell).renewLoan cell o.copy).beginRecords.loans = s.loans
        ∧ s.answered ((s.validated cell).renewLoan cell o.copy).beginRecords [plain cell r d] := fun r d e => by
    rw [e]
    obtain ⟨answered, kept⟩ := s.handled_reply cell r d
    exact ⟨kept.loans, answered⟩
  refine ⟨((s.validated cell).renewLoan cell o.copy).beginRecords, (exec_loanRenew cell s).trans (State.handling_of_handed handed), fun m hm => ?_, ?_,
    fun refused => ?_, fun bound own => ⟨fun st => ?_, fun st => ?_, fun st => ?_⟩, ?_⟩
  · rw [after.loan, others.1 m hm, touched.loan]
  · rw [after.loans, others.2, touched.loans]
  · exact replied _ _ (State.renewLoan_refused refused)
  · have held : (s.validated cell).renewLoan cell o.copy = _ := State.renewLoan_held bound own st
    rw [held]
    refine ⟨?_, (((State.setLoan_touches _ _ _).answered_nil).trans (State.reply_answered ..) rfl).handling⟩
    rw [(State.beginRecords_touches _).loan, State.reply_loan, State.loan_setLoan, if_pos rfl]; rfl
  · exact replied _ _ (State.renewLoan_late bound own st)
  · exact replied _ _ (State.renewLoan_faulted bound own st)
  · exact Touches.handling ((State.renewLoan_touches ..).mono rfl)

/-! ## LOAN_QUERY -/

theorem Loan.snapshot_length (l : Loan) : l.snapshot.length = 48 := by
  simp [Loan.snapshot]

theorem Loan.snapshot_laidOut (l : Loan) : laidOut 32 l.snapshot
    [(32, 1, l.state.code), (33, 1, l.node), (34, 1, l.group), (35, 1, l.bay), (36, 4, l.first), (40, 4, l.count), (44, 1, l.mode.code),
     (45, 1, (if l.openingCell = none then 0 else 1) + (if l.returnCell = none then 0 else 2)
        + (if l.append.map (fun r => r.broken) = some true then 4 else 0)),
     (46, 2, l.term), (48, 2, l.wait), (50, 2, l.inFlight), (52, 2, l.openingCell.getD 0), (54, 2, l.returnCell.getD 0),
     (56, 2, (l.append.map (fun r => r.frameBlocks)).getD 0), (58, 2, (l.append.map (fun r => r.blocksIntoFrame)).getD 0),
     (60, 4, (l.append.map (fun r => r.framesDone)).getD 0), (64, 4, (l.append.map (fun r => r.reserved)).getD 0), (68, 12, 0)] := by
  have flags : flagNat l.openingCell.isSome + 2 * flagNat l.returnCell.isSome
        + 4 * flagNat ((l.append.map (fun r => r.broken)).getD false)
      = (if l.openingCell = none then 0 else 1) + (if l.returnCell = none then 0 else 2)
        + (if l.append.map (fun r => r.broken) = some true then 4 else 0) := by
    generalize l.append.map (fun r => r.broken) = broken
    rcases l.openingCell with - | a <;> rcases l.returnCell with - | b <;> rcases broken with - | - | - <;> rfl
  unfold laidOut Loan.snapshot
  rw [flags]
  simp only [List.append_assoc, List.forall_mem_cons, List.not_mem_nil, IsEmpty.forall_iff, implies_true, and_true]
  and_intros
  all_goals simp [fieldAt_behind, fieldAt_here, fieldAt_last, cellNat]

/-- Settles O30: the answer is decided by whether the entry is in use; the snapshot is read field by field. -/
theorem loanQueryIsAnswered : Obligations.LoanQueryIsAnswered := by
  refine ⟨rfl, rfl, fun l => ⟨l.snapshot_length, l.snapshot_laidOut⟩, fun s cell o c handed copy => ?_⟩
  subst copy
  have answered : ∀ w, (s.validated cell).queryLoan cell o.copy = (s.validated cell).putAnswer w →
      s.answered ((s.validated cell).queryLoan cell o.copy).beginRecords [w] := fun w e => by
    rw [e]; exact ((s.validated cell).putAnswer_answered w).handling
  refine ⟨((s.validated cell).queryLoan cell o.copy).beginRecords, (exec_loanQuery cell s).trans (State.handling_of_handed handed),
    Touches.handling ((State.queryLoan_touches ..).mono rfl), fun unknown => answered _ ?_, fun bound used => answered _ ?_⟩
  · have known : (decide (Copy.loan o.copy < Config.numLoans) && ((s.validated cell).loan (Copy.loan o.copy)).state != .free) = false := by
      rw [Bool.and_eq_false_iff, decide_eq_false_iff_not, bne_eq_false_iff_eq]
      exact unknown.imp (fun h => Nat.not_lt.2 h) id
    simp only [State.queryLoan, known]; rfl
  · have known : (decide (Copy.loan o.copy < Config.numLoans) && ((s.validated cell).loan (Copy.loan o.copy)).state != .free) = true := by
      rw [Bool.and_eq_true, decide_eq_true_eq, bne_iff_ne]
      exact ⟨bound, used⟩
    simp only [State.queryLoan, known]; rfl

/-! ## The format check of a transfer (R34) -/

/-- The first failure of a list of checks, a check at a time. -/
theorem firstFailure_cons (n : Nat) (b : Bool) (checks : List (Nat × Bool)) :
    firstFailure ((n, b) :: checks) = if b then firstFailure checks else some n := by
  cases b <;> rfl

/-- A check that passes where Q fails, before checks that agree once it has passed. -/
theorem check_then {α : Type} {b : Bool} {Q : Prop} [Decidable Q] {x y z : α} (h : b = false ↔ Q) (rest : b = true → x = y) :
    (if b then x else z) = if Q then z else y := by
  cases b
  · rw [if_neg Bool.false_ne_true, if_pos (h.1 rfl)]
  · rw [if_pos rfl, if_neg (fun q => Bool.noConfusion (h.2 q)), rest rfl]

section
variable (k : OrderKind) (c : Copy)

theorem OrderKind.isService_iff : k.isService = true ↔ k ∈ [OrderKind.serviceRead, .serviceWrite] := by
  simp [OrderKind.isService]

theorem Copy.segmentsOk_iff (few : c.segmentCount ≤ 6) : c.segments.all segmentOk = true ↔
    ∀ i, i < c.field 20 1 → c.field (40 + 12 * i) 4 ≠ 0 ∧ c.field (40 + 12 * i) 4 % 512 = 0
      ∧ c.field (32 + 12 * i) 8 + c.field (40 + 12 * i) 4 ≤ 18446744073709551616 := by
  have count : min c.segmentCount Config.maxSegments = c.field 20 1 := Nat.min_eq_left few
  simp only [Copy.segments, count, List.all_map, List.all_eq_true, List.mem_range, Function.comp_apply, segmentOk, Bool.and_eq_true,
    beq_iff_eq, bne_iff_ne, decide_eq_true_eq, Copy.segmentAddress, Copy.segmentLength, Config.addressSpace]
  refine forall_congr' fun i => imp_congr_right fun _ => ?_
  rw [and_right_comm, and_comm (a := _ % 512 = 0), and_comm (a := _ ∧ _) (b := _ ≠ 0)]

theorem Copy.segmentLengths (few : c.segmentCount ≤ 6) :
    c.segments.map Prod.snd = (List.range (c.field 20 1)).map (fun i => c.field (40 + 12 * i) 4) := by
  have count : min c.segmentCount Config.maxSegments = c.field 20 1 := Nat.min_eq_left few
  rw [Copy.segments, count, List.map_map]; rfl

/-- Steps 2 to 8 of Table 2-2, in order (R34, R108). -/
theorem Copy.transferFailure_eq : c.transferFailure k =
    if ¬(if k ∈ [OrderKind.serviceRead, .serviceWrite] then c.node = 0 else 1 ≤ c.node ∧ c.node ≤ 250) then some 2
    else if ¬(1 ≤ c.count ∧ c.count ≤ 256) then some 3
    else if ¬(1 ≤ c.field 20 1 ∧ c.field 20 1 ≤ 6) then some 4
    else if ¬(∀ i, i < c.field 20 1 → c.field (40 + 12 * i) 4 ≠ 0 ∧ c.field (40 + 12 * i) 4 % 512 = 0
        ∧ c.field (32 + 12 * i) 8 + c.field (40 + 12 * i) 4 ≤ 18446744073709551616) then some 5
    else if ¬(((List.range (c.field 20 1)).map (fun i => c.field (40 + 12 * i) 4)).sum = c.count * 4096) then some 6
    else if k ∈ [OrderKind.serviceRead, .serviceWrite] ∧ 16 ≤ c.group then some 7
    else if k ∈ [OrderKind.serviceRead, .serviceWrite] ∧ 24 ≤ c.bay then some 8
    else none := by
  have service {p : Bool} {Q : Prop} (h : p = false ↔ Q) : (!k.isService || p) = false ↔ k ∈ [OrderKind.serviceRead, .serviceWrite] ∧ Q := by
    rw [Bool.or_eq_false_iff, Bool.not_eq_false', OrderKind.isService_iff, h]
  simp only [Copy.transferFailure, firstFailure_cons]
  refine check_then ?_ fun _ => check_then ?_ fun _ => check_then ?_ fun few => ?_
  · by_cases h : k ∈ [OrderKind.serviceRead, .serviceWrite]
    · simp only [(OrderKind.isService_iff k).2 h, h, if_true, beq_eq_false_iff_ne, ne_eq]
    · have other : k.isService = false := by rw [← Bool.not_eq_true, OrderKind.isService_iff]; exact h
      rw [other, if_neg h, ← Bool.not_eq_true]; simp
  · rw [← Bool.not_eq_true]; simp
  · rw [← Bool.not_eq_true, Bool.and_eq_true, decide_eq_true_eq, decide_eq_true_eq]; rfl
  · have few : c.segmentCount ≤ 6 := by
      rw [Bool.and_eq_true, decide_eq_true_eq, decide_eq_true_eq] at few; exact few.2
    refine check_then ?_ fun _ => check_then ?_ fun _ => check_then ?_ fun _ => check_then ?_ fun _ => rfl
    · rw [← Bool.not_eq_true, c.segmentsOk_iff few]
    · rw [← Bool.not_eq_true, beq_iff_eq, c.segmentLengths few]
    · exact service (by rw [decide_eq_false_iff_not, Nat.not_lt])
    · exact service (by rw [decide_eq_false_iff_not, Nat.not_lt])

end

/-! ## Transfers that are refused -/

section
variable {s u : State} {k : OrderKind} {c : Copy} {o : HeldOrder} {ps : List Part}

/-- The result and detail of the first check of a transfer that fails (R34, R25, R36). -/
def State.refusal (s : State) (k : OrderKind) (c : Copy) : Option (Result × Nat) :=
  match c.transferFailure k with
  | some d => some (.format, d)
  | none => if k.isService then s.bayCheck c else match s.loanCheck k c with
    | .error e => some e
    | .ok _ => none

theorem Touches.bayCheck (h : Touches ps s u) (c : Copy) (w : Part.records ∉ ps := by decide) : u.bayCheck c = s.bayCheck c := by
  simp only [State.bayCheck, h.bay c.bay w]

theorem Touches.loanCheck (h : Touches ps s u) (k : OrderKind) (c : Copy) (w : Part.loans ∉ ps := by decide) :
    u.loanCheck k c = s.loanCheck k c := by
  simp only [State.loanCheck, h.loanOf c.loan c.node w]

theorem Touches.refusal (h : Touches ps s u) (k : OrderKind) (c : Copy) (w : Part.loans ∉ ps := by decide)
    (w' : Part.records ∉ ps := by decide) : u.refusal k c = s.refusal k c := by
  simp only [State.refusal, h.bayCheck c w', h.loanCheck k c w]

theorem State.refusal_format {d : Nat} (h : c.transferFailure k = some d) : s.refusal k c = some (.format, d) := by
  simp only [State.refusal, h]

theorem State.refusal_loan (format : c.transferFailure k = none) (loan : k.isService = false) {e : Result × Nat}
    (h : s.loanCheck k c = .error e) : s.refusal k c = some e := by
  simp only [State.refusal, format, loan, h, Bool.false_eq_true, if_false]

theorem State.refusal_bay (format : c.transferFailure k = none) (service : k.isService = true) : s.refusal k c = s.bayCheck c := by
  simp only [State.refusal, format, service, if_true]

/-- A READ or WRITE is refused with a reply and nothing else; so are the other kinds of transfer. -/
theorem State.loanTransfer_refused {cell : Nat} {r : Result} {d : Nat} (loan : k.isService = false) (h : s.refusal k c = some (r, d)) :
    s.loanTransfer k cell c = s.reply cell r d := by
  cases format : c.transferFailure k with
  | some x =>
    obtain ⟨rfl, rfl⟩ : Result.format = r ∧ x = d := by simpa using (State.refusal_format format).symm.trans h
    simp only [State.loanTransfer, format]
  | none =>
    cases check : s.loanCheck k c with
    | error e =>
      obtain rfl : e = (r, d) := Option.some.inj ((State.refusal_loan format loan check).symm.trans h)
      simp only [State.loanTransfer, format, check]
    | ok l => simp [State.refusal, format, loan, check] at h

theorem State.appendOrder_refused {cell : Nat} {r : Result} {d : Nat} (h : s.refusal .appendWrite c = some (r, d)) :
    s.appendOrder cell c = s.reply cell r d := by
  have loan : OrderKind.isService .appendWrite = false := rfl
  cases format : c.transferFailure .appendWrite with
  | some x =>
    obtain ⟨rfl, rfl⟩ : Result.format = r ∧ x = d := by simpa using (State.refusal_format format).symm.trans h
    simp only [State.appendOrder, format]
  | none =>
    cases check : s.loanCheck .appendWrite c with
    | error e =>
      obtain rfl : e = (r, d) := Option.some.inj ((State.refusal_loan format loan check).symm.trans h)
      simp only [State.appendOrder, format, check]
    | ok l => simp [State.refusal, format, loan, check] at h

theorem State.serviceTransfer_refused {cell : Nat} {r : Result} {d : Nat} (service : k.isService = true)
    (h : s.refusal k c = some (r, d)) : s.serviceTransfer k cell c = s.reply cell r d := by
  cases format : c.transferFailure k with
  | some x =>
    obtain ⟨rfl, rfl⟩ : Result.format = r ∧ x = d := by simpa using (State.refusal_format format).symm.trans h
    simp only [State.serviceTransfer, format]
  | none =>
    rw [State.refusal_bay format service] at h
    simp only [State.serviceTransfer, format, h]

/-- A transfer that is refused is answered, and nothing else happens. -/
theorem exec_transfer_refused {cell : Fin 1024} {r : Result} {d : Nat}
    (kind : k ∈ [OrderKind.read, .write, .appendWrite, .serviceRead, .serviceWrite]) (handed : s.handed k cell = some o)
    (h : s.refusal k o.copy = some (r, d)) :
    exec (k.command cell) s = .next ((s.validated cell).reply cell r d).beginRecords := by
  have refused := ((s.validated_touches cell).refusal k o.copy).trans h
  simp only [List.mem_cons, List.not_mem_nil, or_false] at kind
  rcases kind with rfl | rfl | rfl | rfl | rfl
  · refine (exec_read cell s).trans ((State.handling_of_handed handed).trans ?_)
    rw [State.loanTransfer_refused rfl refused]
  · refine (exec_write cell s).trans ((State.handling_of_handed handed).trans ?_)
    rw [State.loanTransfer_refused rfl refused]
  · refine (exec_appendWrite cell s).trans ((State.handling_of_handed handed).trans ?_)
    rw [State.appendOrder_refused refused]
  · refine (exec_serviceRead cell s).trans ((State.handling_of_handed handed).trans ?_)
    rw [State.serviceTransfer_refused rfl refused]
  · refine (exec_serviceWrite cell s).trans ((State.handling_of_handed handed).trans ?_)
    rw [State.serviceTransfer_refused rfl refused]

/-! ### The loan check (R25) and the bay check (R36), step by step -/

theorem State.loanCheck_noLoan
    (h : 512 ≤ c.loan ∨ (s.loan c.loan).state ∈ [LoanState.free, .waiting, .returning] ∨ (s.loan c.loan).node ≠ c.node) :
    s.loanCheck k c = .error (.noLoan, c.loan) := by
  unfold State.loanCheck
  split
  · rfl
  · next l own =>
    obtain ⟨bound, used, node, rfl⟩ := State.loanOf_some own
    have state : (s.loan c.loan).state = .waiting ∨ (s.loan c.loan).state = .returning := by
      rcases h with h | h | h
      · omega
      · simpa [used] using h
      · exact absurd node h
    rcases state with st | st <;> simp only [st]

section
variable (bound : c.loan < 512) (own : (s.loan c.loan).node = c.node)
include bound own

theorem State.loanCheck_lapsed (st : (s.loan c.loan).state ∈ [LoanState.lapsing, .lapsed]) :
    s.loanCheck k c = .error (.lapsed, c.loan) := by
  have state : (s.loan c.loan).state = .lapsing ∨ (s.loan c.loan).state = .lapsed := by simpa using st
  rcases state with st | st <;> simp only [State.loanCheck, State.loanOf_own bound (by rw [st]; decide) own, st]

theorem State.loanCheck_faulted (st : (s.loan c.loan).state = .faulted) :
    s.loanCheck k c = .error (.diskFault, (s.loan c.loan).faultCause.code) := by
  simp only [State.loanCheck, State.loanOf_own bound (by rw [st]; decide) own, st]

theorem State.loanCheck_mode (st : (s.loan c.loan).state = .held) (mode : (s.loan c.loan).mode.permits k = false) :
    s.loanCheck k c = .error (.mode, c.loan) := by
  simp only [State.loanCheck, State.loanOf_own bound (by rw [st]; decide) own, st, mode, Bool.not_false, if_true]

theorem State.loanCheck_outOfLoan (st : (s.loan c.loan).state = .held) (mode : (s.loan c.loan).mode.permits k = true)
    (kind : k ≠ .appendWrite)
    (out : ¬((s.loan c.loan).first ≤ c.first ∧ c.first + c.count ≤ (s.loan c.loan).first + (s.loan c.loan).count)) :
    s.loanCheck k c = .error (.outOfLoan, c.loan) := by
  have lies : (k != .appendWrite && !liesWithin c.first c.count (s.loan c.loan).first (s.loan c.loan).count) = true := by
    rw [Bool.and_eq_true, bne_iff_ne, Bool.not_eq_true', ← Bool.not_eq_true, liesWithin, Bool.and_eq_true, decide_eq_true_eq,
      decide_eq_true_eq]
    exact ⟨kind, out⟩
  simp only [State.loanCheck, State.loanOf_own bound (by rw [st]; decide) own, st, mode, lies, Bool.not_true, Bool.false_eq_true,
    if_false, if_true]

end

theorem State.bayCheck_faulted (st : (s.bay c.bay).state = .faulted) :
    s.bayCheck c = some (.diskFault, (s.bay c.bay).lastFault.code) := by
  simp only [State.bayCheck, st, if_true]

theorem State.bayCheck_unavailable (st : (s.bay c.bay).state ∈ [BayState.empty, .present, .admitting, .retiring]) :
    s.bayCheck c = some (.diskUnavailable, (s.bay c.bay).state.code) := by
  simp only [List.mem_cons, List.not_mem_nil, or_false] at st
  rcases st with st | st | st | st <;> simp [State.bayCheck, st, BayState.accepts]

theorem State.bayCheck_range (st : (s.bay c.bay).state.accepts = true) (long : (s.bay c.bay).capacity < c.first + c.count) :
    s.bayCheck c = some (.range, (s.bay c.bay).capacity) := by
  have faultless : (s.bay c.bay).state ≠ .faulted := fun e => by rw [e] at st; cases st
  simp only [State.bayCheck, faultless, st, long, Bool.not_true, Bool.false_eq_true, if_false, if_true]

end

/-- Settles O31: the format check step by step, and each case as the first check that fails. -/
theorem transfersAreRefused : Obligations.TransfersAreRefused := by
  refine ⟨Copy.transferFailure_eq, fun k s cell o c answer kind handed copy fails => ?_⟩
  subst copy
  obtain ⟨r, d, refused, rfl⟩ : ∃ r d, s.refusal k o.copy = some (r, d) ∧ answer = plain cell r d := by
    rcases fails with ⟨d, format, rfl⟩ | ⟨format, loan, none, rfl⟩ | ⟨format, loan, bound, own, entry⟩ | ⟨format, service, bay⟩
    · exact ⟨_, _, State.refusal_format format, rfl⟩
    · exact ⟨_, _, State.refusal_loan format loan (State.loanCheck_noLoan none), rfl⟩
    · rcases entry with ⟨st, rfl⟩ | ⟨st, rfl⟩ | ⟨st, mode, rfl⟩ | ⟨st, mode, append, out, rfl⟩
      · exact ⟨_, _, State.refusal_loan format loan (State.loanCheck_lapsed bound own st), rfl⟩
      · exact ⟨_, _, State.refusal_loan format loan (State.loanCheck_faulted bound own st), rfl⟩
      · exact ⟨_, _, State.refusal_loan format loan (State.loanCheck_mode bound own st mode), rfl⟩
      · exact ⟨_, _, State.refusal_loan format loan (State.loanCheck_outOfLoan bound own st mode append out), rfl⟩
    · rw [State.refusal_bay format service]
      rcases bay with ⟨st, rfl⟩ | ⟨st, rfl⟩ | ⟨st, long, rfl⟩
      · exact ⟨_, _, State.bayCheck_faulted st, rfl⟩
      · exact ⟨_, _, State.bayCheck_unavailable st, rfl⟩
      · exact ⟨_, _, State.bayCheck_range st long, rfl⟩
  exact ⟨_, exec_transfer_refused kind handed refused, State.handled_reply cell r d⟩

/-! ## The completion test of a RETIRING bay (R135) -/

section
variable {s u v w t : State} {n b : Nat} {ps : List Part}

/-- No loan of the bay is in use exactly when every entry of it is FREE; the table lists no entry twice. -/
theorem State.anyLoan_eq_false (ordered : Table.ordered s.loans.table) (h : ∀ m, (s.loan m).bay = b → (s.loan m).state = .free) :
    s.anyLoan b = false := by
  rw [← Bool.not_eq_true, State.anyLoan,
    Table.any_iff (d := .free) ordered (fun l => l.bay == b && l.state != .free) (by simp [Loan.free])]
  rintro ⟨m, used⟩
  rw [Bool.and_eq_true, beq_iff_eq, bne_iff_ne] at used
  exact used.2 (h m used.1)

theorem State.send_standby_sent (s : State) (b : Nat) : s.standbySent (s.send b (.control .standby)) b := by
  unfold State.standbySent State.send State.readyHigh
  cases ready : (s.lines b).ready <;>
    simp [Command.control, CommandKind.waitsForReady, Bay.firstSend]

theorem State.standbySent.congr (h : s.standbySent u b) (bay : s.bay b = v.bay b) (lines : s.lines b = v.lines b)
    (after : t.bay b = u.bay b) : v.standbySent t b := by
  unfold State.standbySent at h ⊢
  rwa [after, ← bay, ← lines]

/-- A RETIRING bay without loans and without work has its final STANDBY sent. -/
theorem State.completionTest_sends (retiring : (s.bay b).state = .retiring) (loans : s.anyLoan b = false) (work : s.hasWork b = false)
    (fresh : ∀ d ∈ (s.bay b).outstanding ++ (s.bay b).sendList, d.kind ≠ .standby) :
    s.completionTest b = s.send b (.control .standby) := by
  have none : (s.bay b).hasStandby = false := by
    simp only [Bay.hasStandby, Bool.or_eq_false_iff, List.any_eq_false, beq_iff_eq]
    exact ⟨fun d hd => fresh d (List.mem_append_left _ hd), fun d hd => fresh d (List.mem_append_right _ hd)⟩
  rw [State.completionTest, retiring, loans, work, none]; rfl

/-- The completion test of a bay that was RETIRING without another loan than one that is FREE by now (R135). -/
theorem State.retiresWithout.standbySent (h : s.retiresWithout b n) (k : Touches ps s v)
    (table : Table.ordered v.loans.table) (own : (v.loan n).state = .free)
    (others : ∀ m, m ≠ n → (v.loan m).bay = b → v.loan m = s.loan m)
    (w₁ : Part.records ∉ ps := by decide) (w₂ : Part.lines ∉ ps := by decide) (w₃ : Part.fifos ∉ ps := by decide)
    (w₄ : Part.arbiters ∉ ps := by decide) (w₅ : Part.staging ∉ ps := by decide) :
    s.standbySent (v.completionTest b).beginRecords b := by
  obtain ⟨retiring, free, work, fresh⟩ := h
  have bay := k.bay b w₁
  have none : v.anyLoan b = false := State.anyLoan_eq_false table fun m hm => by
    by_cases e : m = n
    · rw [e]; exact own
    · have same := others m e hm
      rw [same] at hm ⊢; exact free m e hm
  rw [State.completionTest_sends (by rw [bay]; exact retiring) none (by rw [k.hasWork b w₃ w₄ w₅]; exact work) (by rw [bay]; exact fresh)]
  exact (v.send_standby_sent b).congr bay (k.lines b w₂) (State.beginRecords_touches _ |>.bay b)

/-! ## A loan that is freed, and the examination behind it -/

theorem State.freeLoan_loans (s : State) (n : Nat) :
    (s.freeLoan n).loans = ((s.setLoan n .free).setWaiting (s.loan n).bay ((s.waiting (s.loan n).bay).filter (fun m => m != n))).loans :=
  (State.dropLapse_touches ..).loans

/-- The loans of a freed entry depend on the loans before it alone. -/
theorem State.freeLoan_loans_congr (h : u.loans = s.loans) : (u.freeLoan n).loans = (s.freeLoan n).loans := by
  simp only [State.freeLoan_loans, State.setWaiting, State.setLoan, State.waiting, State.loan, h]

/-- Loan n was freed and the waiting list of its bay examined: w is the state in which the examination is made, as far as loans go. -/
structure State.freedAndExamined (s w t : State) (n : Nat) : Prop where
  before : w.loans = (s.freeLoan n).loans
  after : t.loans = (w.examine (s.loan n).bay).loans

namespace State.freedAndExamined

variable (h : s.freedAndExamined w t n)
include h

theorem loan_before (m : Nat) : w.loan m = if m = n then .free else s.loan m := by
  rw [← s.freeLoan_loan m n, State.loan_of_loans h.before]

theorem waiting_before (c : Nat) : w.waiting c = (s.freeLoan n).waiting c := State.waiting_of_loans h.before c

theorem out : n ∉ w.grantedOn (s.loan n).bay := fun g => by
  have mem := (w.grantedOn_sublist _).subset g
  rw [h.waiting_before, State.freeLoan_waiting, if_pos rfl] at mem
  simp at mem

theorem loan_after (m : Nat) :
    t.loan m = if m ∈ w.grantedOn (s.loan n).bay then (w.loan m).granted else w.loan m := by
  rw [State.loan_of_loans h.after, State.examine_loan]

theorem freed : t.loan n = .free := by
  rw [h.loan_after, if_neg h.out, h.loan_before, if_pos rfl]

theorem others (m : Nat) (ne : m ≠ n) (stays : m ∉ w.grantedOn (s.loan n).bay) : t.loan m = s.loan m := by
  rw [h.loan_after, if_neg stays, h.loan_before, if_neg ne]

theorem left : n ∉ t.waiting (s.loan n).bay := fun mem => by
  rw [State.waiting_of_loans h.after] at mem
  have mem := (w.examine_waiting_sublist _ _).subset mem
  rw [h.waiting_before, State.freeLoan_waiting, if_pos rfl] at mem
  simp at mem

/-- The loans granted are answered in their opening cells as they stood at first. -/
theorem answers : w.grantAnswers (w.grantedOn (s.loan n).bay) = s.grantAnswers (w.grantedOn (s.loan n).bay) := by
  unfold State.grantAnswers
  refine List.filterMap_congr fun m hm => ?_
  rw [h.loan_before, if_neg (fun e : m = n => h.out (e ▸ hm))]

theorem examined (listed : s.waitingListed) : (s.freeLoan n).examined t (s.loan n).bay (w.grantedOn (s.loan n).bay) := by
  have same : ∀ m, w.loan m = (s.freeLoan n).loan m := fun m => State.loan_of_loans h.before m
  have form := (listed.freeLoan n) (s.loan n).bay
  rw [← h.waiting_before] at form
  refine State.examined_of_examine form.1 (fun m hm => by rw [same]; exact (form.2 m hm).1) (h.waiting_before _) (fun m _ => ?_)
    (fun m _ j _ => ?_) (State.waiting_of_loans h.after _) (fun m _ => State.loan_of_loans h.after m)
  · rw [same]
  · rw [same, same]

/-- Where the bay retires without another loan, nothing waits for the examination. -/
theorem nothing_waits (listed : s.waitingListed) (retires : s.retiresWithout (s.loan n).bay n) : w.waiting (s.loan n).bay = [] := by
  rw [h.waiting_before, State.freeLoan_waiting, if_pos rfl, List.filter_eq_nil_iff]
  intro m hm stays
  have ne : m ≠ n := by simpa using stays
  have free := retires.2.1 m ne (listed.bay hm)
  rw [listed.state hm] at free; cases free

theorem standbySent (k : Touches ps s t) (listed : s.waitingListed) (ordered : Table.ordered s.loans.table)
    (retires : s.retiresWithout (s.loan n).bay n)
    (w₁ : Part.records ∉ ps := by decide) (w₂ : Part.lines ∉ ps := by decide) (w₃ : Part.fifos ∉ ps := by decide)
    (w₄ : Part.arbiters ∉ ps := by decide) (w₅ : Part.staging ∉ ps := by decide) :
    s.standbySent (t.completionTest (s.loan n).bay).beginRecords (s.loan n).bay := by
  have none := h.nothing_waits listed retires
  have granted : w.grantedOn (s.loan n).bay = [] := List.sublist_nil.1 (none ▸ w.grantedOn_sublist (s.loan n).bay)
  refine retires.standbySent k ?_ (by rw [h.freed]; rfl) (fun m ne _ => h.others m ne (by rw [granted]; exact List.not_mem_nil))
    w₁ w₂ w₃ w₄ w₅
  have still : (w.examine (s.loan n).bay).loans.table = w.loans.table := by rw [State.examine, none]; rfl
  rw [h.after, still, h.before, State.freeLoan_loans]
  exact Table.ordered_set (d := Loan.free) (n := n) (v := Loan.free) ordered

end State.freedAndExamined

end

/-! ## LOAN_RETURN -/

section
variable {s : State} {cell : Nat} {c : Copy}

theorem State.returnLoan_refused (h : 512 ≤ c.loan ∨ (s.loan c.loan).state = .free ∨ (s.loan c.loan).state = .returning
      ∨ (s.loan c.loan).node ≠ c.node ∨ (s.loan c.loan).returnCell ≠ none) :
    s.returnLoan cell c = s.reply cell .noLoan c.loan := by
  unfold State.returnLoan
  dsimp only
  split
  · rfl
  · next l own =>
    obtain ⟨bound, used, node, rfl⟩ := State.loanOf_some own
    split
    · rfl
    · next absent =>
      have returning : (s.loan c.loan).state = .returning := by
        rcases h with h | h | h | h | h
        · omega
        · exact absurd h used
        · exact h
        · exact absurd node h
        · exact absurd (Option.isSome_iff_ne_none.2 h) absent
      simp only [returning]

section
variable (bound : c.loan < 512) (own : (s.loan c.loan).node = c.node) (absent : (s.loan c.loan).returnCell = none)
include bound own absent

theorem State.returnLoan_held (st : (s.loan c.loan).state = .held) (idle : (s.loan c.loan).inFlight = 0) :
    s.returnLoan cell c =
      (((s.freeLoan c.loan).reply cell .ok c.loan).examine (s.loan c.loan).bay).completionTest (s.loan c.loan).bay := by
  simp only [State.returnLoan, State.loanOf_own bound (by rw [st]; decide) own, absent, st, idle, Option.isSome_none, Bool.false_eq_true,
    if_false]

theorem State.returnLoan_waiting (st : (s.loan c.loan).state = .waiting) :
    s.returnLoan cell c = ((((s.freeLoan c.loan).replyOpt (s.loan c.loan).openingCell .cancelled c.loan).reply cell .ok c.loan).examine
      (s.loan c.loan).bay).completionTest (s.loan c.loan).bay := by
  simp only [State.returnLoan, State.loanOf_own bound (by rw [st]; decide) own, absent, st, Option.isSome_none, Bool.false_eq_true,
    if_false]

theorem State.returnLoan_ended (st : (s.loan c.loan).state = .lapsed ∨ (s.loan c.loan).state = .faulted ∧ (s.loan c.loan).inFlight = 0) :
    s.returnLoan cell c = ((s.freeLoan c.loan).reply cell .ok c.loan).completionTest (s.loan c.loan).bay := by
  rcases st with st | ⟨st, idle⟩
  · simp only [State.returnLoan, State.loanOf_own bound (by rw [st]; decide) own, absent, st, Option.isSome_none, Bool.false_eq_true,
      if_false]
  · simp only [State.returnLoan, State.loanOf_own bound (by rw [st]; decide) own, absent, st, idle, Option.isSome_none,
      Bool.false_eq_true, if_false]

theorem State.returnLoan_later (st : (s.loan c.loan).state = .lapsing
      ∨ ((s.loan c.loan).state = .held ∨ (s.loan c.loan).state = .faulted) ∧ (s.loan c.loan).inFlight ≠ 0) :
    s.returnLoan cell c = s.holdReturn c.loan cell
      (if (s.loan c.loan).state = .held then .returning else (s.loan c.loan).state) := by
  have used : (s.loan c.loan).state ≠ .free := by
    rcases st with st | ⟨st | st, -⟩ <;> rw [st] <;> decide
  obtain ⟨l, hl⟩ : ∃ l, s.loan c.loan = l := ⟨_, rfl⟩
  simp only [State.returnLoan, State.loanOf_own bound used own, absent, Option.isSome_none, Bool.false_eq_true, if_false]
  rcases st with st | ⟨st | st, busy⟩
  · simp only [st]; rfl
  · obtain ⟨k, hk⟩ := Nat.exists_eq_succ_of_ne_zero busy
    simp only [st, hk]; rfl
  · obtain ⟨k, hk⟩ := Nat.exists_eq_succ_of_ne_zero busy
    simp only [st, hk]; rfl

end

end

section
variable {s w t : State} {cell : Fin 1024} {o : HeldOrder}

theorem State.exec_loanReturn_handed (h : s.handed .loanReturn cell = some o) :
    exec (.loanReturn cell) s = .next ((s.validated cell).returnLoan cell o.copy).beginRecords := by
  rw [exec_loanReturn]; exact State.handling_of_handed h

/-- What freeing a loan, its replies, the examination of its bay and the completion test may touch before the test. -/
abbrev freeingParts : List Part := [.awaiting, .answers, .lapseQueue, .loans, .notices]

/-- The event of a RETURN that frees a loan and has the waiting list of its bay examined, from the state in which that is done on (R19). -/
theorem State.freedAndExamined_of_return {n : Nat} (loans : w.loans = (s.freeLoan n).loans) :
    s.freedAndExamined w (w.examine (s.loan n).bay) n
      ∧ s.freedAndExamined w ((w.examine (s.loan n).bay).completionTest (s.loan n).bay).beginRecords n :=
  ⟨⟨loans, rfl⟩, ⟨loans, ((State.beginRecords_touches _).loans).trans (State.completionTest_touches _ _).loans⟩⟩

/-- The answers of such an event: those decided before the examination, and those of the loans granted. -/
theorem State.answered.examined {as : List AnswerWrite} {b n : Nat} (h : (s.validated n).answered w as)
    (serving : w.serving = (s.validated n).serving) :
    s.answered ((w.examine b).completionTest b).beginRecords (as ++ w.grantAnswers (w.grantedOn b)) := by
  have grants := (w.examine_answered b).trans ((w.examine b).completionTest_touches b).answered_nil (w.examine_touches b).serving
  rw [List.append_nil] at grants
  exact (h.trans grants serving).handling

theorem State.freeLoan_validated_loans (n m : Nat) : ((s.validated m).freeLoan n).loans = (s.freeLoan n).loans :=
  State.freeLoan_loans_congr rfl

theorem State.freeLoan_validated_lapseQueue (n m : Nat) :
    ((s.validated m).freeLoan n).exchange.lapseQueue = s.exchange.lapseQueue.filter (fun k => k != n) :=
  State.freeLoan_lapseQueue _ n

end

/-- A HELD loan without transfers is returned (R19, R20). -/
theorem State.return_held {s : State} {cell : Fin 1024} {o : HeldOrder} {n : Nat} (handed : s.handed .loanReturn cell = some o)
    (copy : Copy.loan o.copy = n) (bound : n < 512) (own : (s.loan n).node = Copy.node o.copy) (absent : (s.loan n).returnCell = none)
    (st : (s.loan n).state = .held) (idle : (s.loan n).inFlight = 0) :
    ∃ t granted, exec (.loanReturn cell) s = .next t ∧ t.loan n = .free
      ∧ s.answered t (plain cell .ok n :: s.grantAnswers granted)
      ∧ (s.waitingListed → (s.freeLoan n).examined t (s.loan n).bay granted)
      ∧ (∀ m, m ≠ n → m ∉ granted → t.loan m = s.loan m)
      ∧ t.exchange.lapseQueue = s.exchange.lapseQueue.filter (fun m => m != n)
      ∧ (s.waitingListed → s.tablesOrdered → s.retiresWithout (s.loan n).bay n → s.standbySent t (s.loan n).bay) := by
  subst copy
  obtain ⟨w, hw⟩ : ∃ w, w = ((s.validated cell).freeLoan (Copy.loan o.copy)).reply cell .ok (Copy.loan o.copy) := ⟨_, rfl⟩
  have freed : Touches freeingParts s w := by
    rw [hw]; exact (State.reply_touches ..).after rfl ((State.freeLoan_touches ..).after rfl ((s.validated_touches cell).mono rfl))
  have loans : w.loans = (s.freeLoan (Copy.loan o.copy)).loans := by
    rw [hw, (State.reply_touches ..).loans, State.freeLoan_validated_loans]
  have queue : w.exchange.lapseQueue = s.exchange.lapseQueue.filter (fun m => m != Copy.loan o.copy) := by
    rw [hw, (State.reply_touches ..).lapseQueue, State.freeLoan_validated_lapseQueue]
  have ok : (s.validated cell).answered w [plain cell .ok (Copy.loan o.copy)] := by
    rw [hw]; exact ((State.freeLoan_touches ..).answered_nil).trans (State.reply_answered ..) (State.freeLoan_touches ..).serving
  obtain ⟨tested, event⟩ := State.freedAndExamined_of_return loans
  refine ⟨_, w.grantedOn (s.loan (Copy.loan o.copy)).bay, (State.exec_loanReturn_handed handed).trans ?_, event.freed, ?_, event.examined,
    event.others, ?_, fun listed ordered retires => tested.standbySent
      (freed.trans ((State.examine_touches ..).mono rfl)) listed ordered.1 retires⟩
  · have acts : (s.validated cell).returnLoan cell o.copy = _ := State.returnLoan_held bound own absent st idle
    rw [acts, hw]; rfl
  · rw [← event.answers]
    exact ok.examined (freed.serving)
  · rw [(State.beginRecords_touches _).lapseQueue, (State.completionTest_touches ..).lapseQueue, (State.examine_touches ..).lapseQueue,
      queue]

/-- A LAPSED loan, and a FAULTED one without transfers, is returned; no waiting list is examined (R21, R23). -/
theorem State.return_ended {s : State} {cell : Fin 1024} {o : HeldOrder} {n : Nat} (handed : s.handed .loanReturn cell = some o)
    (copy : Copy.loan o.copy = n) (bound : n < 512) (own : (s.loan n).node = Copy.node o.copy) (absent : (s.loan n).returnCell = none)
    (st : (s.loan n).state = .lapsed ∨ (s.loan n).state = .faulted ∧ (s.loan n).inFlight = 0) :
    ∃ t, exec (.loanReturn cell) s = .next t ∧ t.loan n = .free ∧ s.answered t [plain cell .ok n] ∧ s.otherLoans t n
      ∧ (∀ b, b ≠ (s.loan n).bay → t.waiting b = s.waiting b)
      ∧ t.exchange.lapseQueue = s.exchange.lapseQueue.filter (fun m => m != n)
      ∧ (s.tablesOrdered → s.retiresWithout (s.loan n).bay n → s.standbySent t (s.loan n).bay) := by
  subst copy
  obtain ⟨w, hw⟩ : ∃ w, w = ((s.validated cell).freeLoan (Copy.loan o.copy)).reply cell .ok (Copy.loan o.copy) := ⟨_, rfl⟩
  have freed : Touches freeingParts s w := by
    rw [hw]; exact (State.reply_touches ..).after rfl ((State.freeLoan_touches ..).after rfl ((s.validated_touches cell).mono rfl))
  have loans : w.loans = (s.freeLoan (Copy.loan o.copy)).loans := by
    rw [hw, (State.reply_touches ..).loans, State.freeLoan_validated_loans]
  have ok : (s.validated cell).answered w [plain cell .ok (Copy.loan o.copy)] := by
    rw [hw]; exact ((State.freeLoan_touches ..).answered_nil).trans (State.reply_answered ..) (State.freeLoan_touches ..).serving
  have loan : ∀ m, w.loan m = if m = Copy.loan o.copy then .free else s.loan m := fun m => by
    rw [State.loan_of_loans loans, State.freeLoan_loan]
  have tested := w.completionTest_touches (s.loan (Copy.loan o.copy)).bay
  have after : Touches [.records, .ports] w (w.completionTest (s.loan (Copy.loan o.copy)).bay).beginRecords :=
    (State.beginRecords_touches _).after rfl (tested.mono rfl)
  refine ⟨(w.completionTest (s.loan (Copy.loan o.copy)).bay).beginRecords, (State.exec_loanReturn_handed handed).trans ?_, ?_, ?_,
    fun m ne => ?_, fun b other => ?_, ?_, fun ordered retires => ?_⟩
  · have acts : (s.validated cell).returnLoan cell o.copy = _ := State.returnLoan_ended bound own absent st
    rw [acts, hw]; rfl
  · rw [after.loan, loan, if_pos rfl]
  · exact (ok.trans tested.answered_nil freed.serving).handling
  · rw [after.loan, loan, if_neg ne]
  · rw [after.waiting, State.waiting_of_loans loans, State.freeLoan_waiting, if_neg other]
  · rw [after.lapseQueue, hw, (State.reply_touches ..).lapseQueue, State.freeLoan_validated_lapseQueue]
  · refine retires.standbySent freed ?_ (by rw [loan, if_pos rfl]; rfl) (fun m ne _ => by rw [loan, if_neg ne])
    rw [loans, State.freeLoan_loans]
    exact Table.ordered_set (d := Loan.free) (n := Copy.loan o.copy) (v := Loan.free) ordered.1

/-- A WAITING loan is cancelled (R19). -/
theorem State.return_waiting {s : State} {cell : Fin 1024} {o : HeldOrder} {n : Nat} (handed : s.handed .loanReturn cell = some o)
    (copy : Copy.loan o.copy = n) (bound : n < 512) (own : (s.loan n).node = Copy.node o.copy) (absent : (s.loan n).returnCell = none)
    (st : (s.loan n).state = .waiting) :
    ∃ t granted, exec (.loanReturn cell) s = .next t ∧ t.loan n = .free ∧ n ∉ t.waiting (s.loan n).bay
      ∧ s.answered t (((s.loan n).openingCell.toList.map (fun x => plain x .cancelled n)) ++ plain cell .ok n :: s.grantAnswers granted)
      ∧ (s.waitingListed → (s.freeLoan n).examined t (s.loan n).bay granted)
      ∧ (s.waitingListed → s.tablesOrdered → s.retiresWithout (s.loan n).bay n → s.standbySent t (s.loan n).bay)
      ∧ ∀ m, m ≠ n → m ∉ granted → t.loan m = s.loan m := by
  subst copy
  obtain ⟨u, hu⟩ : ∃ u, u = ((s.validated cell).freeLoan (Copy.loan o.copy)).replyOpt (s.loan (Copy.loan o.copy)).openingCell .cancelled
      (Copy.loan o.copy) := ⟨_, rfl⟩
  have cancelled : (s.validated cell).answered u
      ((s.loan (Copy.loan o.copy)).openingCell.toList.map (fun x => plain x .cancelled (Copy.loan o.copy))) := by
    rw [hu]; exact ((State.freeLoan_touches ..).answered_nil).trans (State.replyOpt_answered ..) (State.freeLoan_touches ..).serving
  have freed : Touches freeingParts s u := by
    rw [hu]; exact (State.replyOpt_touches ..).after rfl ((State.freeLoan_touches ..).after rfl ((s.validated_touches cell).mono rfl))
  have loans : (u.reply cell .ok (Copy.loan o.copy)).loans = (s.freeLoan (Copy.loan o.copy)).loans := by
    rw [(State.reply_touches ..).loans, hu, (State.replyOpt_touches ..).loans, State.freeLoan_validated_loans]
  have ok := cancelled.trans (u.reply_answered cell .ok (Copy.loan o.copy)) freed.serving
  have replied : Touches freeingParts s (u.reply cell .ok (Copy.loan o.copy)) := (State.reply_touches ..).after rfl freed
  obtain ⟨tested, event⟩ := State.freedAndExamined_of_return loans
  refine ⟨_, (u.reply cell .ok (Copy.loan o.copy)).grantedOn (s.loan (Copy.loan o.copy)).bay,
    (State.exec_loanReturn_handed handed).trans ?_, event.freed, event.left, ?_, event.examined,
    fun listed ordered retires => tested.standbySent (replied.trans ((State.examine_touches ..).mono rfl)) listed ordered.1 retires,
    event.others⟩
  · have acts : (s.validated cell).returnLoan cell o.copy = _ := State.returnLoan_waiting bound own absent st
    rw [acts, hu]; rfl
  · rw [← event.answers, ← List.singleton_append, ← List.append_assoc]
    exact ok.examined replied.serving

/-- Settles O29: by the state of the loan, each state with its own row of R19 to R23. -/
theorem loanReturnFreesOrWaits : Obligations.LoanReturnFreesOrWaits := by
  refine ⟨fun s n => ⟨by rw [State.freeLoan_loan, if_pos rfl], fun m hm => by rw [State.freeLoan_loan, if_neg hm],
    by rw [State.freeLoan_waiting, if_pos rfl], fun b hb => by rw [State.freeLoan_waiting, if_neg hb]⟩,
    fun s cell o c l handed copy entry => ?_⟩
  subst copy entry
  refine ⟨fun refused => ⟨_, State.exec_loanReturn_handed handed, ?_⟩, fun bound own absent =>
    ⟨fun st idle => ?_, fun st => State.return_waiting handed rfl bound own absent st, fun st busy => ?_⟩⟩
  · have acts : (s.validated cell).returnLoan cell o.copy = _ := State.returnLoan_refused refused
    rw [acts]
    obtain ⟨answered, kept⟩ := s.handled_reply cell .noLoan (Copy.loan o.copy)
    exact ⟨answered, kept.loans, kept⟩
  · by_cases held : (s.loan (Copy.loan o.copy)).state = .held
    · have none := idle.resolve_right (fun e => by rw [held] at e; cases e)
      obtain ⟨t, granted, step, freed, answered, examined, others, queue, standby⟩ :=
        State.return_held handed rfl bound own absent held none
      exact ⟨t, granted, step, freed, answered, fun other => absurd held other, fun _ => examined, others, queue, standby⟩
    · have ended : (s.loan (Copy.loan o.copy)).state = .lapsed
          ∨ (s.loan (Copy.loan o.copy)).state = .faulted ∧ (s.loan (Copy.loan o.copy)).inFlight = 0 := by
        simp only [List.mem_cons, List.not_mem_nil, or_false] at st
        rcases st with st | st | st
        · exact absurd st held
        · exact .inl st
        · exact .inr ⟨st, idle.resolve_right (fun e => by rw [st] at e; cases e)⟩
      obtain ⟨t, step, freed, answered, others, lists, queue, standby⟩ := State.return_ended handed rfl bound own absent ended
      exact ⟨t, [], step, freed, answered, fun _ => ⟨rfl, others, lists⟩, fun e => absurd e held, fun m ne _ => others m ne, queue,
        fun _ => standby⟩
  · have later : (s.loan (Copy.loan o.copy)).state = .lapsing ∨ ((s.loan (Copy.loan o.copy)).state = .held
        ∨ (s.loan (Copy.loan o.copy)).state = .faulted) ∧ (s.loan (Copy.loan o.copy)).inFlight ≠ 0 := by
      simp only [List.mem_cons, List.not_mem_nil, or_false] at st
      rcases st with st | st | st
      · exact .inr ⟨.inl st, busy.resolve_right (fun e => by rw [st] at e; cases e)⟩
      · exact .inl st
      · exact .inr ⟨.inr st, busy.resolve_right (fun e => by rw [st] at e; cases e)⟩
    have acts : (s.validated cell).returnLoan cell o.copy = _ := State.returnLoan_later bound own absent later
    refine ⟨_, State.exec_loanReturn_handed handed, ?_⟩
    rw [acts]
    have after := State.beginRecords_touches ((s.validated cell).holdReturn (Copy.loan o.copy) cell
      (if ((s.validated cell).loan (Copy.loan o.copy)).state = .held then .returning
        else ((s.validated cell).loan (Copy.loan o.copy)).state))
    refine ⟨?_, fun m ne => ?_, ?_, Touches.handling ((State.holdReturn_touches ..).mono rfl)⟩
    · rw [after.loan, State.holdReturn, State.loan_setLoan, if_pos rfl]; rfl
    · rw [after.loan, State.holdReturn, State.loan_setLoan, if_neg ne]; rfl
    · rw [after.loans]; rfl

/-! ## The FIFOs when orders are removed (R58, R59) -/

section
variable (s : State) (b g c h : Nat)

theorem State.tagHead_orders : ((s.tagHead b g).fifo c h).orders = (s.fifo c h).orders := by
  unfold State.tagHead
  dsimp only
  split
  · split
    · rw [State.fifo_setFifo]
      split
      · next e => simp only [State.fifo, e]
      · rfl
    · rfl
  · rfl

theorem State.tagHead_fifo_other (other : fifoNumber c h ≠ fifoNumber b g) : (s.tagHead b g).fifo c h = s.fifo c h := by
  unfold State.tagHead
  dsimp only
  split
  · split
    · rw [State.fifo_setFifo, if_neg other]
    · rfl
  · rfl

/-- FIFOs of one number are one FIFO. -/
theorem State.fifo_of_number (e : fifoNumber c h = fifoNumber b g) : s.fifo c h = s.fifo b g := by
  simp only [State.fifo, e]

/-- While the next head is settled orders leave the FIFO as joins, and none enters (R58). -/
theorem State.settleHead_orders (fuel : Nat) : ((s.settleHead fuel b g).fifo c h).orders ⊆ (s.fifo c h).orders := by
  induction fuel generalizing s with
  | zero => exact List.Subset.refl _
  | succ k ih =>
    unfold State.settleHead
    split
    · exact List.Subset.refl _
    · next x rest orders =>
      split
      · exact List.Subset.refl _
      · next t _ =>
        split
        · next slot _ =>
          refine List.Subset.trans (ih _) ?_
          rw [(State.joinSlot_touches _ slot x t).fifo, State.setOrders, State.fifo_setFifo]
          split
          · next e => rw [s.fifo_of_number b g c h e, orders]; exact List.subset_cons_self ..
          · exact List.Subset.refl _
        · rw [State.tagHead_orders, State.fifo_setFifo]
          split
          · next e => rw [s.fifo_of_number b g c h e]; exact List.Subset.refl _
          · exact List.Subset.refl _

theorem State.settleHead_fifo_other (fuel : Nat) (other : fifoNumber c h ≠ fifoNumber b g) :
    (s.settleHead fuel b g).fifo c h = s.fifo c h := by
  induction fuel generalizing s with
  | zero => rfl
  | succ k ih =>
    unfold State.settleHead
    split
    · rfl
    · split
      · rfl
      · split
        · rw [ih, (State.joinSlot_touches ..).fifo, State.setOrders, State.fifo_setFifo, if_neg other]
        · rw [State.tagHead_fifo_other _ _ _ _ _ other, State.fifo_setFifo, if_neg other]

/-- The orders for which p holds leave the FIFO, and none enters any FIFO. -/
theorem State.removeQueued_orders (p : Nat → Bool) {x : Nat} (mem : x ∈ ((s.removeQueued b g p).fifo c h).orders) :
    x ∈ (s.fifo c h).orders ∧ (fifoNumber c h = fifoNumber b g → p x = false) := by
  have put : ∀ q : Fifo, q.orders = (s.fifo b g).orders.filter (fun c => !p c) → x ∈ ((s.setFifo b g q).fifo c h).orders →
      x ∈ (s.fifo c h).orders ∧ (fifoNumber c h = fifoNumber b g → p x = false) := fun q left mem => by
    rw [State.fifo_setFifo] at mem
    split at mem
    · next e =>
      rw [left, List.mem_filter, Bool.not_eq_true'] at mem
      rw [s.fifo_of_number b g c h e]
      exact ⟨mem.1, fun _ => mem.2⟩
    · next e => exact ⟨mem, fun k => absurd k e⟩
  unfold State.removeQueued at mem
  dsimp only at mem
  split at mem
  · next empty =>
    refine ⟨mem, fun e => ?_⟩
    rw [s.fifo_of_number b g c h e, empty] at mem
    exact absurd mem List.not_mem_nil
  · next y rest orders =>
    split at mem
    · rw [State.becomeHead, (State.requestSpinUp_touches ..).fifo] at mem
      refine put { (s.fifo b g).giveBack with orders := (y :: rest).filter (fun c => !p c) } (by rw [orders]) ?_
      rw [orders] at mem
      exact State.settleHead_orders _ _ _ _ _ _ mem
    · exact put { s.fifo b g with orders := (y :: rest).filter (fun c => !p c) } (by rw [orders]) (by rwa [orders] at mem)

theorem State.removeQueued_fifo_other (p : Nat → Bool) (other : fifoNumber c h ≠ fifoNumber b g) :
    (s.removeQueued b g p).fifo c h = s.fifo c h := by
  unfold State.removeQueued
  dsimp only
  split
  · rfl
  · split
    · rw [State.becomeHead, (State.requestSpinUp_touches ..).fifo, State.settleHead_fifo_other _ _ _ _ _ _ other, State.fifo_setFifo,
        if_neg other]
    · rw [State.fifo_setFifo, if_neg other]

end

/-! ## Lapses (R14) -/

section
variable {s u t : State} {n b c h : Nat}

theorem State.lapseLoan_fifo (s : State) (n c h : Nat) : (s.lapseLoan n).fifo c h =
    ((s.replyAll ((s.fifo (s.loan n).bay (s.loan n).group).orders.filter (s.isTransferOf n)) .lapsed n).removeQueued (s.loan n).bay
      (s.loan n).group (s.isTransferOf n)).fifo c h := by
  rw [State.lapseLoan, (State.pushLapse_touches ..).fifo, (State.setLoan_touches ..).fifo]

theorem State.lapseLoan_orders {x : Nat} (mem : x ∈ ((s.lapseLoan n).fifo c h).orders) :
    x ∈ (s.fifo c h).orders ∧ (fifoNumber c h = fifoNumber (s.loan n).bay (s.loan n).group → s.isTransferOf n x = false) := by
  rw [State.lapseLoan_fifo] at mem
  obtain ⟨old, gone⟩ := State.removeQueued_orders _ _ _ _ _ _ mem
  rw [(State.replyAll_touches ..).fifo] at old
  exact ⟨old, gone⟩

theorem State.lapseLoan_fifo_other (other : fifoNumber c h ≠ fifoNumber (s.loan n).bay (s.loan n).group) :
    (s.lapseLoan n).fifo c h = s.fifo c h := by
  rw [State.lapseLoan_fifo, State.removeQueued_fifo_other _ _ _ _ _ _ other, (State.replyAll_touches ..).fifo]

theorem State.lapseLoan_answered (s : State) (n : Nat) : s.answered (s.lapseLoan n)
    (((s.fifo (s.loan n).bay (s.loan n).group).orders.filter (s.isTransferOf n)).map (fun c => plain c .lapsed n)) := by
  have replied := s.replyAll_answered ((s.fifo (s.loan n).bay (s.loan n).group).orders.filter (s.isTransferOf n)) .lapsed n
  have removed := (s.replyAll ((s.fifo (s.loan n).bay (s.loan n).group).orders.filter (s.isTransferOf n)) .lapsed n).removeQueued_touches
    (s.loan n).bay (s.loan n).group (s.isTransferOf n)
  have rest := (removed.answered_nil.trans ((State.setLoan_touches _ n
    { s.loan n with state := if (s.loan n).inFlight = 0 then .lapsed else .lapsing, term := 0 }).answered_nil) removed.serving).trans
    (State.pushLapse_touches _ n).answered_nil removed.serving
  have all := replied.trans rest (State.replyAll_touches ..).serving
  rw [List.append_nil, List.append_nil, List.append_nil] at all
  exact all

theorem State.lapseLoan_transfer (s : State) (n c : Nat) : (s.lapseLoan n).transfer? c = s.transfer? c :=
  (s.lapseLoan_touches n).transfer c

/-- Loans lapse one after another. -/
abbrev State.lapseAll (s : State) (ns : List Nat) : State := ns.foldl (fun s n => s.lapseLoan n) s

theorem State.lapseAll_touches (s : State) (ns : List Nat) :
    Touches [.answers, .lapseQueue, .ports, .loans, .fifos, .staging, .engine, .records, .meters, .notices] s (s.lapseAll ns) :=
  Touches.foldl (fun u n => u.lapseLoan_touches n) (Touches.refl _ _)

theorem State.lapseAll_loan (s : State) (ns : List Nat) (m : Nat) :
    (s.lapseAll ns).loan m = if m ∈ ns then (s.loan m).afterLapse else s.loan m := by
  induction ns generalizing s with
  | nil => rfl
  | cons n ns ih =>
    show ((s.lapseLoan n).lapseAll ns).loan m = _
    rw [ih, State.lapseLoan_loan]
    by_cases e : m = n
    · subst e; simp only [if_true, Loan.afterLapse_afterLapse, ite_self, List.mem_cons_self]
    · simp only [e, if_false, List.mem_cons, false_or]

theorem State.lapseAll_waiting (s : State) (ns : List Nat) (b : Nat) : (s.lapseAll ns).waiting b = s.waiting b := by
  induction ns generalizing s with
  | nil => rfl
  | cons n ns ih => exact (ih (s.lapseLoan n)).trans (s.lapseLoan_waiting n b)

/-- The numbers of the loans are queued behind what the queue held (R16). -/
theorem State.lapseLoan_lapseQueue (s : State) (n : Nat) : (s.lapseLoan n).exchange.lapseQueue = s.exchange.lapseQueue ++ [n] := by
  rw [State.lapseLoan, State.pushLapse_lapseQueue, State.setLoan_exchange, (State.removeQueued_touches ..).lapseQueue,
    (State.replyAll_touches ..).lapseQueue]

theorem State.lapseAll_lapseQueue (s : State) (ns : List Nat) : (s.lapseAll ns).exchange.lapseQueue = s.exchange.lapseQueue ++ ns := by
  induction ns generalizing s with
  | nil => exact (List.append_nil _).symm
  | cons n ns ih =>
    show ((s.lapseLoan n).lapseAll ns).exchange.lapseQueue = _
    rw [ih, State.lapseLoan_lapseQueue, List.append_assoc]; rfl

theorem State.lapseLoan_flag (s : State) (n : Nat) : (s.lapseLoan n).notices.flags.lapse = true := by
  rw [State.lapseLoan, State.pushLapse, State.setLapseQueue_flags, Notices.renew_flags]
  simp

/-- LAPSE is pending once a loan has lapsed (R191). -/
theorem State.lapseAll_flag (s : State) {ns : List Nat} (some : ns ≠ [] ∨ s.notices.flags.lapse = true) :
    (s.lapseAll ns).notices.flags.lapse = true := by
  induction ns generalizing s with
  | nil => exact some.resolve_left (fun h => h rfl)
  | cons n ns ih => exact ih (s.lapseLoan n) (.inr (s.lapseLoan_flag n))

theorem State.lapseAll_answers (s : State) (ns : List Nat) : ∃ as, s.answered (s.lapseAll ns) as := by
  induction ns generalizing s with
  | nil => exact ⟨[], s.answered_refl⟩
  | cons n ns ih =>
    obtain ⟨as, answered⟩ := ih (s.lapseLoan n)
    exact ⟨_, (s.lapseLoan_answered n).trans answered (s.lapseLoan_touches n).serving⟩

/-- No FIFO is entered while loans lapse, and the transfers of a loan that lapses leave its FIFO. -/
theorem State.lapseAll_orders {ns : List Nat} {x : Nat} (mem : x ∈ ((s.lapseAll ns).fifo c h).orders) :
    x ∈ (s.fifo c h).orders
      ∧ ∀ n ∈ ns, fifoNumber c h = fifoNumber (s.loan n).bay (s.loan n).group → s.isTransferOf n x = false := by
  induction ns generalizing s with
  | nil => exact ⟨mem, fun n hn => absurd hn List.not_mem_nil⟩
  | cons k ns ih =>
    obtain ⟨old, gone⟩ := ih (s := s.lapseLoan k) mem
    obtain ⟨older, own⟩ := State.lapseLoan_orders old
    refine ⟨older, fun n hn number => ?_⟩
    rcases List.mem_cons.1 hn with rfl | hn
    · exact own number
    · have extent : ((s.lapseLoan k).loan n).bay = (s.loan n).bay ∧ ((s.lapseLoan k).loan n).group = (s.loan n).group := by
        rw [State.lapseLoan_loan]; split
        · next e => rw [e]; exact ⟨rfl, rfl⟩
        · exact ⟨rfl, rfl⟩
      have none := gone n hn (by rw [extent.1, extent.2]; exact number)
      rwa [State.isTransferOf, State.lapseLoan_transfer] at none

/-- The transfers of a loan that lapses are answered, oldest first, where no other loan of the FIFO lapses with it. -/
theorem State.lapseAll_answers_of {ns : List Nat} (mem : n ∈ ns)
    (alone : ∀ m ∈ ns, m ≠ n → fifoNumber (s.loan m).bay (s.loan m).group ≠ fifoNumber (s.loan n).bay (s.loan n).group) :
    (((s.fifo (s.loan n).bay (s.loan n).group).orders.filter (s.isTransferOf n)).map (fun c => plain c .lapsed n)).Sublist
      (s.lapseAll ns).exchange.answerList := by
  induction ns generalizing s with
  | nil => exact absurd mem List.not_mem_nil
  | cons k ns ih =>
    by_cases e : n = k
    · subst e
      obtain ⟨as, answered⟩ := (s.lapseLoan n).lapseAll_answers ns
      show List.Sublist _ ((s.lapseLoan n).lapseAll ns).exchange.answerList
      rw [answered.1, (s.lapseLoan_answered n).1]
      exact (List.sublist_append_right _ _).trans (List.sublist_append_left _ _)
    · have other := alone k (by simp) (Ne.symm e)
      have loan : (s.lapseLoan k).loan n = s.loan n := by rw [State.lapseLoan_loan, if_neg e]
      have transfers : (s.lapseLoan k).isTransferOf n = s.isTransferOf n := by
        funext x; simp only [State.isTransferOf, State.lapseLoan_transfer]
      have later := ih (s := s.lapseLoan k) ((List.mem_cons.1 mem).resolve_left e) (fun m hm ne => by
        have extent : ((s.lapseLoan k).loan m).bay = (s.loan m).bay ∧ ((s.lapseLoan k).loan m).group = (s.loan m).group := by
          rw [State.lapseLoan_loan]; split
          · next e => rw [e]; exact ⟨rfl, rfl⟩
          · exact ⟨rfl, rfl⟩
        rw [loan, extent.1, extent.2]; exact alone m (List.mem_cons_of_mem _ hm) ne)
      rw [loan, transfers, State.lapseLoan_fifo_other (Ne.symm other)] at later
      exact later

/-! ## Expiries (R10) -/

/-- Waits expire one after another. -/
abbrev State.expireAll (s : State) (ns : List Nat) : State := ns.foldl (fun s n => s.expire n) s

theorem State.expireAll_touches (s : State) (ns : List Nat) : Touches [.answers, .lapseQueue, .loans, .notices] s (s.expireAll ns) :=
  Touches.foldl (fun u n => u.expire_touches n) (Touches.refl _ _)

theorem State.expireAll_loan (s : State) (ns : List Nat) (m : Nat) :
    (s.expireAll ns).loan m = if m ∈ ns then .free else s.loan m := by
  induction ns generalizing s with
  | nil => rfl
  | cons n ns ih =>
    show ((s.expire n).expireAll ns).loan m = _
    rw [ih, State.expire_loan]
    by_cases e : m = n <;> simp [e]

theorem State.expire_answered (s : State) (n : Nat) :
    s.answered (s.expire n) ((s.loan n).openingCell.toList.map (fun x => plain x .waitExpired n)) :=
  ((s.freeLoan_touches n).answered_nil).trans (State.replyOpt_answered ..) (s.freeLoan_touches n).serving

theorem State.expireAll_answers (s : State) (ns : List Nat) : ∃ as, s.answered (s.expireAll ns) as := by
  induction ns generalizing s with
  | nil => exact ⟨[], s.answered_refl⟩
  | cons n ns ih =>
    obtain ⟨as, answered⟩ := ih (s.expire n)
    exact ⟨_, (s.expire_answered n).trans answered (s.expire_touches n).serving⟩

theorem State.expireAll_answer {ns : List Nat} (mem : n ∈ ns) (opening : (s.loan n).openingCell = some c) :
    plain c .waitExpired n ∈ (s.expireAll ns).exchange.answerList := by
  induction ns generalizing s with
  | nil => exact absurd mem List.not_mem_nil
  | cons k ns ih =>
    by_cases e : n = k
    · subst e
      obtain ⟨as, answered⟩ := (s.expire n).expireAll_answers ns
      show _ ∈ ((s.expire n).expireAll ns).exchange.answerList
      rw [answered.1, (s.expire_answered n).1, opening]
      simp
    · exact ih (s := s.expire k) ((List.mem_cons.1 mem).resolve_left e) (by rwa [State.expire_loan, if_neg e])

theorem State.expire_waiting_sublist (s : State) (n b : Nat) : ((s.expire n).waiting b).Sublist (s.waiting b) := by
  rw [State.expire_waiting]
  split
  · exact List.filter_sublist
  · exact List.Sublist.refl _

theorem State.expireAll_waiting_sublist (s : State) (ns : List Nat) (b : Nat) : ((s.expireAll ns).waiting b).Sublist (s.waiting b) := by
  induction ns generalizing s with
  | nil => exact List.Sublist.refl _
  | cons n ns ih => exact (ih (s.expire n)).trans (s.expire_waiting_sublist n b)

/-- A loan whose wait expires leaves the waiting list of its bay. -/
theorem State.expireAll_left {ns : List Nat} (mem : n ∈ ns) : n ∉ (s.expireAll ns).waiting (s.loan n).bay := by
  induction ns generalizing s with
  | nil => exact absurd mem List.not_mem_nil
  | cons k ns ih =>
    by_cases e : n = k
    · subst e
      intro still
      have out := ((s.expire n).expireAll_waiting_sublist ns (s.loan n).bay).subset still
      rw [State.expire_waiting, if_pos rfl] at out
      simp at out
    · have later := ih (s := s.expire k) ((List.mem_cons.1 mem).resolve_left e)
      rwa [State.expire_loan, if_neg e] at later

/-- Of a waiting list in form those loans stay whose wait does not expire. -/
theorem State.expireAll_waiting (listed : s.waitingListed) (ns : List Nat) (waits : ∀ n ∈ ns, (s.loan n).state = .waiting)
    (once : ns.Nodup) (b : Nat) : (s.expireAll ns).waiting b = (s.waiting b).filter (fun m => !ns.contains m) := by
  induction ns generalizing s with
  | nil => simp
  | cons n ns ih =>
    obtain ⟨fresh, once⟩ := List.nodup_cons.1 once
    show ((s.expire n).expireAll ns).waiting b = _
    have form : (s.expire n).waitingListed := listed.drop (fun m => s.expire_loan m n) (fun b => s.expire_waiting n b)
    rw [ih form (fun m hm => by rw [State.expire_loan, if_neg (fun e : m = n => fresh (e ▸ hm))]; exact waits m (List.mem_cons_of_mem _ hm))
      once, State.expire_waiting]
    have split : (s.waiting b).filter (fun m => !(n :: ns).contains m)
        = ((s.waiting b).filter (fun m => m != n)).filter (fun m => !ns.contains m) := by
      rw [List.filter_filter]
      refine List.filter_congr fun m _ => ?_
      rw [List.contains_cons, Bool.not_or, Bool.and_comm]; rfl
    rw [split]
    by_cases own : b = (s.loan n).bay
    · rw [if_pos own]
    · rw [if_neg own]
      refine congrArg _ (List.filter_eq_self.2 fun m hm => ?_).symm
      rw [bne_iff_ne]
      rintro rfl
      exact own (listed.bay hm).symm

end

/-! ## Examinations of several bays (R9, R12) -/

section
variable {s u : State} {n b : Nat} {bs : List Nat}

theorem State.examineAll_nil (s : State) : s.examineAll [] = s := rfl
theorem State.examineAll_cons (s : State) (b : Nat) (bs : List Nat) : s.examineAll (b :: bs) = (s.examine b).examineAll bs := rfl
theorem State.examineAll_append (s : State) (as bs : List Nat) : s.examineAll (as ++ bs) = (s.examineAll as).examineAll bs :=
  List.foldl_append

theorem State.examineAll_waiting_sublist (s : State) (bs : List Nat) (c : Nat) : ((s.examineAll bs).waiting c).Sublist (s.waiting c) := by
  induction bs generalizing s with
  | nil => exact List.Sublist.refl _
  | cons b bs ih => exact (ih (s.examine b)).trans (s.examine_waiting_sublist b c)

theorem State.examineAll_waiting_other (out : b ∉ bs) : (s.examineAll bs).waiting b = s.waiting b := by
  induction bs generalizing s with
  | nil => rfl
  | cons c bs ih =>
    rw [State.examineAll_cons, ih (fun h => out (List.mem_cons_of_mem _ h)),
      State.examine_waiting_other s (fun e : b = c => out (e ▸ List.mem_cons_self))]

theorem Loan.granted_granted (l : Loan) : l.granted.granted = l.granted := rfl

/-- A loan is as it was, or was granted on one of the bays. -/
theorem State.examineAll_loan (s : State) (bs : List Nat) (m : Nat) : (s.examineAll bs).loan m = s.loan m
    ∨ ((s.examineAll bs).loan m = (s.loan m).granted ∧ ∃ c ∈ bs, m ∈ s.waiting c) := by
  induction bs generalizing s with
  | nil => exact .inl rfl
  | cons b bs ih =>
    rw [State.examineAll_cons]
    have own := s.examine_loan b m
    have later := ih (s.examine b)
    rw [own] at later
    by_cases g : m ∈ s.grantedOn b
    · rw [if_pos g, Loan.granted_granted] at later
      exact .inr ⟨later.elim id And.left, b, List.mem_cons_self, (s.grantedOn_sublist b).subset g⟩
    · rw [if_neg g] at later
      refine later.imp_right fun ⟨e, c, hc, mem⟩ => ⟨e, c, List.mem_cons_of_mem _ hc, ?_⟩
      exact (s.examine_waiting_sublist b c).subset mem

theorem State.examineAll_loan_unlisted (out : ∀ c ∈ bs, n ∉ s.waiting c) : (s.examineAll bs).loan n = s.loan n :=
  (s.examineAll_loan bs n).resolve_right fun ⟨_, c, hc, mem⟩ => out c hc mem

theorem State.waitingListed.examineAll (h : s.waitingListed) (bs : List Nat) : (s.examineAll bs).waitingListed := by
  induction bs generalizing s with
  | nil => exact h
  | cons b bs ih => exact ih (h.examine b)

theorem State.examineAll_answers (s : State) (bs : List Nat) : ∃ as, s.answered (s.examineAll bs) as := by
  induction bs generalizing s with
  | nil => exact ⟨[], s.answered_refl⟩
  | cons b bs ih =>
    obtain ⟨as, answered⟩ := ih (s.examine b)
    exact ⟨_, (s.examine_answered b).trans answered (s.examine_touches b).serving⟩

/-- Among the examinations of several bays that of bay b, as it is seen from a state s: it differs from the state u, in which they begin, by
no more than waits of the bay's waiting loans and by loans that do not count for them. -/
theorem State.examined_of_examineAll (form : u.waitingListed) (once : bs.Nodup) (mem : b ∈ bs) (list : u.waiting b = s.waiting b)
    (same : ∀ n ∈ s.waiting b, u.loan n = { s.loan n with wait := (u.loan n).wait })
    (rivals : ∀ n ∈ s.waiting b, ∀ m, m ≠ n →
      ((u.loan m).state.inConflictSet = true ∧ conflicts (u.loan m) (u.loan n) = true ↔
        (s.loan m).state.inConflictSet = true ∧ conflicts (s.loan m) (s.loan n) = true)) :
    ∃ granted, s.examined (u.examineAll bs) b granted ∧ (s.grantAnswers granted).Sublist (u.examineAll bs).exchange.answerList := by
  obtain ⟨before, after, rfl⟩ := List.append_of_mem mem
  obtain ⟨-, rest, apart⟩ := List.nodup_append.1 once
  have beforeOut : b ∉ before := fun h => apart b h b List.mem_cons_self rfl
  have afterOut : b ∉ after := (List.nodup_cons.1 rest).1
  obtain ⟨w, hw⟩ : ∃ w, w = u.examineAll before := ⟨_, rfl⟩
  have wform : w.waitingListed := hw ▸ form.examineAll before
  have wlist : w.waiting b = u.waiting b := hw ▸ State.examineAll_waiting_other beforeOut
  have unlisted : ∀ n ∈ s.waiting b, ∀ c ∈ before, n ∉ u.waiting c := fun n hn c hc on => by
    have := (form.bay on).symm.trans (form.bay (list ▸ hn))
    exact beforeOut (this ▸ hc)
  have wsame : ∀ n ∈ s.waiting b, w.loan n = u.loan n := fun n hn => hw ▸ State.examineAll_loan_unlisted (unlisted n hn)
  have all : u.examineAll (before ++ b :: after) = (w.examine b).examineAll after := by
    rw [hw, State.examineAll_append, State.examineAll_cons]
  rw [all]
  have left : ((w.examine b).examineAll after).waiting b = (w.examine b).waiting b := State.examineAll_waiting_other afterOut
  have still : ∀ n ∈ s.waiting b, ((w.examine b).examineAll after).loan n = (w.examine b).loan n := fun n hn =>
    State.examineAll_loan_unlisted fun c hc on => by
      have on := (w.examine_waiting_sublist b c).subset on
      have bay := (wform.bay on).symm.trans (wform.bay (wlist ▸ list ▸ hn))
      exact afterOut (bay ▸ hc)
  refine ⟨w.grantedOn b, ?_, ?_⟩
  · refine State.examined_of_examine (wform b).1 (fun n hn => wform.state hn) (wlist.trans list)
      (fun n hn => by rw [wsame n hn]; exact same n hn) (fun n hn m ne => ?_) left still
    rw [← rivals n hn m ne, wsame n hn]
    rcases hw ▸ u.examineAll_loan before m with e | ⟨e, c, hc, on⟩
    · rw [e]
    · have other : (u.loan m).bay ≠ (u.loan n).bay := by
        rw [form.bay on, form.bay (list ▸ hn)]
        rintro rfl; exact beforeOut hc
      have apart : conflicts (w.loan m) (u.loan n) = false := conflicts_otherBay (by rw [e]; exact other)
      rw [apart, conflicts_otherBay other]
      simp
  · obtain ⟨as, answered⟩ := (w.examine b).examineAll_answers after
    rw [answered.1, (w.examine_answered b).1]
    have openings : s.grantAnswers (w.grantedOn b) = w.grantAnswers (w.grantedOn b) := by
      unfold State.grantAnswers
      refine List.filterMap_congr fun n hn => ?_
      have listed : n ∈ s.waiting b := list ▸ wlist ▸ (w.grantedOn_sublist b).subset hn
      rw [wsame n listed, same n listed]
    rw [openings]
    exact (List.sublist_append_right _ _).trans (List.sublist_append_left _ _)

end

/-! ## The Loan Manager's tick, phase by phase (R12) -/

section
variable {s : State} {n b : Nat}

/-- The waits have counted, and those that reached 0 have expired. -/
def State.expiriesDone (s : State) : State := (s.mapLoans Loan.countWait).expireAll s.expiring

/-- The terms have counted too, and the loans whose term reached 0 have lapsed. -/
def State.lapsesDone (s : State) : State := (s.expiriesDone.mapLoans s.expiriesDone.countTerm).lapseAll s.expiriesDone.lapsing

/-- The bays whose waiting lists are examined at a tick. -/
def State.tickBays (s : State) : List Nat :=
  allBays.filter (fun b => (s.expiring.map (fun n => (s.loan n).bay)).contains b
    || ((s.expiriesDone.lapsing.filter (fun n => (s.lapsesDone.loan n).state == .lapsed)).map
        (fun n => (s.lapsesDone.loan n).bay)).contains b)

theorem State.loanTick_eq (s : State) : s.loanTick = (s.lapsesDone.examineAll s.tickBays).completionTests
    (allBays.filter (fun b => (s.expiring.map (fun n => (s.loan n).bay)).contains b)) := rfl

/-- What the tick does to loans and answers is done when the examinations are. -/
theorem State.loanTick_touches_examined (s : State) : Touches [.records] (s.lapsesDone.examineAll s.tickBays) s.loanTick :=
  State.completionTests_touches ..

theorem State.expiriesDone_touches (s : State) : Touches [.answers, .lapseQueue, .loans, .notices] s s.expiriesDone :=
  (State.expireAll_touches ..).after rfl ((State.mapLoans_touches ..).mono rfl)

theorem State.expiriesDone_loan (s : State) (m : Nat) :
    s.expiriesDone.loan m = if m ∈ s.expiring then .free else (s.loan m).countWait := by
  rw [State.expiriesDone, State.expireAll_loan, State.mapLoans_loan _ _ _ Loan.countWait_free]

theorem State.lapsesDone_touches (s : State) :
    Touches [.answers, .lapseQueue, .ports, .loans, .fifos, .staging, .engine, .records, .meters, .notices] s.expiriesDone s.lapsesDone :=
  (State.lapseAll_touches ..).after rfl ((State.mapLoans_touches ..).mono rfl)

/-- A loan that expires is not HELD, so that it does not lapse. -/
theorem State.mem_expiriesDone_lapsing (s : State) (m : Nat) : m ∈ s.expiriesDone.lapsing ↔ s.lapsesNext (s.loan m) = true := by
  rw [State.lapsing, State.mem_loansWhere (by rfl), State.expiriesDone_loan]
  have bays : s.expiriesDone.lapsesNext = s.lapsesNext := by
    funext l; simp only [State.lapsesNext, s.expiriesDone_touches.bay]
  rw [bays]
  split
  · next e =>
    have waiting := (State.mem_expiring e).1
    simp [State.lapsesNext, Loan.free, waiting]
  · unfold Loan.countWait
    split
    · next waiting => simp [State.lapsesNext, waiting]
    · rfl

/-- A loan once the phases of the tick are done, before the examinations. -/
theorem State.lapsesDone_loan (s : State) (m : Nat) : s.lapsesDone.loan m =
    if m ∈ s.expiring then .free
    else if s.lapsesNext (s.loan m) = true then (s.countTerm (s.loan m)).afterLapse
    else s.countTerm (s.loan m).countWait := by
  have terms : s.expiriesDone.countTerm = s.countTerm := by
    funext l; simp only [State.countTerm, s.expiriesDone_touches.bay]
  rw [State.lapsesDone, State.lapseAll_loan, State.mapLoans_loan _ _ _ (State.countTerm_free _), State.expiriesDone_loan, terms]
  simp only [State.mem_expiriesDone_lapsing]
  by_cases e : m ∈ s.expiring
  · have stays : ¬s.lapsesNext (s.loan m) = true := by simp [State.lapsesNext, (State.mem_expiring e).1]
    rw [if_pos e, if_neg stays, if_pos e, State.countTerm_free]
  · rw [if_neg e, if_neg e]
    split
    · next due =>
      have held : (s.loan m).state = .held := by
        simp only [State.lapsesNext, Bool.and_eq_true, beq_iff_eq] at due; exact due.1.1
      rw [Loan.countWait, if_neg (by rw [held]; decide)]
    · rfl

theorem State.lapsesDone_waiting_sublist (s : State) (c : Nat) : (s.lapsesDone.waiting c).Sublist (s.waiting c) := by
  rw [State.lapsesDone, State.lapseAll_waiting]
  exact State.expireAll_waiting_sublist _ _ _

/-- Loans expire on bays of the part, each where it is listed. -/
theorem State.mem_expiring_iff {m : Nat} :
    m ∈ s.expiring ↔ (∃ c, c < 24 ∧ m ∈ s.waiting c) ∧ (s.loan m).state = .waiting ∧ (s.loan m).wait ≤ 1 := by
  simp only [State.expiring, List.mem_flatMap, List.mem_filter, allBays, List.mem_range, Config.numBays, Loan.expiresNext,
    Bool.and_eq_true, beq_iff_eq, decide_eq_true_eq]
  constructor
  · rintro ⟨c, bound, mem, due⟩; exact ⟨⟨c, bound, mem⟩, due⟩
  · rintro ⟨⟨c, bound, mem⟩, due⟩; exact ⟨c, bound, mem, due⟩

theorem State.waitingListed.expiring_nodup (h : s.waitingListed) : s.expiring.Nodup := by
  refine List.nodup_flatMap.2 ⟨fun b _ => (h b).1.filter _, List.nodup_range.imp_of_mem ?_⟩
  intro b c _ _ ne
  refine List.disjoint_left.2 fun m hb hc => ne ?_
  exact (h.bay (List.mem_filter.1 hb).1).symm.trans (h.bay (List.mem_filter.1 hc).1)

theorem State.waitingListed.countWaits (h : s.waitingListed) : (s.mapLoans Loan.countWait).waitingListed :=
  waitingListed_law.counted h Loan.countWait_free Loan.countWait_sameCourse

/-- The waiting list of a bay once the phases are done: those stay whose wait has not expired. -/
theorem State.lapsesDone_waiting (listed : s.waitingListed) (bound : b < 24) :
    s.lapsesDone.waiting b = (s.waiting b).filter (fun m => 1 < (s.loan m).wait) := by
  have state : ∀ m, ((s.mapLoans Loan.countWait).loan m).state = (s.loan m).state := fun m => by
    rw [State.mapLoans_loan _ _ _ Loan.countWait_free]; exact ((s.loan m).countWait_sameCourse).1
  rw [State.lapsesDone, State.lapseAll_waiting]
  show ((s.mapLoans Loan.countWait).expireAll s.expiring).waiting b = _
  rw [State.expireAll_waiting listed.countWaits _ (fun n hn => by rw [state]; exact (State.mem_expiring hn).1) listed.expiring_nodup]
  refine List.filter_congr fun m hm => ?_
  have waiting := listed.state hm
  rw [Bool.eq_iff_iff, Bool.not_eq_true', List.contains_eq_mem, decide_eq_false_iff_not, decide_eq_true_eq, State.mem_expiring_iff]
  simp only [waiting, true_and, not_and, Nat.not_le]
  exact ⟨fun h => h ⟨b, bound, hm⟩, fun h _ => h⟩

theorem State.waitingListed.lapsesDone (h : s.waitingListed) : s.lapsesDone.waitingListed :=
  waitingListed_law.lapseAll _ (waitingListed_law.counted
    (LoanLaw.foldl (fun n k => waitingListed_law.expire n k) s.expiring h.countWaits) (State.countTerm_free _)
    (State.countTerm_sameCourse _)) (fun _ hn => .inl (State.lapsing_held hn))

end

section
variable {s t x : State} {n b : Nat}

theorem State.examined.of_loans {g : List Nat} (h : s.examined x b g) (loans : t.loans = x.loans) : s.examined t b g := by
  unfold State.examined at h ⊢
  simp only [State.loan_of_loans loans, State.waiting_of_loans loans]
  exact h

theorem State.examined.seen {v : State} {g : List Nat} (h : v.examined t b g) (loans : s.loans = v.loans) : s.examined t b g := by
  unfold State.examined State.grantable at h ⊢
  simp only [State.loan_of_loans loans, State.waiting_of_loans loans]
  exact h

theorem State.grantAnswers_of_loans {v : State} (loans : s.loans = v.loans) (g : List Nat) : s.grantAnswers g = v.grantAnswers g := by
  simp only [State.grantAnswers, State.loan_of_loans loans]

theorem Touches.lapsesNext {ps : List Part} (h : Touches ps s t) (w : Part.records ∉ ps := by decide) : t.lapsesNext = s.lapsesNext := by
  funext l; simp only [State.lapsesNext, h.bay l.bay w]

theorem State.countTerm_afterLapse (s : State) (l : Loan) : (s.countTerm l).afterLapse = l.afterLapse := by
  unfold State.countTerm; split <;> rfl

theorem State.countTerm_group (s : State) (l : Loan) : (s.countTerm l).group = l.group := by
  unfold State.countTerm; split <;> rfl

theorem Loan.countWait_waiting {l : Loan} (h : l.state = .waiting) : l.countWait = { l with wait := l.wait - 1 } := if_pos h

theorem State.countTerm_unheld {l : Loan} (h : l.state ≠ .held) : s.countTerm l = l := if_neg fun k => h k.1

/-- The states in which a tick finds the loans that lapse. -/
def State.termsCounted (s : State) : State := s.expiriesDone.mapLoans s.expiriesDone.countTerm

theorem State.lapsesDone_eq (s : State) : s.lapsesDone = s.termsCounted.lapseAll s.expiriesDone.lapsing := rfl

theorem State.termsCounted_touches (s : State) : Touches [.answers, .lapseQueue, .loans, .notices] s s.termsCounted :=
  (State.mapLoans_touches ..).after rfl s.expiriesDone_touches

theorem State.lapsesNext_held {l : Loan} (h : s.lapsesNext l = true) : l.state = .held := by
  simp only [State.lapsesNext, Bool.and_eq_true, beq_iff_eq] at h; exact h.1.1

theorem State.termsCounted_loan (due : s.lapsesNext (s.loan n) = true) : s.termsCounted.loan n = s.countTerm (s.loan n) := by
  have held := State.lapsesNext_held due
  have terms : s.expiriesDone.countTerm = s.countTerm := by
    funext l; simp only [State.countTerm, s.expiriesDone_touches.bay]
  rw [State.termsCounted, State.mapLoans_loan _ _ _ (State.countTerm_free _), State.expiriesDone_loan,
    if_neg (fun e => by rw [(State.mem_expiring e).1] at held; cases held), terms, Loan.countWait, if_neg (by rw [held]; decide)]

/-- The FIFO of a loan that lapses. -/
theorem State.termsCounted_number (due : s.lapsesNext (s.loan n) = true) :
    fifoNumber (s.termsCounted.loan n).bay (s.termsCounted.loan n).group = fifoNumber (s.loan n).bay (s.loan n).group := by
  rw [State.termsCounted_loan due, State.countTerm_group, (s.countTerm_sameCourse _).2.1]

/-- What a tick leaves of its examinations: all but ports, groups, bay records, clock and meters. -/
theorem State.takeTick_touches_examined (s : State) :
    Touches [.ports, .groups, .records, .clock, .meters] (s.lapsesDone.examineAll s.tickBays) s.takeTick :=
  (State.beginRecords_touches _).after rfl ((State.meterTick_touches _).after rfl
    ((Touches.foldl (fun u b => State.idleTick_touches u b) (Touches.refl _ s.loanTick)).after rfl
      (s.loanTick_touches_examined.mono rfl)))

theorem State.tick_serving (h : s.serving = true) : s.tick = State.takeTick { s with clock := s.clock.produce } := by
  have served : State.serving { s with clock := s.clock.produce } = true := h
  unfold State.tick
  dsimp only
  rw [if_pos served]

/-- The loans of a tick, before its examinations, as they are seen from a state that differs by loans that lapse or expire (R9, R12). -/
theorem State.lapsesDone_examined {v : State} (listed : s.waitingListed) (bound : b < 24) (mem : b ∈ s.tickBays)
    (list : v.waiting b = (s.waiting b).filter (fun m => 1 < (s.loan m).wait))
    (entry : ∀ m, (v.loan m = s.loan m ∧ s.lapsesNext (s.loan m) = false)
      ∨ ((v.loan m).state.inConflictSet = false ∧ (s.lapsesDone.loan m).state.inConflictSet = false ∧ m ∉ v.waiting b)) :
    ∃ granted, v.examined s.takeTick b granted ∧ (v.grantAnswers granted).Sublist s.takeTick.exchange.answerList := by
  have counted : ∀ n ∈ v.waiting b, v.loan n = s.loan n ∧ s.lapsesDone.loan n = { s.loan n with wait := (s.loan n).wait - 1 } := by
    intro n hn
    obtain ⟨same, stays⟩ := (entry n).resolve_right (fun h => h.2.2 hn)
    rw [list, List.mem_filter, decide_eq_true_eq] at hn
    have waiting := listed.state hn.1
    refine ⟨same, ?_⟩
    rw [State.lapsesDone_loan, if_neg (fun e => absurd (State.mem_expiring e).2 (Nat.not_le.2 hn.2)), if_neg (by rw [stays]; simp),
      Loan.countWait_waiting waiting, State.countTerm_unheld (by rw [waiting]; decide)]
  have rivals : ∀ n ∈ v.waiting b, ∀ m, m ≠ n →
      ((s.lapsesDone.loan m).state.inConflictSet = true ∧ conflicts (s.lapsesDone.loan m) (s.lapsesDone.loan n) = true ↔
        (v.loan m).state.inConflictSet = true ∧ conflicts (v.loan m) (v.loan n) = true) := by
    intro n hn m ne
    obtain ⟨same, count⟩ := counted n hn
    rcases entry m with ⟨own, stays⟩ | ⟨one, other, -⟩
    · have still : (s.lapsesDone.loan n).bay = (s.loan n).bay ∧ (s.lapsesDone.loan n).first = (s.loan n).first
          ∧ (s.lapsesDone.loan n).count = (s.loan n).count ∧ (s.lapsesDone.loan n).mode = (s.loan n).mode := by
        rw [count]; exact ⟨rfl, rfl, rfl, rfl⟩
      rw [own, same, s.lapsesDone_loan m]
      split
      · next e => rw [(State.mem_expiring e).1]; simp [Loan.free, LoanState.inConflictSet]
      · obtain ⟨st, extent⟩ := (s.loan m).countWait_sameCourse
        obtain ⟨st', bay, first, count', mode⟩ := s.countTerm_sameCourse (s.loan m).countWait
        rw [if_neg (by rw [stays]; simp), st', st, conflicts_congr (b := s.loan n)
          ⟨bay.trans extent.1, first.trans extent.2.1, count'.trans extent.2.2.1, mode.trans extent.2.2.2⟩ still]
    · rw [one, other]; simp
  obtain ⟨granted, examined, answers⟩ := State.examined_of_examineAll (s := v) (u := s.lapsesDone) (bs := s.tickBays) listed.lapsesDone
    (List.nodup_range.filter _) mem ((s.lapsesDone_waiting listed bound).trans list.symm)
    (fun n hn => by obtain ⟨same, count⟩ := counted n hn; rw [count, same]) rivals
  have touched := s.takeTick_touches_examined
  exact ⟨granted, examined.of_loans touched.loans, by rw [touched.answerList]; exact answers⟩

theorem State.isTransferOf_eq (s : State) (n c : Nat) : s.isTransferOf n c = (s.transfer? c).any (fun x => x.loan == some n) := by
  unfold State.isTransferOf; cases s.transfer? c <;> rfl

/-- A loan that is on no waiting list is by the end of the tick as it is before the examinations. -/
theorem State.takeTick_loan_unlisted (out : ∀ c, n ∉ s.lapsesDone.waiting c) : s.takeTick.loan n = s.lapsesDone.loan n := by
  rw [s.takeTick_touches_examined.loan, State.examineAll_loan_unlisted fun c _ => out c]

theorem State.takeTick_touches_lapsed (s : State) :
    Touches [.ports, .groups, .records, .clock, .meters, .answers, .loans] s.lapsesDone s.takeTick :=
  (s.takeTick_touches_examined).after rfl ((State.examineAll_touches ..).mono rfl)

theorem State.takeTick_answers (s : State) {as : List AnswerWrite} (h : as.Sublist s.lapsesDone.exchange.answerList) :
    as.Sublist s.takeTick.exchange.answerList := by
  obtain ⟨more, answered⟩ := s.lapsesDone.examineAll_answers s.tickBays
  rw [s.takeTick_touches_examined.answerList, answered.1]
  exact h.trans (List.sublist_append_left _ _)

/-! ## A loan that lapses -/

section
variable (due : s.lapsesNext (s.loan n) = true)
include due

theorem State.not_mem_expiring_of_lapses : n ∉ s.expiring := fun e => by
  have held := State.lapsesNext_held due
  rw [(State.mem_expiring e).1] at held; cases held

theorem State.lapsesDone_loan_lapsed : s.lapsesDone.loan n = (s.loan n).afterLapse := by
  rw [State.lapsesDone_loan, if_neg (State.not_mem_expiring_of_lapses due), if_pos due, State.countTerm_afterLapse]

theorem State.lapse_queued : n ∈ s.takeTick.exchange.lapseQueue ∧ s.takeTick.notices.flags.lapse = true := by
  have mem := (s.mem_expiriesDone_lapsing n).2 due
  constructor
  · rw [s.takeTick_touches_lapsed.lapseQueue, State.lapsesDone_eq, State.lapseAll_lapseQueue]
    exact List.mem_append_right _ mem
  · rw [s.takeTick_touches_lapsed.notices, State.lapsesDone_eq]
    exact State.lapseAll_flag _ (.inl (List.ne_nil_of_mem mem))

/-- Its transfers have left their FIFO. -/
theorem State.lapse_orders {c : Nat} {x : Transfer} (transfer : s.transfer? c = some x) (loan : x.loan = some n) :
    c ∉ (s.takeTick.fifo (s.loan n).bay (s.loan n).group).orders := by
  intro mem
  rw [s.takeTick_touches_lapsed.fifo, State.lapsesDone_eq] at mem
  have gone := (State.lapseAll_orders mem).2 n ((s.mem_expiriesDone_lapsing n).2 due) (State.termsCounted_number due).symm
  rw [State.isTransferOf_eq, s.termsCounted_touches.transfer, transfer, Option.any_some, loan] at gone
  simp at gone

/-- They are answered, oldest first, where no other loan of the FIFO lapses. -/
theorem State.lapse_answers
    (alone : ∀ m, m ≠ n → fifoNumber (s.loan m).bay (s.loan m).group = fifoNumber (s.loan n).bay (s.loan n).group →
      s.lapsesNext (s.loan m) = false) :
    (((s.fifo (s.loan n).bay (s.loan n).group).orders.filter (fun c => (s.transfer? c).any (fun x => x.loan == some n))).map
      (fun c => plain c .lapsed n)).Sublist s.takeTick.exchange.answerList := by
  refine s.takeTick_answers ?_
  have answers := State.lapseAll_answers_of (s := s.termsCounted) ((s.mem_expiriesDone_lapsing n).2 due) (fun m hm ne same => by
    have other := (s.mem_expiriesDone_lapsing m).1 hm
    rw [State.termsCounted_number due, State.termsCounted_number other] at same
    rw [alone m ne same] at other; cases other)
  have transfers : s.termsCounted.isTransferOf n = fun c => (s.transfer? c).any (fun x => x.loan == some n) := by
    funext c; rw [State.isTransferOf_eq, s.termsCounted_touches.transfer]
  have fifo : s.termsCounted.fifo (s.termsCounted.loan n).bay (s.termsCounted.loan n).group = s.fifo (s.loan n).bay (s.loan n).group := by
    rw [State.fifo_of_number _ _ _ _ _ (State.termsCounted_number due), s.termsCounted_touches.fifo]
  rwa [transfers, fifo] at answers

/-- A loan without transfers that is LAPSED then has the waiting list of its bay examined, where nothing else of the bay ends. -/
theorem State.lapse_examined (idle : (s.loan n).inFlight = 0) (bound : (s.loan n).bay < 24) (listed : s.waitingListed)
    (alone : ∀ m, m ≠ n → s.lapsesNext (s.loan m) = false) (waits : ∀ m ∈ s.waiting (s.loan n).bay, 1 < (s.loan m).wait) :
    ∃ granted, (s.setLoan n { s.loan n with state := .lapsed }).examined s.takeTick (s.loan n).bay granted
      ∧ (s.grantAnswers granted).Sublist s.takeTick.exchange.answerList := by
  have held := State.lapsesNext_held due
  have lapsed : (s.lapsesDone.loan n).state = .lapsed ∧ (s.lapsesDone.loan n).bay = (s.loan n).bay := by
    rw [State.lapsesDone_loan_lapsed due]; exact ⟨if_pos idle, rfl⟩
  have out : ∀ b, n ∉ s.waiting b := listed.absent (by rw [held]; decide)
  have mem : (s.loan n).bay ∈ s.tickBays := by
    refine List.mem_filter.2 ⟨List.mem_range.2 bound, ?_⟩
    rw [Bool.or_eq_true]
    refine .inr (List.contains_iff_mem.2 (List.mem_map.2 ⟨n, List.mem_filter.2 ⟨(s.mem_expiriesDone_lapsing n).2 due, ?_⟩, lapsed.2⟩))
    rw [lapsed.1]; rfl
  obtain ⟨granted, examined, answers⟩ := State.lapsesDone_examined (v := s.setLoan n { s.loan n with state := .lapsed }) listed bound mem
    (List.filter_eq_self.2 fun m hm => decide_eq_true (waits m hm)).symm (fun m => by
      by_cases e : m = n
      · subst e
        refine .inr ⟨?_, ?_, out _⟩
        · rw [State.loan_setLoan, if_pos rfl]; rfl
        · rw [lapsed.1]; rfl
      · exact .inl ⟨by rw [State.loan_setLoan, if_neg e], alone m e⟩)
  refine ⟨granted, examined, ?_⟩
  have same : (s.setLoan n { s.loan n with state := .lapsed }).grantAnswers granted = s.grantAnswers granted := by
    unfold State.grantAnswers
    refine List.filterMap_congr fun m hm => ?_
    have on : m ∈ s.waiting (s.loan n).bay := examined.1.subset hm
    rw [State.loan_setLoan, if_neg (fun e : m = n => out _ (e ▸ on))]
  rwa [same] at answers

end

/-! ## A wait that expires -/

section
variable (waiting : (s.loan n).state = .waiting) (short : (s.loan n).wait ≤ 1) (bound : (s.loan n).bay < 24)
  (mem : n ∈ s.waiting (s.loan n).bay)
include waiting short bound mem

theorem State.expires : n ∈ s.expiring := State.mem_expiring_iff.2 ⟨⟨_, bound, mem⟩, waiting, short⟩

theorem State.expire_left : n ∉ s.lapsesDone.waiting (s.loan n).bay := by
  rw [State.lapsesDone, State.lapseAll_waiting]
  have left := State.expireAll_left (s := s.mapLoans Loan.countWait) (State.expires waiting short bound mem)
  rw [State.mapLoans_loan _ _ _ Loan.countWait_free, ((s.loan n).countWait_sameCourse).2.1] at left
  exact left

theorem State.expire_freed (once : ∀ b, b ≠ (s.loan n).bay → n ∉ s.waiting b) :
    s.takeTick.loan n = .free ∧ n ∉ s.takeTick.waiting (s.loan n).bay := by
  have left := State.expire_left waiting short bound mem
  constructor
  · rw [State.takeTick_loan_unlisted, State.lapsesDone_loan, if_pos (State.expires waiting short bound mem)]
    intro c on
    by_cases own : c = (s.loan n).bay
    · exact left (own ▸ on)
    · exact once c own ((s.lapsesDone_waiting_sublist c).subset on)
  · rw [s.takeTick_touches_examined.waiting]
    exact fun on => left ((State.examineAll_waiting_sublist _ _ _).subset on)

theorem State.expire_answer {c : Nat} (opening : (s.loan n).openingCell = some c) :
    plain c .waitExpired n ∈ s.takeTick.exchange.answerList := by
  have answer := State.expireAll_answer (s := s.mapLoans Loan.countWait) (c := c) (State.expires waiting short bound mem) (by
    rw [State.mapLoans_loan _ _ _ Loan.countWait_free, Loan.countWait_waiting waiting]; exact opening)
  have sub : [plain c .waitExpired n].Sublist s.termsCounted.exchange.answerList := List.singleton_sublist.2 answer
  obtain ⟨as, answered⟩ := s.termsCounted.lapseAll_answers s.expiriesDone.lapsing
  refine List.singleton_sublist.1 (s.takeTick_answers ?_)
  rw [State.lapsesDone_eq, answered.1]
  exact sub.trans (List.sublist_append_left _ _)

theorem State.expire_examined (listed : s.waitingListed) (none : ∀ m, s.lapsesNext (s.loan m) = false)
    (waits : ∀ m ∈ s.waiting (s.loan n).bay, m ≠ n → 1 < (s.loan m).wait) :
    ∃ granted, (s.freeLoan n).examined s.takeTick (s.loan n).bay granted
      ∧ (s.grantAnswers granted).Sublist s.takeTick.exchange.answerList := by
  have expires := State.expires waiting short bound mem
  have list : (s.freeLoan n).waiting (s.loan n).bay = (s.waiting (s.loan n).bay).filter (fun m => 1 < (s.loan m).wait) := by
    rw [State.freeLoan_waiting, if_pos rfl]
    refine List.filter_congr fun m hm => ?_
    rw [Bool.eq_iff_iff, bne_iff_ne, decide_eq_true_eq]
    exact ⟨waits m hm, fun long e => by rw [e] at long; exact absurd short (Nat.not_le.2 long)⟩
  have out : n ∉ (s.freeLoan n).waiting (s.loan n).bay := by
    rw [State.freeLoan_waiting, if_pos rfl]; simp
  have due : (s.loan n).bay ∈ s.tickBays := by
    refine List.mem_filter.2 ⟨List.mem_range.2 bound, ?_⟩
    rw [Bool.or_eq_true]
    exact .inl (List.contains_iff_mem.2 (List.mem_map_of_mem expires))
  obtain ⟨granted, examined, answers⟩ := State.lapsesDone_examined (v := s.freeLoan n) listed bound due list (fun m => by
    by_cases e : m = n
    · subst e
      refine .inr ⟨?_, ?_, out⟩
      · rw [State.freeLoan_loan, if_pos rfl]; rfl
      · rw [State.lapsesDone_loan, if_pos expires]; rfl
    · exact .inl ⟨by rw [State.freeLoan_loan, if_neg e], none m⟩)
  refine ⟨granted, examined, ?_⟩
  have same : (s.freeLoan n).grantAnswers granted = s.grantAnswers granted := by
    unfold State.grantAnswers
    refine List.filterMap_congr fun m hm => ?_
    have on := examined.1.subset hm
    rw [State.freeLoan_loan, if_neg (fun e : m = n => out (e ▸ on))]
  rwa [same] at answers

end

end

theorem State.serving_iff (s : State) : s.serving = true ↔ s.exchange.part ∈ [PartState.stopped, .running, .stopping] := by
  unfold State.serving; cases s.exchange.part <;> simp

theorem State.exec_termLapse (s : State) (n : Fin 512) :
    exec (.termLapse n) s = .next (if s.serving && s.lapsesNext (s.loan n) then s.tick else s) := rfl

theorem State.exec_waitExpired (s : State) (n : Fin 512) :
    exec (.waitExpired n) s = .next (if s.serving && (s.loan n).expiresNext then s.tick else s) := rfl

/-- Settles O44: the lapse and the expiry within the tick, and the examination behind them. -/
theorem loansLapseAndWaitsExpire : Obligations.LoansLapseAndWaitsExpire := by
  refine ⟨fun s n l part entry held short spins out => ?_, fun s n l part entry waiting short bound mem once => ?_⟩
  all_goals
    subst entry
    have serving := s.serving_iff.2 part
    obtain ⟨v, ticked, produced⟩ : ∃ v : State, s.tick = v.takeTick ∧ Touches [.clock] s v :=
      ⟨_, State.tick_serving serving, s.clock_touches _⟩
    have loan : ∀ m, v.loan m = s.loan m := fun m => produced.loan m
    have lists : ∀ b, v.waiting b = s.waiting b := fun b => produced.waiting b
    have lapses := produced.lapsesNext
  · have due : s.lapsesNext (s.loan n) = true := by
      simp only [State.lapsesNext, Bool.and_eq_true, beq_iff_eq, decide_eq_true_eq, bne_iff_ne]
      exact ⟨⟨held, short⟩, spins⟩
    have vdue : v.lapsesNext (v.loan n) = true := by rw [lapses, loan]; exact due
    obtain ⟨queued, flag⟩ := State.lapse_queued vdue
    refine ⟨v.takeTick, ?_, ?_, queued, flag, fun c x transfer named => ?_, fun alone => ?_, fun idle bound listed alone waits => ?_⟩
    · rw [State.exec_termLapse, serving, due, ← ticked]; rfl
    · rw [State.takeTick_loan_unlisted fun c on => out c (lists c ▸ (v.lapsesDone_waiting_sublist c).subset on),
        State.lapsesDone_loan_lapsed vdue, loan]
      rfl
    · rw [← loan]
      exact State.lapse_orders vdue ((produced.transfer c).trans transfer) named
    · have answers := State.lapse_answers vdue (by simpa only [loan, lapses] using alone)
      simpa only [loan, produced.fifo, produced.transfer] using answers
    · obtain ⟨granted, examined, answers⟩ := State.lapse_examined vdue (by rwa [loan]) (by rwa [loan])
        (listed.congr loan lists) (by simpa only [loan, lapses] using alone) (by simpa only [loan, lists] using waits)
      refine ⟨granted, ?_, by rwa [State.grantAnswers_of_loans produced.loans] at answers⟩
      rw [loan] at examined
      exact examined.seen (by simp only [State.setLoan, produced.loans])
  · have due : (s.loan n).expiresNext = true := by
      rw [Loan.expiresNext, waiting, decide_eq_true short]; rfl
    have vwaiting : (v.loan n).state = .waiting := by rwa [loan]
    have vshort : (v.loan n).wait ≤ 1 := by rwa [loan]
    have vbound : (v.loan n).bay < 24 := by rwa [loan]
    have vmem : n.val ∈ v.waiting (v.loan n).bay := by rwa [loan, lists]
    obtain ⟨freed, left⟩ := State.expire_freed vwaiting vshort vbound vmem (by simpa only [loan, lists] using once)
    rw [loan] at left
    refine ⟨v.takeTick, ?_, freed, left, fun c opening => State.expire_answer vwaiting vshort vbound vmem (by rwa [loan]),
      fun listed none waits => ?_⟩
    · rw [State.exec_waitExpired, serving, due, ← ticked]; rfl
    · obtain ⟨granted, examined, answers⟩ := State.expire_examined vwaiting vshort vbound vmem (listed.congr loan lists)
        (by simpa only [loan, lapses] using none) (by simpa only [loan, lists] using waits)
      refine ⟨granted, ?_, by rwa [State.grantAnswers_of_loans produced.loans] at answers⟩
      rw [loan] at examined
      exact examined.seen (State.freeLoan_loans_congr produced.loans).symm

/-! ## The Loan Clock's interval (R146) -/

theorem prescaleOf_pos (code : Nat) : 0 < prescaleOf code := by
  unfold prescaleOf; split <;> decide

/-- The Loan Clock k is n cycles past the clock c that began with its counters at 0. -/
structure LoanClock.Past (c k : LoanClock) (n : Nat) : Prop where
  code : k.prescaleCode = c.prescaleCode
  period : k.period = c.period
  prescaler : k.prescaler < prescaleOf c.prescaleCode
  counter : k.periodCounter ≤ c.period
  count : prescaleOf c.prescaleCode * k.periodCounter + k.prescaler = n

section
variable {c k : LoanClock} {n : Nat}

/-- A whole period counter's worth of cycles is no more than the interval. -/
theorem LoanClock.Past.within (h : c.Past k n) : prescaleOf c.prescaleCode * (k.periodCounter + 1) ≤ c.interval :=
  Nat.mul_le_mul_left _ (Nat.succ_le_succ h.counter)

/-- A tick is produced at the last cycle of the interval. -/
theorem LoanClock.Past.cycle_due (h : c.Past k n) : k.cycle.2 = true ↔ n + 1 = c.interval := by
  have within := h.within
  have prescaler := h.prescaler
  have count := h.count
  rw [Nat.mul_succ] at within
  unfold LoanClock.cycle
  rw [h.code, h.period]
  split
  · next more => exact ⟨nofun, fun e => by omega⟩
  · next whole =>
    split
    · next more =>
      refine ⟨nofun, fun e => ?_⟩
      have less : prescaleOf c.prescaleCode * (k.periodCounter + 1) < c.interval :=
        Nat.mul_lt_mul_of_pos_left more (prescaleOf_pos _)
      rw [Nat.mul_succ] at less
      omega
    · next last =>
      have counter : k.periodCounter = c.period := by have := h.counter; omega
      refine ⟨fun _ => ?_, fun _ => rfl⟩
      rw [LoanClock.interval, Nat.mul_succ, ← counter]; omega

theorem LoanClock.Past.cycle (h : c.Past k n) (early : n + 1 < c.interval) : c.Past k.cycle.1 (n + 1) := by
  have prescaler := h.prescaler
  have count := h.count
  have not_due : ¬k.cycle.2 = true := fun due => by have := h.cycle_due.1 due; omega
  unfold LoanClock.cycle at not_due ⊢
  rw [h.code, h.period] at not_due ⊢
  split at not_due
  · next more => rw [if_pos more]; exact ⟨rfl, rfl, more, h.counter, by simp only; omega⟩
  · next whole =>
    rw [if_neg whole]
    split at not_due
    · next more =>
      rw [if_pos more]
      exact ⟨rfl, rfl, prescaleOf_pos _, Nat.le_of_lt_succ more, by simp only [Nat.mul_succ]; omega⟩
    · exact absurd rfl not_due

theorem LoanClock.past_repeat (prescaler : c.prescaler = 0) (counter : c.periodCounter = 0) (h : n < c.interval) :
    c.Past (Nat.repeat (fun k : LoanClock => k.cycle.1) n c) n := by
  induction n with
  | zero => exact ⟨rfl, rfl, by rw [Nat.repeat, prescaler]; exact prescaleOf_pos _, by rw [Nat.repeat, counter]; exact Nat.zero_le _,
      by rw [Nat.repeat, prescaler, counter]; rfl⟩
  | succ n ih => exact (ih (Nat.lt_of_succ_lt h)).cycle h

end

/-! ## Bay records within a tick -/

section
variable {s u : State} {b c : Nat}

theorem Bay.asked_online {v : Bay} (h : v.state = .online) : v.asked = v :=
  Bay.asked_other (by rw [h]; decide) (by rw [h]; decide)

/-- A bay record takes no request for a spin-up, or takes it by its state (R68). -/
theorem State.requestSpinUp_bay (s : State) (c b : Nat) : (s.requestSpinUp c).bay b = s.bay b ∨ (s.requestSpinUp c).bay b = (s.bay b).asked := by
  by_cases asks : s.asksSpinUp c
  · rw [(State.requestSpinUp_asked asks).2]
    split
    · next own => rw [own]; exact .inr rfl
    · exact .inl rfl
  · rw [State.requestSpinUp_none asks]; exact .inl rfl

theorem State.requestSpinUps_bay (s : State) (b : Nat) : s.requestSpinUps.bay b = s.bay b ∨ s.requestSpinUps.bay b = (s.bay b).asked := by
  obtain ⟨-, bay⟩ := State.requestSpinUp_fold allBays s List.nodup_range
  by_cases asks : b ∈ allBays ∧ s.asksSpinUp b
  · exact .inr ((bay b).1 asks)
  · exact .inl ((bay b).2 asks)

/-- A bay record that is not ONLINE, or whose idle ticks are 0, stays so when a spin-up is asked for. -/
theorem Bay.asked_cases (v : Bay) : (v.state ≠ .online → v.asked.state ≠ .online) ∧ (v.idleTicks = 0 → v.asked.idleTicks = 0) := by
  unfold Bay.asked
  split
  · exact ⟨fun _ => by simp [Bay.startingUp], fun _ => rfl⟩
  · next st => exact ⟨fun _ => by simp [st], fun h => h⟩
  · exact ⟨id, id⟩

/-- A command that is sent, or waits to be, changes neither the state nor any other bay. -/
theorem State.send_bay_state (s : State) (b c : Nat) (d : Command) : ((s.send b d).bay c).state = (s.bay c).state := by
  unfold State.send
  dsimp only
  split
  all_goals
    rw [State.bay_setBay]
    split
    · next own => rw [own]
    · rfl

theorem State.send_bay_other (s : State) (d : Command) (h : c ≠ b) : (s.send b d).bay c = s.bay c := by
  unfold State.send
  dsimp only
  split <;> rw [State.bay_setBay, if_neg h]

theorem State.send_bay_congr (bay : u.bay b = s.bay b) (ready : u.readyHigh b = s.readyHigh b) (d : Command) :
    (u.send b d).bay b = (s.send b d).bay b := by
  unfold State.send
  dsimp only
  rw [bay, ready]
  split <;> rw [State.bay_setBay, State.bay_setBay, if_pos rfl, if_pos rfl]

theorem State.completionTest_bay_state (s : State) (b c : Nat) : ((s.completionTest b).bay c).state = (s.bay c).state := by
  unfold State.completionTest
  split
  · exact s.send_bay_state b c _
  · rfl

/-- The completion test acts on a RETIRING bay alone. -/
theorem State.completionTest_bay (s : State) (b c : Nat) (h : (s.bay c).state ≠ .retiring) : (s.completionTest b).bay c = s.bay c := by
  unfold State.completionTest
  split
  · next tested =>
    refine s.send_bay_other _ fun own => h ?_
    simp only [Bool.and_eq_true, beq_iff_eq] at tested
    rw [own]; exact tested.1.1.1
  · rfl

theorem State.completionTests_bay_state (s : State) (bs : List Nat) (c : Nat) : ((s.completionTests bs).bay c).state = (s.bay c).state := by
  induction bs generalizing s with
  | nil => rfl
  | cons b bs ih => exact (ih (s.completionTest b)).trans (s.completionTest_bay_state b c)

theorem State.completionTests_bay (s : State) (bs : List Nat) (c : Nat) (h : (s.bay c).state ≠ .retiring) :
    (s.completionTests bs).bay c = s.bay c := by
  induction bs generalizing s with
  | nil => rfl
  | cons b bs ih =>
    have kept := s.completionTest_bay b c h
    exact (ih (s.completionTest b) (by rw [kept]; exact h)).trans kept

theorem State.removeQueued_bay (s : State) (b g : Nat) (p : Nat → Bool) (c : Nat) :
    (s.removeQueued b g p).bay c = s.bay c ∨ (s.removeQueued b g p).bay c = (s.bay c).asked := by
  unfold State.removeQueued
  dsimp only
  split
  · exact .inl rfl
  · split
    · have settled : ∀ u : State, ∀ fuel, (u.settleHead fuel b g).bay c = u.bay c := fun u fuel => (u.settleHead_touches fuel b g).bay c
      unfold State.becomeHead
      rcases State.requestSpinUp_bay (State.settleHead _ _ b g) b c with e | e <;> rw [e, settled]
      · exact .inl rfl
      · exact .inr rfl
    · exact .inl rfl

theorem State.lapseLoan_bay (s : State) (n c : Nat) :
    (s.lapseLoan n).bay c = s.bay c ∨ (s.lapseLoan n).bay c = (s.bay c).asked := by
  rw [State.lapseLoan, (State.pushLapse_touches ..).bay, (State.setLoan_touches ..).bay]
  have replied := (s.replyAll_touches ((s.fifo (s.loan n).bay (s.loan n).group).orders.filter (s.isTransferOf n)) .lapsed n).bay c
  rcases State.removeQueued_bay (s.replyAll ((s.fifo (s.loan n).bay (s.loan n).group).orders.filter (s.isTransferOf n)) .lapsed n)
    (s.loan n).bay (s.loan n).group (s.isTransferOf n) c with e | e <;> rw [e, replied]
  · exact .inl rfl
  · exact .inr rfl

/-- No bay becomes ONLINE while loans lapse. -/
theorem State.lapseAll_offline (ns : List Nat) (h : (s.bay c).state ≠ .online) : ((s.lapseAll ns).bay c).state ≠ .online := by
  induction ns generalizing s with
  | nil => exact h
  | cons n ns ih =>
    refine ih (s := s.lapseLoan n) ?_
    rcases s.lapseLoan_bay n c with e | e <;> rw [e]
    · exact h
    · exact (s.bay c).asked_cases.1 h

theorem State.loanTick_offline (h : (s.bay c).state ≠ .online) : (s.loanTick.bay c).state ≠ .online := by
  rw [State.loanTick_eq, State.completionTests_bay_state, (State.examineAll_touches ..).bay, State.lapsesDone_eq]
  exact State.lapseAll_offline _ (by rw [s.termsCounted_touches.bay]; exact h)

/-- Where no loan lapses the Loan Manager's tick leaves the record of an ONLINE bay, and what work a bay has. -/
theorem State.loanTick_quiet (none : ∀ n, s.lapsesNext (s.loan n) = false) :
    (∀ b, (s.bay b).state = .online → s.loanTick.bay b = s.bay b) ∧ ∀ b, s.loanTick.hasWork b = s.hasWork b := by
  have empty : s.expiriesDone.lapsing = [] := List.eq_nil_iff_forall_not_mem.2 fun n hn => by
    rw [s.mem_expiriesDone_lapsing, none] at hn; cases hn
  have quiet : Touches [.answers, .lapseQueue, .loans, .notices] s (s.lapsesDone.examineAll s.tickBays) := by
    refine (State.examineAll_touches ..).after rfl ?_
    rw [State.lapsesDone_eq, empty]; exact s.termsCounted_touches
  refine ⟨fun b online => ?_, fun b => ?_⟩
  · rw [State.loanTick_eq, State.completionTests_bay _ _ _ (by rw [quiet.bay, online]; decide), quiet.bay]
  · rw [s.loanTick_touches_examined.hasWork, quiet.hasWork]

/-! ## The Bay Controller's tick (R130, R131) -/

theorem State.idleTick_bay_other (s : State) (h : c ≠ b) : (s.idleTick b).bay c = s.bay c := by
  unfold State.idleTick
  split
  · rw [State.send_bay_other _ _ h]
    exact State.bay_setBay .. |>.trans (if_neg h)
  · rw [State.bay_setBay, if_neg h]

/-- What the tick does to a bay depends on its own record, its work and its ready line. -/
theorem State.idleTick_bay_congr (bay : u.bay b = s.bay b) (work : u.hasWork b = s.hasWork b) (ready : u.readyHigh b = s.readyHigh b) :
    (u.idleTick b).bay b = (s.idleTick b).bay b := by
  have idle : u.idleAfter b = s.idleAfter b := by simp only [State.idleAfter, bay, work]
  have spins : u.spinsDown b = s.spinsDown b := by simp only [State.spinsDown, bay, work, ready, idle]
  have own : ∀ (w : State) v, (w.putBay b v).bay b = v := fun w v => (State.bay_setBay ..).trans (if_pos rfl)
  unfold State.idleTick
  rw [spins, bay, idle]
  split
  · exact State.send_bay_congr ((own u _).trans (own s _).symm) ready _
  · rw [State.bay_setBay, State.bay_setBay, if_pos rfl, if_pos rfl]

/-- The Bay Controller takes a tick. -/
def State.idleTicks (s : State) : State := allBays.foldl (fun s b => s.idleTick b) s

theorem State.takeTick_eq (s : State) : s.takeTick = s.loanTick.idleTicks.meterTick.beginRecords := rfl

theorem State.idleTicks_bay (s : State) (bound : b < 24) : s.idleTicks.bay b = (s.idleTick b).bay b := by
  have each : ∀ (bs : List Nat) (u : State), bs.Nodup → b ∈ bs → Touches [.ports, .records] s u → u.bay b = s.bay b →
      (bs.foldl (fun s b => s.idleTick b) u).bay b = (s.idleTick b).bay b := by
    have out : ∀ (bs : List Nat) (u : State), b ∉ bs → (bs.foldl (fun s b => s.idleTick b) u).bay b = u.bay b := by
      intro bs
      induction bs with
      | nil => exact fun u _ => rfl
      | cons c bs ih =>
        intro u out
        exact (ih _ (fun h => out (List.mem_cons_of_mem _ h))).trans
          (u.idleTick_bay_other (fun e : b = c => out (e ▸ List.mem_cons_self)))
    intro bs
    induction bs with
    | nil => exact fun u _ mem => absurd mem List.not_mem_nil
    | cons c bs ih =>
      intro u once mem touched same
      obtain ⟨fresh, once⟩ := List.nodup_cons.1 once
      rw [List.foldl_cons]
      by_cases own : b = c
      · subst own
        rw [out bs _ fresh]
        exact State.idleTick_bay_congr same (touched.hasWork b) (touched.readyHigh b)
      · exact ih _ once ((List.mem_cons.1 mem).resolve_left own) (touched.trans (u.idleTick_touches c))
          ((u.idleTick_bay_other own).trans same)
  exact each allBays s List.nodup_range (List.mem_range.2 bound) (Touches.refl _ s) rfl

theorem State.idleTick_offline (s : State) (h : (s.bay b).state ≠ .online) : ((s.idleTick b).bay b).idleTicks = 0 := by
  have stays : s.spinsDown b = false := by
    simp only [State.spinsDown, Bool.and_eq_false_iff, beq_eq_false_iff_ne]
    exact .inl (.inl (.inl (.inl h)))
  rw [State.idleTick, if_neg (by rw [stays]; simp), State.bay_setBay, if_pos rfl]
  exact if_neg fun k => h k.1

theorem State.idleTick_stays (s : State) (stays : s.spinsDown b = false) :
    (s.idleTick b).bay b = { s.bay b with idleTicks := s.idleAfter b } := by
  rw [State.idleTick, if_neg (by rw [stays]; simp), State.bay_setBay, if_pos rfl]

/-- The counters of every group are latched and its pending cap comes into force (R56, R154). -/
def State.latchGroups (s : State) : State :=
  allGroups.foldl (fun s g => (s.setMeter g (s.meter g).latch).setGroup g (s.group g).periodEnd) s

/-- The period end before its two requests. -/
def State.latched (s : State) : State :=
  { s.latchGroups with meters := { s.latchGroups.meters with
      noGroup := s.latchGroups.meters.noGroup.latch, periodSeq := s.latchGroups.meters.periodSeq + 1,
      endStamp := s.latchGroups.clock.tickCount } }

theorem State.periodEnd_eq (s : State) : s.periodEnd = s.latched.requestSpinUps.requestMeter := rfl

theorem State.setMeters_touches (s : State) (m : Meters) : Touches [.meters] s { s with meters := m } := by
  refine ⟨fun p out => ?_⟩
  cases p
  case meters => exact absurd (by decide) out
  all_goals and_intros <;> rfl

theorem State.latched_touches (s : State) : Touches [.groups, .meters] s s.latched :=
  (State.setMeters_touches _ _).after rfl
    (Touches.foldl (fun _ _ => (State.setGroup_touches ..).after rfl ((State.setMeter_touches ..).mono rfl)) (Touches.refl _ s))

/-- A period end asks bays for spin-ups, and does no more to their records. -/
theorem State.meterTick_bay (s : State) (b : Nat) : s.meterTick.bay b = s.bay b ∨ s.meterTick.bay b = (s.bay b).asked := by
  unfold State.meterTick
  split
  · have same := (State.latched_touches { s with clock := { s.clock with meterTickCount := 0 } }).bay b
    rw [(s.clock_touches _).bay] at same
    rw [State.periodEnd_eq, (State.requestMeter_touches _).bay, ← same]
    exact State.requestSpinUps_bay _ b
  · exact .inl rfl

/-- The meter tick count rises, or returns to 0 at METER_TICKS (R147). -/
theorem State.meterTick_clock (s : State) : s.meterTick.clock = { s.clock with meterTickCount :=
    if s.clock.meterTicks ≤ s.clock.meterTickCount + 1 then 0 else s.clock.meterTickCount + 1 } := by
  unfold State.meterTick State.periodEndsNext
  simp only [decide_eq_true_eq]
  split
  · exact (State.periodEnd_touches _).clock
  · rfl

end

/-! ## What a tick counts (R12, R130, R147) -/

section
variable {s : State} {n b : Nat}

theorem State.idleTicks_touches (s : State) : Touches [.ports, .records] s s.idleTicks :=
  Touches.foldl (fun u b => u.idleTick_touches b) (Touches.refl _ s)

/-- The clock when a tick has been taken: the meter tick count rises, or returns to 0 (R147). -/
theorem State.takeTick_clock (s : State) : s.takeTick.clock = { s.clock with meterTickCount :=
    if s.clock.meterTicks ≤ s.clock.meterTickCount + 1 then 0 else s.clock.meterTickCount + 1 } := by
  have before : s.loanTick.idleTicks.clock = s.clock := s.loanTick.idleTicks_touches.clock.trans s.loanTick_touches.clock
  rw [State.takeTick_eq, (State.beginRecords_touches _).clock, State.meterTick_clock, before]

/-- The term of a HELD loan that waits nowhere counts, unless its bay is SPINNING_UP (R12). -/
theorem State.takeTick_held (held : (s.loan n).state = .held) (out : ∀ b, n ∉ s.waiting b) (stays : s.lapsesNext (s.loan n) = false) :
    s.takeTick.loan n = s.countTerm (s.loan n) := by
  rw [State.takeTick_loan_unlisted (fun c on => out c ((s.lapsesDone_waiting_sublist c).subset on)), State.lapsesDone_loan,
    if_neg (fun e => by rw [(State.mem_expiring e).1] at held; cases held), if_neg (by rw [stays]; simp), Loan.countWait,
    if_neg (by rw [held]; decide)]

/-- The wait of a loan that still waits has counted (R10). -/
theorem State.takeTick_waiting (waiting : (s.loan n).state = .waiting) (long : 1 < (s.loan n).wait)
    (still : (s.takeTick.loan n).state = .waiting) : (s.takeTick.loan n).wait = (s.loan n).wait - 1 := by
  have before : s.lapsesDone.loan n = { s.loan n with wait := (s.loan n).wait - 1 } := by
    rw [State.lapsesDone_loan, if_neg (fun e => absurd (State.mem_expiring e).2 (Nat.not_le.2 long)),
      if_neg (fun due => by rw [State.lapsesNext_held due] at waiting; cases waiting), Loan.countWait_waiting waiting,
      State.countTerm_unheld (by rw [waiting]; decide)]
  rw [s.takeTick_touches_examined.loan] at still ⊢
  rcases s.lapsesDone.examineAll_loan s.tickBays n with e | ⟨e, -⟩
  · rw [e, before]
  · rw [e] at still; cases still

/-- A bay that is not ONLINE holds its idle ticks at 0 (R130). -/
theorem State.takeTick_offline (bound : b < 24) (h : (s.bay b).state ≠ .online) : (s.takeTick.bay b).idleTicks = 0 := by
  have idle : (s.loanTick.idleTicks.bay b).idleTicks = 0 := by
    rw [State.idleTicks_bay _ bound]; exact State.idleTick_offline _ (State.loanTick_offline h)
  rw [State.takeTick_eq, (State.beginRecords_touches _).bay]
  rcases State.meterTick_bay s.loanTick.idleTicks b with e | e <;> rw [e]
  · exact idle
  · exact (Bay.asked_cases _).2 idle

/-- An ONLINE bay that does not spin down has its idle ticks counted, and nothing else of it changes, where no loan lapses (R130). -/
theorem State.takeTick_online (bound : b < 24) (online : (s.bay b).state = .online) (none : ∀ n, s.lapsesNext (s.loan n) = false)
    (stays : s.spinsDown b = false) : s.takeTick.bay b = { s.bay b with idleTicks := s.idleAfter b } := by
  obtain ⟨quiet, work⟩ := State.loanTick_quiet none
  have idled : s.loanTick.idleTicks.bay b = { s.bay b with idleTicks := s.idleAfter b } := by
    rw [State.idleTicks_bay _ bound, State.idleTick_bay_congr (quiet b online) (work b) (s.loanTick_touches.readyHigh b),
      State.idleTick_stays s stays]
  have kept : (s.loanTick.idleTicks.bay b).state = .online := by rw [idled]; exact online
  rw [State.takeTick_eq, (State.beginRecords_touches _).bay, ← idled]
  rcases State.meterTick_bay s.loanTick.idleTicks b with e | e <;> rw [e]
  exact Bay.asked_online kept

end

/-- A tick in a part that serves (R147). -/
theorem State.tick_taken {s : State} (serving : s.serving = true) :
    (∀ n, (s.loan n).state = .held → (∀ b, n ∉ s.waiting b) →
        ((s.bay (s.loan n).bay).state ≠ .spinningUp → 1 < (s.loan n).term →
          s.tick.loan n = { s.loan n with term := (s.loan n).term - 1 })
        ∧ ((s.bay (s.loan n).bay).state = .spinningUp → s.tick.loan n = s.loan n))
      ∧ (∀ n, (s.loan n).state = .waiting → 1 < (s.loan n).wait → (s.tick.loan n).state = .waiting →
        (s.tick.loan n).wait = (s.loan n).wait - 1)
      ∧ s.tick.clock = { s.clock.produce with meterTickCount :=
          if s.clock.meterTicks ≤ s.clock.meterTickCount + 1 then 0 else s.clock.meterTickCount + 1 }
      ∧ (∀ b, b < 24 → (s.bay b).state ≠ .online → (s.tick.bay b).idleTicks = 0)
      ∧ ((∀ n, s.lapsesNext (s.loan n) = false) → ∀ b, b < 24 → (s.bay b).state = .online →
        (s.hasWork b = true → s.tick.bay b = { s.bay b with idleTicks := 0 })
        ∧ (s.hasWork b = false →
            (s.bay b).spinIdle = 0 ∨ min 65535 ((s.bay b).idleTicks + 1) < (s.bay b).spinIdle ∨ (s.lines b).ready = false →
            s.tick.bay b = { s.bay b with idleTicks := min 65535 ((s.bay b).idleTicks + 1) })) := by
  obtain ⟨v, ticked, clock, produced⟩ : ∃ v : State, s.tick = v.takeTick ∧ v.clock = s.clock.produce ∧ Touches [.clock] s v :=
    ⟨{ s with clock := s.clock.produce }, State.tick_serving serving, rfl, s.clock_touches _⟩
  have loan : ∀ m, v.loan m = s.loan m := fun m => produced.loan m
  have lapses := produced.lapsesNext
  have bay : ∀ b, v.bay b = s.bay b := fun b => produced.bay b
  have lists : ∀ b, v.waiting b = s.waiting b := fun b => produced.waiting b
  have work : ∀ b, v.hasWork b = s.hasWork b := fun b => produced.hasWork b
  rw [ticked]
  refine ⟨fun n held out => ?_, fun n waiting long still => ?_, ?_, fun b bound offline => ?_, fun none b bound online => ?_⟩
  · have counts : v.lapsesNext (s.loan n) = false → v.takeTick.loan n = v.countTerm (s.loan n) := fun stays => by
      rw [State.takeTick_held (by rwa [loan]) (by simpa only [lists] using out) (by rwa [loan]), loan]
    constructor
    · intro up long
      have stays : v.lapsesNext (s.loan n) = false := by
        rw [← Bool.not_eq_true]
        simp only [State.lapsesNext, Bool.and_eq_true, decide_eq_true_eq]
        exact fun due => absurd due.1.2 (Nat.not_le.2 long)
      rw [counts stays, State.countTerm, if_pos ⟨held, by rwa [bay]⟩]
    · intro up
      have stays : v.lapsesNext (s.loan n) = false := by
        rw [← Bool.not_eq_true]
        simp only [State.lapsesNext, Bool.and_eq_true, bne_iff_ne, bay]
        exact fun due => due.2 up
      rw [counts stays, State.countTerm, if_neg (fun k => k.2 (by rwa [bay]))]
  · have counted := State.takeTick_waiting (s := v) (n := n) (by rw [loan]; exact waiting) (by rw [loan]; exact long) still
    rwa [loan] at counted
  · rw [State.takeTick_clock, clock]; rfl
  · exact State.takeTick_offline bound (by rwa [bay])
  · have idle : v.idleAfter b = if s.hasWork b = false then min 65535 ((s.bay b).idleTicks + 1) else 0 := by
      simp only [State.idleAfter, bay, work, online, true_and]
    have counts : v.spinsDown b = false → v.takeTick.bay b = { s.bay b with idleTicks := v.idleAfter b } := fun stays => by
      rw [State.takeTick_online bound (by rwa [bay]) (by simpa only [lapses, loan] using none) stays, bay]
    constructor
    · intro busy
      rw [counts (by simp only [State.spinsDown, work, busy, Bool.not_true, Bool.and_false, Bool.false_and]), idle, if_neg (by rw [busy]; simp)]
    · intro free cause
      rw [if_pos free] at idle
      have stays : v.spinsDown b = false := by
        rw [← Bool.not_eq_true]
        simp only [State.spinsDown, Bool.and_eq_true, decide_eq_true_eq, idle, bay, produced.readyHigh]
        rintro ⟨⟨⟨⟨-, some⟩, reached⟩, -⟩, high⟩
        rcases cause with none | early | low
        · omega
        · omega
        · exact absurd (low.symm.trans high) (by decide)
      rw [counts stays, idle]

/-! ## One cycle of the reference (R125, R136, R146) -/

/-- A step over the bays that changes the record of its own bay and queues commands, both by that record and the level of the ready line. -/
structure BayTimer (f : State → Fin 24 → State) (after : Bay → Bool → Bay) (due : Fin 24 → Bay → Bool → List Instr) : Prop where
  bay (s : State) (b : Fin 24) (c : Nat) : (f s b).bay c = if c = b then after (s.bay b) (s.readyHigh b) else s.bay c
  pending (s : State) (b : Fin 24) : (f s b).pending = s.pending ++ due b (s.bay b) (s.readyHigh b)
  touches (s : State) (b : Fin 24) : Touches [.records, .pending] s (f s b)

section
variable {f : State → Fin 24 → State} {after : Bay → Bool → Bay} {due : Fin 24 → Bay → Bool → List Instr}

theorem BayTimer.foldl_touches (h : BayTimer f after due) (bs : List (Fin 24)) (s : State) :
    Touches [.records, .pending] s (bs.foldl f s) :=
  Touches.foldl (fun u b => h.touches u b) (Touches.refl _ s)

/-- Over some bays, no bay twice, each record changes by its own step. -/
theorem BayTimer.foldl_bay (h : BayTimer f after due) (bs : List (Fin 24)) (once : bs.Nodup) (s : State) (c : Nat) :
    (bs.foldl f s).bay c = if ∃ b ∈ bs, b.val = c then after (s.bay c) (s.readyHigh c) else s.bay c := by
  induction bs generalizing s with
  | nil => simp
  | cons b bs ih =>
    obtain ⟨fresh, once⟩ := List.nodup_cons.1 once
    rw [List.foldl_cons, ih once, h.bay, (h.touches s b).readyHigh]
    by_cases own : c = b.val
    · subst own
      have out : ¬∃ d ∈ bs, d.val = b.val := fun ⟨d, hd, e⟩ => fresh (Fin.ext e ▸ hd)
      rw [if_neg out, if_pos rfl, if_pos ⟨b, List.mem_cons_self, rfl⟩]
    · have same : (∃ d ∈ b :: bs, d.val = c) ↔ ∃ d ∈ bs, d.val = c := by
        simp only [List.mem_cons, exists_eq_or_imp, or_iff_right (fun e : b.val = c => own e.symm)]
      simp only [if_neg own, same]

/-- The commands queued over some bays, no bay twice, are those each bay queues by its record. -/
theorem BayTimer.foldl_pending (h : BayTimer f after due) (bs : List (Fin 24)) (once : bs.Nodup) (s : State) :
    (bs.foldl f s).pending = s.pending ++ bs.flatMap (fun b => due b (s.bay b) (s.readyHigh b)) := by
  induction bs generalizing s with
  | nil => exact (List.append_nil _).symm
  | cons b bs ih =>
    obtain ⟨fresh, once⟩ := List.nodup_cons.1 once
    have rest : bs.flatMap (fun d => due d ((f s b).bay d) ((f s b).readyHigh d)) = bs.flatMap (fun d => due d (s.bay d) (s.readyHigh d)) :=
      List.flatMap_congr fun d hd => by
        rw [h.bay, if_neg (fun e : d.val = b.val => fresh ((Fin.ext e : d = b) ▸ hd)), (h.touches s b).readyHigh]
    rw [List.foldl_cons, ih once, h.pending, rest, List.flatMap_cons, List.append_assoc]

theorem BayTimer.all_bay (h : BayTimer f after due) (s : State) (c : Nat) :
    ((List.finRange 24).foldl f s).bay c = if c < 24 then after (s.bay c) (s.readyHigh c) else s.bay c := by
  have some : (∃ b ∈ List.finRange 24, b.val = c) ↔ c < 24 :=
    ⟨fun ⟨b, _, e⟩ => e ▸ b.isLt, fun lt => ⟨⟨c, lt⟩, List.mem_finRange _, rfl⟩⟩
  rw [h.foldl_bay _ (List.nodup_finRange 24)]
  simp only [some]

theorem BayTimer.all_pending (h : BayTimer f after due) (s : State) (e : Instr) :
    e ∈ ((List.finRange 24).foldl f s).pending ↔ e ∈ s.pending ∨ ∃ b : Fin 24, e ∈ due b (s.bay b) (s.readyHigh b) := by
  rw [h.foldl_pending _ (List.nodup_finRange 24), List.mem_append, List.mem_flatMap]
  simp only [List.mem_finRange, true_and]

end

/-! ### The command timers (R125) -/

/-- A bay record whose command timers have counted a microsecond. -/
def Bay.timersCounted (v : Bay) : Bay := { v with outstanding := v.outstanding.map Command.cycle }

/-- The command timeouts that come due at this microsecond. -/
def timeoutsDue (b : Fin 24) (v : Bay) : List Instr :=
  ((v.outstanding.map Command.cycle).filter Command.due).map (fun c => .cmdTimeout b ⟨tagOperand c.tag, c.number⟩)

theorem cycleBay_timer : BayTimer State.cycleBay (fun v _ => v.timersCounted) (fun b v _ => timeoutsDue b v) where
  bay s b c := State.bay_setBay s b c _
  pending _ _ := rfl
  touches _ _ := ((State.setBay_touches ..).mono rfl).trans ((State.queue_touches ..).mono rfl)

/-! ### The millisecond timers (R128, R132, R136) -/

/-- A bay record whose ready-low timer and operation timer have counted a millisecond. -/
def Bay.milliCounted (v : Bay) (high : Bool) : Bay :=
  { v with readyLow := if v.watched && !high then v.readyLow + 1 else v.readyLow,
           opTimer := if v.operating then v.opTimer + 1 else v.opTimer }

/-- The commands of a bay that come due at this millisecond. -/
def millisDue (b : Fin 24) (v : Bay) (high : Bool) : List Instr :=
  (if (v.watched && !high) = true ∧ v.readyLow + 1 = Config.readyLowLimitMs then [.readyLost b] else [])
    ++ if v.operating = true ∧ v.opTimer + 1 = Config.operationLimitMs then [.operationTimeout b] else []

theorem State.milliReady_bay (s : State) (b : Fin 24) (c : Nat) : (s.milliReady b).bay c = if c = b then
    { s.bay b with readyLow := if (s.bay b).watched && !s.readyHigh b then (s.bay b).readyLow + 1 else (s.bay b).readyLow }
    else s.bay c := by
  unfold State.milliReady
  dsimp only
  split
  · exact State.bay_setBay ..
  · split
    · next own => rw [own]
    · rfl

theorem State.milliOperation_bay (s : State) (b : Fin 24) (c : Nat) : (s.milliOperation b).bay c = if c = b then
    { s.bay b with opTimer := if (s.bay b).operating then (s.bay b).opTimer + 1 else (s.bay b).opTimer } else s.bay c := by
  unfold State.milliOperation
  dsimp only
  split
  · exact State.bay_setBay ..
  · split
    · next own => rw [own]
    · rfl

theorem State.milliReady_pending (s : State) (b : Fin 24) : (s.milliReady b).pending = s.pending ++
    if ((s.bay b).watched && !s.readyHigh b) = true ∧ (s.bay b).readyLow + 1 = Config.readyLowLimitMs then [.readyLost b] else [] := by
  unfold State.milliReady
  dsimp only
  split
  · next counts => simp only [State.queue, counts, true_and]; rfl
  · next stands => rw [if_neg (fun k => stands k.1), List.append_nil]

theorem State.milliOperation_pending (s : State) (b : Fin 24) : (s.milliOperation b).pending = s.pending ++
    if (s.bay b).operating = true ∧ (s.bay b).opTimer + 1 = Config.operationLimitMs then [.operationTimeout b] else [] := by
  unfold State.milliOperation
  dsimp only
  split
  · next counts => simp only [State.queue, counts, true_and]; rfl
  · next stands => rw [if_neg (fun k => stands k.1), List.append_nil]

theorem millisecond_timer : BayTimer (fun s b => (s.milliReady b).milliOperation b) Bay.milliCounted millisDue where
  bay s b c := by
    rw [State.milliOperation_bay, State.milliReady_bay, State.milliReady_bay, if_pos rfl]
    split
    · rfl
    · rfl
  pending s b := by
    rw [State.milliOperation_pending, State.milliReady_pending, State.milliReady_bay, if_pos rfl, millisDue, List.append_assoc]; rfl
  touches s b := (s.milliReady_touches b).trans (State.milliOperation_touches _ b)

/-! ### The whole cycle -/

section
variable (s : State)

/-- The command timers of every bay have counted, behind the Loan Clock. -/
def State.timersCounted (s : State) : State := (List.finRange 24).foldl State.cycleBay s.cycleClock

/-- The sweep timer has counted where the cycle ends a millisecond. -/
def State.sweepCounted (s : State) : State := { s.timersCounted with clock := { s.timersCounted.clock with microseconds := 0 } }.milliSweep

theorem State.step_idle {s : State} (idle : s.pending = []) : step s = .next s.microsecond := by
  simp only [step, idle]

theorem State.microsecond_bringup {s : State} (h : s.exchange.part = .bringup) : s.microsecond = s.cycleClock := if_pos h

theorem State.microsecond_early {s : State} (h : s.exchange.part ≠ .bringup) (early : s.timersCounted.clock.microseconds + 1 < 1000) :
    s.microsecond = { s.timersCounted with clock := { s.timersCounted.clock with microseconds := s.timersCounted.clock.microseconds + 1 } } :=
  (if_neg h).trans (if_pos early)

theorem State.microsecond_milli {s : State} (h : s.exchange.part ≠ .bringup) (whole : ¬s.timersCounted.clock.microseconds + 1 < 1000) :
    s.microsecond = (List.finRange 24).foldl (fun s b => (s.milliReady b).milliOperation b) s.sweepCounted :=
  (if_neg h).trans (if_neg whole)

theorem State.cycleClock_touches' : Touches [.clock, .pending] s s.cycleClock :=
  ((s.clock_touches _).mono rfl).trans ((State.queue_touches ..).mono rfl)

theorem State.timersCounted_touches : Touches [.clock, .records, .pending] s s.timersCounted :=
  (cycleBay_timer.foldl_touches _ _).after rfl (s.cycleClock_touches'.mono rfl)

theorem State.timersCounted_clock : s.timersCounted.clock = s.clock.cycle.1 := (cycleBay_timer.foldl_touches _ s.cycleClock).clock

theorem LoanClock.cycle_microseconds (k : LoanClock) : k.cycle.1.microseconds = k.microseconds := by
  unfold LoanClock.cycle; repeat' split
  all_goals rfl

theorem State.timersCounted_bay (c : Nat) : s.timersCounted.bay c = if c < 24 then (s.bay c).timersCounted else s.bay c :=
  cycleBay_timer.all_bay s.cycleClock c

theorem State.timersCounted_exchange : s.timersCounted.exchange = s.exchange := by
  have each : ∀ (bs : List (Fin 24)) (u : State), (bs.foldl State.cycleBay u).exchange = u.exchange := by
    intro bs
    induction bs with
    | nil => exact fun u => rfl
    | cons b bs ih => exact fun u => ih (u.cycleBay b)
  exact each _ s.cycleClock

theorem State.timersCounted_pending {s : State} (idle : s.pending = []) (e : Instr) : e ∈ s.timersCounted.pending ↔
    (e = .tick ∧ s.clock.cycle.2 = true) ∨ ∃ b : Fin 24, e ∈ timeoutsDue b (s.bay b) := by
  have tick : e ∈ s.cycleClock.pending ↔ e = .tick ∧ s.clock.cycle.2 = true := by
    show e ∈ s.pending ++ (if s.clock.cycle.2 = true then [Instr.tick] else []) ↔ _
    rw [idle, List.nil_append]
    split
    · next due => simp [due]
    · next not => simp [not]
  rw [State.timersCounted, cycleBay_timer.all_pending, tick]
  exact Iff.rfl

/-- A bay is watched alike when its command timers have counted. -/
theorem Bay.timersCounted_watched (v : Bay) : v.timersCounted.watched = v.watched := by
  have kinds : ∀ d : Command, d.cycle.kind = d.kind := fun d => by unfold Command.cycle; split <;> rfl
  simp only [Bay.watched, Bay.timersCounted, List.any_map, Function.comp_def, kinds]

theorem State.sweepCounted_touches (s : State) : Touches [.clock, .records, .intake, .pending] s s.sweepCounted :=
  (State.milliSweep_touches _).after rfl ((s.timersCounted.clock_touches _).after rfl (s.timersCounted_touches.mono rfl))

theorem State.sweepCounted_clock (s : State) : s.sweepCounted.clock = { s.clock.cycle.1 with microseconds := 0 } := by
  rw [State.sweepCounted, (State.milliSweep_touches _).clock, State.timersCounted_clock]

theorem State.sweepCounted_bay (s : State) (c : Nat) : s.sweepCounted.bay c = if c < 24 then (s.bay c).timersCounted else s.bay c := by
  rw [State.sweepCounted, (State.milliSweep_touches _).bay, (State.clock_touches ..).bay, State.timersCounted_bay]

theorem State.milliSweep_exchange (s : State) : s.milliSweep.exchange =
    if s.exchange.sweepTimerOn = true then { s.exchange with sweepTimer := s.exchange.sweepTimer + 1 } else s.exchange := by
  unfold State.milliSweep
  dsimp only
  split <;> rfl

theorem State.milliSweep_pending (s : State) : s.milliSweep.pending = s.pending ++
    if s.exchange.sweepTimerOn = true ∧ max 1 s.exchange.control.sweepMs.toNat ≤ s.exchange.sweepTimer + 1 then [.sweep] else [] := by
  unfold State.milliSweep
  dsimp only
  split
  · next on => simp only [State.queue, on, true_and]
  · next off => rw [if_neg (fun k => off k.1), List.append_nil]

theorem State.milliseconds_exchange (s : State) (bs : List (Fin 24)) :
    (bs.foldl (fun s b => (s.milliReady b).milliOperation b) s).exchange = s.exchange := by
  have ready : ∀ (u : State) b, (u.milliReady b).exchange = u.exchange := fun u b => by
    unfold State.milliReady; dsimp only; split <;> rfl
  have operation : ∀ (u : State) b, (u.milliOperation b).exchange = u.exchange := fun u b => by
    unfold State.milliOperation; dsimp only; split <;> rfl
  induction bs generalizing s with
  | nil => rfl
  | cons b bs ih => exact (ih _).trans ((operation _ b).trans (ready s b))

end

theorem State.early_iff {s : State} : s.timersCounted.clock.microseconds + 1 < 1000 ↔ ¬1000 ≤ s.clock.microseconds + 1 := by
  rw [State.timersCounted_clock, LoanClock.cycle_microseconds, Nat.not_le]

section
variable {s : State} (part : s.exchange.part ≠ .bringup)
include part

theorem State.microsecond_clock : s.microsecond.clock = { s.clock.cycle.1 with microseconds :=
    if 1000 ≤ s.clock.microseconds + 1 then 0 else s.clock.microseconds + 1 } := by
  split
  · next milli =>
    rw [State.microsecond_milli part (fun early => State.early_iff.1 early milli), (millisecond_timer.foldl_touches _ _).clock,
      State.sweepCounted_clock]
  · next early =>
    rw [State.microsecond_early part (State.early_iff.2 early), State.timersCounted_clock, LoanClock.cycle_microseconds]

theorem State.microsecond_exchange : s.microsecond.exchange =
    if 1000 ≤ s.clock.microseconds + 1 ∧ s.exchange.sweepTimerOn = true then { s.exchange with sweepTimer := s.exchange.sweepTimer + 1 }
    else s.exchange := by
  by_cases milli : 1000 ≤ s.clock.microseconds + 1
  · rw [State.microsecond_milli part (fun early => State.early_iff.1 early milli), State.milliseconds_exchange,
      State.sweepCounted, State.milliSweep_exchange]
    simp only [milli, true_and, State.timersCounted_exchange]
  · rw [State.microsecond_early part (State.early_iff.2 milli), if_neg (fun k => milli k.1)]
    exact s.timersCounted_exchange

theorem State.microsecond_bay (c : Nat) : s.microsecond.bay c =
    if c < 24 then
      if 1000 ≤ s.clock.microseconds + 1 then (s.bay c).timersCounted.milliCounted (s.readyHigh c) else (s.bay c).timersCounted
    else s.bay c := by
  by_cases milli : 1000 ≤ s.clock.microseconds + 1
  · rw [State.microsecond_milli part (fun early => State.early_iff.1 early milli), millisecond_timer.all_bay,
      State.sweepCounted_bay, s.sweepCounted_touches.readyHigh, if_pos milli]
    split <;> rfl
  · rw [State.microsecond_early part (State.early_iff.2 milli), (State.clock_touches ..).bay, State.timersCounted_bay, if_neg milli]

theorem State.microsecond_pending (idle : s.pending = []) (e : Instr) : e ∈ s.microsecond.pending ↔
    (e = .tick ∧ s.clock.cycle.2 = true) ∨ (∃ b : Fin 24, e ∈ timeoutsDue b (s.bay b))
      ∨ (1000 ≤ s.clock.microseconds + 1 ∧ e = .sweep ∧ s.exchange.sweepTimerOn = true
          ∧ max 1 s.exchange.control.sweepMs.toNat ≤ s.exchange.sweepTimer + 1)
      ∨ 1000 ≤ s.clock.microseconds + 1 ∧ ∃ b : Fin 24, e ∈ millisDue b (s.bay b).timersCounted (s.readyHigh b) := by
  by_cases milli : 1000 ≤ s.clock.microseconds + 1
  · have sweep : (e ∈ if s.exchange.sweepTimerOn = true ∧ max 1 s.exchange.control.sweepMs.toNat ≤ s.exchange.sweepTimer + 1
        then [Instr.sweep] else []) ↔ e = .sweep ∧ s.exchange.sweepTimerOn = true
          ∧ max 1 s.exchange.control.sweepMs.toNat ≤ s.exchange.sweepTimer + 1 := by
      split
      · next due => simp [due]
      · next not => exact ⟨fun h => absurd h List.not_mem_nil, fun h => absurd h.2 not⟩
    have bays : ∀ b : Fin 24, s.sweepCounted.bay b = (s.bay b).timersCounted := fun b => by
      rw [State.sweepCounted_bay, if_pos b.isLt]
    rw [State.microsecond_milli part (fun early => State.early_iff.1 early milli), millisecond_timer.all_pending]
    rw [State.sweepCounted, State.milliSweep_pending, List.mem_append, ← State.sweepCounted]
    simp only [State.timersCounted_exchange, State.timersCounted_pending idle, sweep, bays, s.sweepCounted_touches.readyHigh, milli, true_and,
      or_assoc]
  · rw [State.microsecond_early part (State.early_iff.2 milli)]
    simp only [State.timersCounted_pending idle, milli, false_and, or_false]

end

/-! ### The words of the statement -/

theorem CommandKind.waitsForReady_iff (k : CommandKind) : k.waitsForReady = true ↔ k = .read ∨ k = .write ∨ k = .standby := by
  cases k <;> simp [CommandKind.waitsForReady]

theorem Command.cycle_eq (d : Command) :
    d.cycle = if d.kind = .read ∨ d.kind = .write ∨ d.kind = .standby then { d with timer := d.timer + 1 } else d := by
  unfold Command.cycle
  simp only [CommandKind.waitsForReady_iff]

theorem mem_timeoutsDue {b : Fin 24} {v : Bay} {e : Instr} : e ∈ timeoutsDue b v ↔
    ∃ d ∈ v.outstanding, (d.kind = .read ∨ d.kind = .write ∨ d.kind = .standby) ∧ d.timer + 1 = 8000000
      ∧ e = .cmdTimeout b ⟨tagOperand d.tag, d.number⟩ := by
  simp only [timeoutsDue, List.mem_map, List.mem_filter]
  constructor
  · rintro ⟨_, ⟨⟨d, hd, rfl⟩, due⟩, rfl⟩
    rw [Command.due, Bool.and_eq_true, beq_iff_eq] at due
    have timed : d.kind = .read ∨ d.kind = .write ∨ d.kind = .standby := by
      rw [← CommandKind.waitsForReady_iff]
      rw [Command.cycle] at due
      split at due
      · next w => exact w
      · exact due.1
    rw [Command.cycle_eq, if_pos timed] at due ⊢
    exact ⟨d, hd, timed, due.2, rfl⟩
  · rintro ⟨d, hd, timed, limit, rfl⟩
    refine ⟨d.cycle, ⟨⟨d, hd, rfl⟩, ?_⟩, ?_⟩
    · rw [Command.cycle_eq, if_pos timed, Command.due, Bool.and_eq_true, beq_iff_eq]
      exact ⟨(CommandKind.waitsForReady_iff _).2 timed, limit⟩
    · rw [Command.cycle_eq, if_pos timed]

theorem Bay.watched_iff (v : Bay) :
    v.watched = true ↔ v.state = .online ∨ (v.state = .retiring ∧ ∀ d ∈ v.outstanding, d.kind ≠ .standby) := by
  simp only [Bay.watched, Bool.or_eq_true, Bool.and_eq_true, beq_iff_eq, Bool.not_eq_true', List.any_eq_false]

theorem Bay.operating_iff (v : Bay) : v.operating = true ↔ v.state = .admitting ∨ v.state = .spinningUp := by
  simp only [Bay.operating, Bool.or_eq_true, beq_iff_eq]

theorem mem_millisDue {b : Fin 24} {v : Bay} {high : Bool} {e : Instr} : e ∈ millisDue b v high ↔
    ((v.watched && !high) = true ∧ v.readyLow + 1 = 2000 ∧ e = .readyLost b)
      ∨ (v.operating = true ∧ v.opTimer + 1 = 20000 ∧ e = .operationTimeout b) := by
  have one : ∀ (p : Prop) [Decidable p] (x : Instr), (e ∈ if p then [x] else []) ↔ p ∧ e = x := fun p _ x => by
    split
    · next h => simp [h]
    · next h => simp [h]
  rw [millisDue, List.mem_append, one, one, and_assoc, and_assoc]

theorem State.tick_idle {s : State} (h : s.exchange.part ∈ [PartState.bringup, .restarting, .halted]) :
    s.tick = { s with clock := { s.clock with tickCount := s.clock.tickCount + 1, prescaler := 0, periodCounter := 0 } } := by
  have out : State.serving { s with clock := s.clock.produce } = false := by
    simp only [List.mem_cons, List.not_mem_nil, or_false] at h
    rcases h with h | h | h <;> simp only [State.serving, h]
  unfold State.tick
  dsimp only
  rw [out]; rfl

/-- A part state is one in which ticks are taken, or one in which they are not. -/
theorem State.serving_or (s : State) : s.serving = true ∨ s.exchange.part ∈ [PartState.bringup, .restarting, .halted] := by
  unfold State.serving; cases s.exchange.part <;> simp

/-- A tick counts in every part state (R146). -/
theorem State.tick_counts (s : State) : s.tick.clock.tickCount = s.clock.tickCount + 1 ∧ s.tick.clock.prescaler = 0
    ∧ s.tick.clock.periodCounter = 0 := by
  rcases s.serving_or with h | h
  · rw [(State.tick_taken h).2.2.1]; exact ⟨rfl, rfl, rfl⟩
  · rw [State.tick_idle h]; exact ⟨rfl, rfl, rfl⟩

/-- The record of a bay after a cycle of the reference, field by field. -/
theorem State.microsecond_timers {s : State} (part : s.exchange.part ≠ .bringup) (b : Nat) (bound : b < 24) :
    let milli : Prop := 1000 ≤ s.clock.microseconds + 1
    (s.microsecond.bay b).outstanding = (s.bay b).outstanding.map Command.cycle
      ∧ (s.microsecond.bay b).readyLow =
          (if milli ∧ ((s.bay b).watched && !s.readyHigh b) = true then (s.bay b).readyLow + 1 else (s.bay b).readyLow)
      ∧ (s.microsecond.bay b).opTimer = (if milli ∧ (s.bay b).operating = true then (s.bay b).opTimer + 1 else (s.bay b).opTimer)
      ∧ s.microsecond.bay b = { s.bay b with
          outstanding := (s.microsecond.bay b).outstanding, readyLow := (s.microsecond.bay b).readyLow,
          opTimer := (s.microsecond.bay b).opTimer } := by
  intro milli
  rw [State.microsecond_bay part, if_pos bound]
  split
  · next whole =>
    have whole : milli := whole
    simp only [Bay.milliCounted, Bay.timersCounted_watched, whole, true_and]
    exact ⟨rfl, rfl, rfl, rfl⟩
  · next early =>
    have early : ¬milli := early
    simp only [early, false_and, if_false]
    exact ⟨rfl, rfl, rfl, rfl⟩

/-- Settles O43: the interval by counting cycles, the tick phase by phase, the cycle timer by timer. -/
theorem ticksAreCountedAndTaken : Obligations.TicksAreCountedAndTaken := by
  refine ⟨fun k n prescaler counter bound => (LoanClock.past_repeat prescaler counter bound).cycle_due, fun s => ?_,
    fun s idle bringup => ?_, fun s idle part => ?_⟩
  · obtain ⟨count, prescaler, counter⟩ := s.tick_counts
    refine ⟨s.tick, rfl, count, prescaler, counter, fun out => State.tick_idle out, fun takes => ?_⟩
    obtain ⟨held, waiting, clock, offline, online⟩ := State.tick_taken (s.serving_iff.2 takes)
    exact ⟨held, waiting, by rw [clock], offline, online⟩
  · rw [State.step_idle idle, State.microsecond_bringup bringup, State.cycleClock, State.queue, idle]; rfl
  · have low : ∀ b : Nat, (1000 ≤ s.clock.microseconds + 1 ∧ (s.lines b).ready = false ∧ ((s.bay b).state = .online
          ∨ ((s.bay b).state = .retiring ∧ ∀ d ∈ (s.bay b).outstanding, d.kind ≠ .standby))) ↔
        (1000 ≤ s.clock.microseconds + 1 ∧ ((s.bay b).watched && !s.readyHigh b) = true) := fun b => by
      rw [Bool.and_eq_true, Bool.not_eq_true', Bay.watched_iff, State.readyHigh, and_comm (a := (s.lines b).ready = false)]
    have runs : ∀ b : Nat, (1000 ≤ s.clock.microseconds + 1 ∧ ((s.bay b).state = .admitting ∨ (s.bay b).state = .spinningUp)) ↔
        (1000 ≤ s.clock.microseconds + 1 ∧ (s.bay b).operating = true) := fun b => by
      rw [Bay.operating_iff]
    have clock := State.microsecond_clock part
    have exchange := State.microsecond_exchange part
    refine ⟨s.microsecond, State.step_idle idle, fun milli => by rw [clock, if_pos milli], fun early => by rw [clock, if_neg early],
      fun milli on => by rw [exchange, if_pos ⟨milli, on⟩], fun off => ?_, fun b out => ?_, fun b bound => ?_, fun e => ?_,
      s.microsecond_touches.mono rfl⟩
    · rw [exchange, if_neg]
      rintro ⟨milli, on⟩
      rcases off with early | off
      · exact early milli
      · rw [on] at off; cases off
    · rw [State.microsecond_bay part, if_neg (Nat.not_lt.2 out)]
    · obtain ⟨outstanding, readyLow, opTimer, record⟩ := State.microsecond_timers part b bound
      refine ⟨outstanding.trans (List.map_congr_left fun d _ => d.cycle_eq), fun counts => ?_, fun stands => ?_, fun counts => ?_,
        fun stands => ?_, record⟩
      · rw [readyLow, if_pos ((low b).1 counts)]
      · rw [readyLow, if_neg (fun k => stands ((low b).2 k))]
      · rw [opTimer, if_pos ((runs b).1 counts)]
      · rw [opTimer, if_neg (fun k => stands ((runs b).2 k))]
    · simp only [low, runs]
      rw [State.microsecond_pending part idle]
      simp only [mem_timeoutsDue, mem_millisDue, Bay.timersCounted_watched]
      refine or_congr Iff.rfl (or_congr Iff.rfl (or_congr ?_ ?_))
      · exact and_left_comm
      · constructor
        · rintro ⟨milli, b, ⟨counts, limit, rfl⟩ | ⟨counts, limit, rfl⟩⟩
          · exact .inl ⟨b, ⟨milli, counts⟩, limit, rfl⟩
          · exact .inr ⟨b, ⟨milli, counts⟩, limit, rfl⟩
        · rintro (⟨b, ⟨milli, counts⟩, limit, rfl⟩ | ⟨b, ⟨milli, counts⟩, limit, rfl⟩)
          · exact ⟨milli, b, .inl ⟨counts, limit, rfl⟩⟩
          · exact ⟨milli, b, .inr ⟨counts, limit, rfl⟩⟩

/-! ## Tables filtered by their entries -/

section
variable {α : Type} {d : α} {t : Table α} {n : Nat}

theorem Table.get_of_not_mem_keys (h : n ∉ Table.keys t) : Table.get d t n = d := by
  by_contra ne
  exact h (Table.mem_keys_of_get_ne d t n ne)

/-- Of a table by rising number some entries are kept, and the others read as the default. -/
theorem Table.get_filter (h : Table.ordered t) (p : α → Bool) :
    Table.get d (t.filter (fun e => p e.2)) n = if p (Table.get d t n) = true then Table.get d t n else d := by
  induction t with
  | nil => exact (ite_self d).symm
  | cons e t ih =>
    obtain ⟨below, rest⟩ := List.pairwise_cons.1 h
    rw [List.filter_cons]
    by_cases own : e.1 = n
    · have absent : n ∉ Table.keys t := fun mem => Nat.lt_irrefl n (own ▸ below n mem)
      have value : Table.get d (e :: t) n = e.2 := if_pos own
      rw [value]
      split
      · exact if_pos own
      · rw [ih rest, Table.get_of_not_mem_keys absent, ite_self]
    · have value : Table.get d (e :: t) n = Table.get d t n := if_neg own
      rw [value, ← ih rest]
      split
      · exact if_neg own
      · rfl

end

/-! ## Records that change one by one -/

/-- Over some numbers, none twice, each entry changes by its own step. -/
theorem foldl_entry {α : Type} {get : State → Nat → α} {f : State → Nat → State} {g : α → α}
    (own : ∀ s b c, get (f s b) c = if c = b then g (get s b) else get s c) (bs : List Nat) (once : bs.Nodup) (s : State) (c : Nat) :
    get (bs.foldl f s) c = if c ∈ bs then g (get s c) else get s c := by
  induction bs generalizing s with
  | nil => rfl
  | cons b bs ih =>
    obtain ⟨fresh, once⟩ := List.nodup_cons.1 once
    rw [List.foldl_cons, ih once, own]
    by_cases e : c = b
    · subst e; rw [if_neg fresh, if_pos rfl, if_pos List.mem_cons_self]
    · simp only [if_neg e, List.mem_cons, or_iff_right e]

/-! ## The beginning of record writes -/

theorem State.meterImage_of {s v : State} (meters : v.meters = s.meters) (clock : v.clock = s.clock) (staging : v.staging = s.staging) :
    v.meterImage = s.meterImage := by
  simp only [State.meterImage, State.slotsFree, State.slotsIn, State.meter, meters, clock, staging]

section
variable (s : State)

/-- The beginning of record writes changes no more of the Exchange Port than the two ports and the sequence of the Bay Summary. -/
theorem State.beginRecords_exchange : ∃ meter summary seq, s.beginRecords.exchange =
    { s.exchange with meterPort := meter, summaryPort := summary, summarySeq := seq } := by
  have meter := s.beginFaultRecord.beginMeter_exchange
  rw [State.beginFaultRecord_exchange] at meter
  unfold State.beginRecords State.beginSummary
  split
  · exact ⟨_, _, _, by rw [meter]⟩
  · exact ⟨_, _, _, meter⟩

/-- A Meter Block write that is held begins where it may, with the values of the moment (R155). -/
theorem State.beginRecords_meter : s.beginRecords.exchange.meterPort =
    if s.mayWriteRecords = true ∧ s.exchange.meterPort.held = true ∧ s.exchange.meterPort.inFlight = none then
      { held := false, inFlight := some { base := s.exchange.base, image := s.meterImage } }
    else s.exchange.meterPort := by
  have summary : ∀ u : State, u.beginSummary.exchange.meterPort = u.exchange.meterPort := fun u => by
    unfold State.beginSummary; split <;> rfl
  have may : s.beginFaultRecord.mayWriteRecords = s.mayWriteRecords := by
    unfold State.mayWriteRecords State.serving; rw [State.beginFaultRecord_exchange]
  have image : s.beginFaultRecord.meterImage = s.meterImage := by
    unfold State.beginFaultRecord; split <;> exact State.meterImage_of rfl rfl rfl
  rw [State.beginRecords, summary]
  unfold State.beginMeter
  simp only [may, image, State.beginFaultRecord_exchange, Bool.and_eq_true, Option.isNone_iff_eq_none, and_assoc]
  split
  · rfl
  · rw [State.beginFaultRecord_exchange]

theorem State.beginRecords_meterImage : s.beginRecords.meterImage = s.meterImage := by
  have touched := s.beginRecords_touches
  exact State.meterImage_of touched.meters touched.clock touched.staging

/-- The beginning of record writes leaves of the capture unit all but the record in flight, and begins that of a captured record. -/
theorem State.beginRecords_captures : s.beginRecords.capture =
    if s.mayWriteRecords = true ∧ s.capture.record.isSome = true ∧ s.capture.writing = none then
      { s.capture with writing := some s.exchange.base } else s.capture := by
  have rest : ∀ u : State, u.beginMeter.beginSummary.capture = u.capture := fun u => by
    unfold State.beginSummary State.beginMeter; repeat' split
    all_goals rfl
  rw [State.beginRecords, rest, State.beginFaultRecord]
  simp only [Bool.and_eq_true, Option.isNone_iff_eq_none, and_assoc]
  split <;> rfl

/-- Without a captured record no write of one begins. -/
theorem State.beginRecords_capture (none : s.capture.record = none) : s.beginRecords.capture = s.capture := by
  rw [State.beginRecords_captures, if_neg]
  rintro ⟨-, some, -⟩
  rw [none] at some; cases some

end

/-! ## The end of RESTARTING (R187, R188) -/

section
variable {s : State}

theorem State.mayEndRestart_iff : s.mayEndRestart = true ↔
    s.exchange.part = .restarting ∧ (s.exchange.answerBusy = false ∧ s.exchange.take = none ∧ s.exchange.sweep.reading = none
        ∧ s.exchange.meterPort.inFlight = none ∧ s.exchange.summaryPort.inFlight = none ∧ s.capture.writing = none)
      ∧ (∀ it ∈ s.engine.items, it.channel = none)
      ∧ ∀ b, b < 24 → (s.bay b).outstanding = [] ∧ (s.bay b).state ≠ .admitting ∧ (s.bay b).state ≠ .spinningUp
        ∧ (s.bay b).state ≠ .spinningDown := by
  simp only [State.mayEndRestart, State.accessesOver, Bay.quiet, Bool.and_eq_true, Bool.not_eq_true', Option.isNone_iff_eq_none, beq_iff_eq,
    bne_iff_ne, List.all_eq_true, List.isEmpty_iff, allBays, List.mem_range, Config.numBays, and_assoc]

theorem exec_restartEffects (s : State) : exec .restartEffects s = .next (if s.mayEndRestart then s.restartEffects else s) := rfl

/-- The restart effects before the Bay Summary is requested. -/
def State.restarted (s : State) : State :=
  overBays (overBays s.cleared (fun s b => s.setArbiter b (s.arbiter b).restarted)) (fun s b => s.setBay b (s.bay b).restarted)

theorem State.restartEffects_eq (s : State) : s.restartEffects =
    if s.restarted.exchange.part = .stopped then s.restarted.requestSummary.beginRecords else s.restarted := rfl

theorem State.restarted_touches (s : State) : Touches [.arbiters, .records] s.cleared s.restarted :=
  overBays_touches (fun _ _ => (State.setBay_touches ..).mono rfl)
    (overBays_touches (fun _ _ => (State.setArbiter_touches ..).mono rfl) (Touches.refl ..))

/-- What no bay's step changes stays over all bays. -/
theorem overBays_keeps {β : Type} (get : State → β) {f : State → Nat → State} (h : ∀ u b, get (f u b) = get u) (s : State) :
    get (overBays s f) = get s := by
  have each : ∀ (bs : List Nat) (u : State), get (bs.foldl f u) = get u := by
    intro bs
    induction bs with
    | nil => exact fun u => rfl
    | cons b bs ih => exact fun u => (ih _).trans (h u b)
  exact each _ s

/-- The bays' records and their schedulers' records apart, the restart effects before the summary leave what `cleared` leaves. -/
theorem State.restarted_keeps {β : Type} (get : State → β) (shares : ∀ u b v, get (State.setArbiter u b v) = get u)
    (records : ∀ u b v, get (State.setBay u b v) = get u) (s : State) : get s.restarted = get s.cleared :=
  (overBays_keeps get (fun u b => records u b _) _).trans (overBays_keeps get (fun u b => shares u b _) _)

theorem State.restarted_exchange (s : State) : s.restarted.exchange = s.exchange.restarted :=
  State.restarted_keeps State.exchange (fun _ _ _ => rfl) (fun _ _ _ => rfl) s

theorem State.restarted_capture (s : State) : s.restarted.capture = s.capture.restarted :=
  State.restarted_keeps State.capture (fun _ _ _ => rfl) (fun _ _ _ => rfl) s

theorem State.restarted_arbiter (s : State) {b : Nat} (bound : b < 24) : s.restarted.arbiter b = (s.arbiter b).restarted := by
  have bays : Touches [.records] (overBays s.cleared (fun s b => s.setArbiter b (s.arbiter b).restarted)) s.restarted :=
    overBays_touches (fun _ _ => (State.setBay_touches ..).mono rfl) (Touches.refl ..)
  rw [bays.arbiter, overBays, foldl_entry (get := State.arbiter) (g := Arbiter.restarted) (fun u b c => u.arbiter_setArbiter b c _)
    allBays List.nodup_range, if_pos (show b ∈ allBays from List.mem_range.2 bound)]
  rfl

theorem State.restarted_bay (s : State) {b : Nat} (bound : b < 24) : s.restarted.bay b = (s.bay b).restarted := by
  have shares : Touches [.arbiters] s.cleared (overBays s.cleared (fun s b => s.setArbiter b (s.arbiter b).restarted)) :=
    overBays_touches (fun _ _ => (State.setArbiter_touches ..).mono rfl) (Touches.refl ..)
  rw [State.restarted, overBays, foldl_entry (get := State.bay) (g := Bay.restarted) (fun u b c => u.bay_setBay b c _)
    allBays List.nodup_range, if_pos (show b ∈ allBays from List.mem_range.2 bound), shares.bay]
  rfl

/-- What every block but the ports takes of the restart effects is taken before the Bay Summary is requested. -/
theorem State.restartEffects_touches_restarted (s : State) : Touches [.ports] s.restarted s.restartEffects := by
  rw [State.restartEffects_eq]
  split
  · exact (State.beginRecords_touches _).after rfl ((State.requestSummary_touches _).mono rfl)
  · exact Touches.refl ..

theorem State.restartEffects_capture (s : State) : s.restartEffects.capture = s.capture.restarted := by
  have asked : ∀ u : State, u.requestSummary.capture = u.capture := fun _ => rfl
  rw [State.restartEffects_eq]
  split
  · rw [State.beginRecords_capture _ (by rw [asked, s.restarted_capture]; rfl), asked, s.restarted_capture]
  · exact s.restarted_capture

theorem State.restartEffects_bay_arbiter (s : State) {b : Nat} (bound : b < 24) :
    s.restartEffects.bay b = (s.bay b).restarted ∧ s.restartEffects.arbiter b = (s.arbiter b).restarted := by
  have after := s.restartEffects_touches_restarted
  exact ⟨by rw [after.bay, s.restarted_bay bound], by rw [after.arbiter, s.restarted_arbiter bound]⟩

/-- The restart effects on the Exchange Port, but for its two record ports (R31, R188). -/
theorem State.restartEffects_exchange (s : State) : ∃ meter summary seq, s.restartEffects.exchange =
    { s.exchange.restarted with meterPort := meter, summaryPort := summary, summarySeq := seq } := by
  rw [State.restartEffects_eq]
  split
  · obtain ⟨meter, summary, seq, e⟩ := s.restarted.requestSummary.beginRecords_exchange
    refine ⟨meter, summary, seq, e.trans ?_⟩
    rw [← s.restarted_exchange]; rfl
  · exact ⟨_, _, _, s.restarted_exchange⟩

/-- In HALTED, behind a failed restart, no record write is asked for. -/
theorem State.restartEffects_halted (h : s.exchange.errorInRestart = true) : s.restartEffects = s.restarted := by
  rw [State.restartEffects_eq, if_neg]
  rw [s.restarted_exchange, Exchange.restarted, h]
  simp

theorem State.restartEffects_stopped (h : s.exchange.errorInRestart = false) : s.restartEffects = s.restarted.requestSummary.beginRecords := by
  rw [State.restartEffects_eq, if_pos]
  rw [s.restarted_exchange, Exchange.restarted, h]
  simp

theorem State.restartEffects_summary (h : s.exchange.errorInRestart = false) : s.summaryAsked s.restartEffects := by
  rw [State.restartEffects_stopped h]
  have port : s.restarted.exchange.summaryPort = s.exchange.summaryPort ∧ s.restarted.exchange.summarySeq = s.exchange.summarySeq
      ∧ s.restarted.exchange.base = s.exchange.base := by rw [s.restarted_exchange]; exact ⟨rfl, rfl, rfl⟩
  refine State.summaryAsked_of_request ?_ port.2.1 port.2.2
  rw [State.requestSummary, port.1]

/-- A held Meter Block write begins once the part is STOPPED (R155). -/
theorem State.restartEffects_meter (h : s.exchange.errorInRestart = false) (idle : s.exchange.meterPort.inFlight = none) :
    (s.exchange.meterPort.held = true → s.meterAsked s.restartEffects)
      ∧ (s.exchange.meterPort.held = false → s.restartEffects.exchange.meterPort = s.exchange.meterPort) := by
  have exchange : s.restarted.requestSummary.exchange.meterPort = s.exchange.meterPort
      ∧ s.restarted.requestSummary.exchange.base = s.exchange.base ∧ s.restarted.requestSummary.exchange.part = .stopped := by
    rw [State.requestSummary, s.restarted_exchange, Exchange.restarted, h]; exact ⟨rfl, rfl, rfl⟩
  obtain ⟨port, base, part⟩ := exchange
  have may : s.restarted.requestSummary.mayWriteRecords = true ↔ s.exchange.base ≠ 0 := by
    simp only [State.mayWriteRecords, State.serving, part, base, Bool.true_and, bne_iff_ne]
  rw [State.restartEffects_stopped h]
  constructor
  · intro held
    rw [State.meterAsked, State.beginRecords_meter, State.beginRecords_meterImage, port, base]
    simp only [may, held, idle, true_and, and_true]
    split
    · rfl
    · rw [← idle, ← held]
  · intro off
    rw [State.beginRecords_meter, if_neg, port]
    rintro ⟨-, on, -⟩
    rw [port, off] at on; cases on

theorem State.restartEffects_slot (ordered : Table.ordered s.staging.slots) (k : Nat) :
    s.restartEffects.slot k = if (s.slot k).state = .bad then s.slot k else .free := by
  rw [s.restartEffects_touches_restarted.slot, s.restarted_touches.slot]
  have kept := Table.get_filter (d := Slot.free) (n := k) ordered (fun v => v.state == .bad)
  simp only [beq_iff_eq] at kept
  exact kept

theorem State.restartEffects_notices (s : State) : s.restartEffects.notices.flags = .clear ∧ s.restartEffects.notices.enable = .clear
    ∧ s.restartEffects.notices.interrupt = false := by
  rw [s.restartEffects_touches_restarted.notices, s.restarted_touches.notices]
  refine ⟨Notices.renew_flags .., Notices.renew_enable .., ?_⟩
  have off : ({ s.notices with flags := .clear, enable := .clear } : Notices).condition = false := rfl
  show (s.notices.renew .clear .clear).interrupt = false
  unfold Notices.renew
  dsimp only
  rw [off]
  cases s.notices.condition <;> rfl

end

/-- Settles O12: the effects block by block, and the condition for them. -/
theorem restartEffectsOfEveryBlock : Obligations.RestartEffectsOfEveryBlock := by
  refine ⟨fun s ordered part busy take reading meter summary writing items bays => ?_, fun s part left => ?_, fun s part => ?_⟩
  · have ends : s.mayEndRestart = true :=
      State.mayEndRestart_iff.2 ⟨part, ⟨busy, take, reading, meter, summary, writing⟩, items, bays⟩
    have step : exec .restartEffects s = .next s.restartEffects := by rw [exec_restartEffects, if_pos ends]
    obtain ⟨m, p, q, exchange⟩ := s.restartEffects_exchange
    obtain ⟨flags, enable, interrupt⟩ := s.restartEffects_notices
    have loans := s.restartEffects_loans.1
    have after := s.restartEffects_touches_restarted
    have cleared := s.restarted_touches
    have capture := s.restartEffects_capture
    have staging : s.restartEffects.staging = s.cleared.staging := after.staging.trans cleared.staging
    refine ⟨s.restartEffects, step, ?_⟩
    refine ⟨by rw [exchange]; rfl, by rw [exchange]; rfl, by rw [exchange]; rfl, by rw [exchange]; rfl, by rw [exchange]; rfl,
      by rw [exchange]; rfl, by rw [exchange]; rfl, by rw [exchange]; rfl, by rw [exchange]; rfl, by rw [exchange]; rfl,
      by rw [exchange]; rfl, by rw [exchange]; rfl, by rw [exchange]; rfl, by rw [exchange]; rfl, by rw [exchange]; rfl,
      by rw [exchange]; rfl, fun none => ⟨State.restartEffects_summary none, State.restartEffects_meter none meter⟩, fun error => ?_,
      State.loan_of_empty loans, State.waiting_of_empty loans, fun b g => ?_, fun b bound => (s.restartEffects_bay_arbiter bound).2,
      State.restartEffects_slot ordered.2.2.2.2.2.1, by rw [staging]; rfl, by rw [staging]; rfl, ?_, fun b bound => ?_,
      by rw [capture]; rfl, by rw [capture]; rfl, by rw [capture]; rfl, by rw [capture]; rfl, by rw [capture]; rfl, by rw [capture]; rfl,
      flags, enable, interrupt, exec_touches step⟩
    · rw [State.restartEffects_halted error, s.restarted_exchange]; exact ⟨rfl, rfl, rfl⟩
    · rw [State.fifo, after.fifos, cleared.fifos]; rfl
    · have engine : s.restartEffects.engine = s.cleared.engine :=
        (after.same .engine (by decide)).trans (cleared.same .engine (by decide))
      rw [engine]; rfl
    · rw [(s.restartEffects_bay_arbiter bound).1]
      exact congrArg (fun l => { (s.bay b).restarted with outstanding := l }) (bays b bound).1.symm
  · have stays : ¬s.mayEndRestart = true := fun ends => by
      obtain ⟨-, ⟨busy, take, reading, meter, summary, writing⟩, items, bays⟩ := State.mayEndRestart_iff.1 ends
      rcases left with h | h | h | h | h | h | ⟨it, mem, h⟩ | ⟨b, bound, h⟩
      · rw [busy] at h; cases h
      · exact h take
      · exact h reading
      · exact h meter
      · exact h summary
      · exact h writing
      · exact h (items it mem)
      · obtain ⟨outstanding, admitting, up, down⟩ := bays b bound
        rcases h with h | h
        · exact h outstanding
        · simp only [List.mem_cons, List.not_mem_nil, or_false] at h
          rcases h with h | h | h
          · exact admitting h
          · exact up h
          · exact down h
    rw [exec_restartEffects, if_neg stays]
  · rw [exec_restartEffects, if_neg (fun ends => part (State.mayEndRestart_iff.1 ends).1)]

/-! ## Bytes of a cell in host memory -/

section
variable {m : List Host.Cell} {A off i : Nat} {bs : List Byte}

/-- A byte written reads as it was written, also where the run passes the end of the address space. -/
theorem Memory.read_written (fits : bs.length ≤ 128) (h : i < bs.length) :
    Memory.read (Memory.writeBytes m A bs) ((A + i) % 18446744073709551616) = bs[i]? := by
  have space : Config.addressSpace = 18446744073709551616 := rfl
  have place : ((A + i) % 18446744073709551616 + 18446744073709551616 - A % 18446744073709551616) % 18446744073709551616 = i := by omega
  rw [Memory.read_writeBytes_wrap _ _ _ _ (by rw [space]; omega) (by rw [space]; omega), space, place, if_pos h]

/-- Of the 128 bytes of a cell, those outside the bytes written are as they were. -/
theorem Memory.read_unwritten (fits : off + bs.length ≤ 128) (inside : i < 128) (h : i < off ∨ off + bs.length ≤ i) :
    Memory.read (Memory.writeBytes m (A + off) bs) ((A + i) % 18446744073709551616)
      = Memory.read m ((A + i) % 18446744073709551616) := by
  have space : Config.addressSpace = 18446744073709551616 := rfl
  refine Memory.read_writeBytes_other _ _ _ _ (by rw [space]; omega) fun j hj => ?_
  rw [space]; omega

/-- Outside a cell nothing is written by a write inside it. -/
theorem Memory.read_outside {x : Nat} (fits : off + bs.length ≤ 128) (h : ∀ i, i < 128 → x ≠ (A + i) % Config.addressSpace) :
    Memory.read (Memory.writeBytes m (A + off) bs) x = Memory.read m x := by
  have space : Config.addressSpace = 18446744073709551616 := rfl
  refine Memory.read_writeBytes_other _ _ _ _ (by rw [space]; omega) fun j hj => ?_
  rw [Nat.add_assoc]; exact h (off + j) (by omega)

end

/-! ## The answer area (Table 11-7) -/

section
variable (a : Answer) (stamp : BitVec 32) (hostTag : Nat)

theorem answerImage_length : (answerImage a stamp hostTag).length = 16 := by
  simp [answerImage]

theorem answerImage_laidOut : laidOut 112 (answerImage a stamp hostTag)
    [(112, 1, a.result.code), (113, 1, a.source.code), (114, 2, a.blocksDone), (116, 4, a.detail), (120, 4, stamp.toNat),
     (124, 2, hostTag), (126, 2, 0)] := by
  unfold laidOut answerImage
  simp only [List.append_assoc, List.forall_mem_cons, List.not_mem_nil, IsEmpty.forall_iff, implies_true, and_true]
  and_intros
  all_goals simp [fieldAt_behind, fieldAt_here, fieldAt_last]

end

/-- The bytes of an answer in the memory of the host, before its hand is written (R178). -/
def State.snapshotMem (s : State) (a : Answer) : List Host.Cell :=
  match a.snapshot with
  | some bytes => Memory.writeBytes s.hostMem (s.cellAddress a.cell 32) (bytes.take 48)
  | none => s.hostMem

section
variable {s t : State} {a : Answer}

theorem State.pokeAnswer_eq (s : State) (a : Answer) : (s.pokeAnswer a).pokeHand a.cell = { s with
    hostMem := Memory.writeBytes (Memory.writeBytes (s.snapshotMem a) (s.cellAddress a.cell 112)
      (answerImage a s.clock.tickCount (s.hostTagOf a.cell))) (s.cellAddress a.cell 0) [3] } := by
  unfold State.pokeAnswer State.snapshotMem
  cases a.snapshot <;> rfl

theorem State.snapshotMem_some {bytes : List Byte} (h : a.snapshot = some bytes) :
    s.snapshotMem a = Memory.writeBytes s.hostMem (s.cellAddress a.cell 32) (bytes.take 48) := by
  rw [State.snapshotMem, h]

theorem State.snapshotMem_none (h : a.snapshot = none) : s.snapshotMem a = s.hostMem := by
  rw [State.snapshotMem, h]

/-- Host memory behind the write of an answer. -/
theorem State.answerBytes (h : t.hostMem = ((s.pokeAnswer a).pokeHand a.cell).hostMem) :
    Memory.read t.hostMem (s.cellAddress a.cell 0 % 18446744073709551616) = some 3
      ∧ (∀ i, i < 16 → Memory.read t.hostMem (s.cellAddress a.cell (112 + i) % 18446744073709551616)
          = (answerImage a s.clock.tickCount (s.hostTagOf a.cell))[i]?)
      ∧ (∀ bytes, a.snapshot = some bytes → bytes.length = 48 → ∀ i, i < 48 →
          Memory.read t.hostMem (s.cellAddress a.cell (32 + i) % 18446744073709551616) = bytes[i]?)
      ∧ (∀ i, 1 ≤ i → i < 112 → (a.snapshot = none ∨ i < 32 ∨ 80 ≤ i) →
          Memory.read t.hostMem (s.cellAddress a.cell i % 18446744073709551616)
            = Memory.read s.hostMem (s.cellAddress a.cell i % 18446744073709551616))
      ∧ s.otherBytes t (s.cellAddress a.cell 0) 128 := by
  obtain ⟨A, hA⟩ : ∃ A, A = s.cellAddress a.cell 0 := ⟨_, rfl⟩
  have at_off : ∀ off, s.cellAddress a.cell off = A + off := fun off => by rw [hA]; rfl
  obtain ⟨image, himage⟩ : ∃ image, image = answerImage a s.clock.tickCount (s.hostTagOf a.cell) := ⟨_, rfl⟩
  have size : image.length = 16 := by rw [himage]; exact answerImage_length ..
  rw [State.pokeAnswer_eq] at h
  simp only [at_off, ← himage] at h ⊢
  have behindHand : ∀ i, 1 ≤ i → i < 128 → Memory.read t.hostMem ((A + i) % 18446744073709551616)
      = Memory.read (Memory.writeBytes (s.snapshotMem a) (A + 112) image) ((A + i) % 18446744073709551616) := fun i low high => by
    rw [h]; exact Memory.read_unwritten (off := 0) (by decide) high (.inr low)
  have below : ∀ i, 1 ≤ i → i < 112 → Memory.read t.hostMem ((A + i) % 18446744073709551616)
      = Memory.read (s.snapshotMem a) ((A + i) % 18446744073709551616) := fun i low high => by
    rw [behindHand i low (by omega)]
    exact Memory.read_unwritten (by omega) (by omega) (.inl high)
  have short : ∀ bytes : List Byte, 32 + (bytes.take 48).length ≤ 128 := fun bytes => by
    have := List.length_take_le 48 bytes; omega
  refine ⟨?_, fun i hi => ?_, fun bytes snap len i hi => ?_, fun i low high out => ?_, fun x away => ?_⟩
  · rw [h]; exact Memory.read_written (i := 0) (bs := [3]) (by decide) (by decide)
  · rw [behindHand _ (by omega) (by omega), ← Nat.add_assoc]
    exact Memory.read_written (by omega) (by omega)
  · rw [below _ (by omega) (by omega), State.snapshotMem_some snap, at_off, List.take_of_length_le (by omega), ← Nat.add_assoc]
    exact Memory.read_written (by omega) (by omega)
  · rw [below i low high]
    cases snap : a.snapshot with
    | none => rw [State.snapshotMem_none snap]
    | some bytes =>
      rw [State.snapshotMem_some snap, at_off]
      have size : (bytes.take 48).length ≤ 48 := List.length_take_le 48 bytes
      refine Memory.read_unwritten (short bytes) (by omega) (out.resolve_left (by rw [snap]; simp) |>.imp id fun out => by omega)
  · have hand : Memory.read t.hostMem x = Memory.read (Memory.writeBytes (s.snapshotMem a) (A + 112) image) x := by
      rw [h]; exact Memory.read_outside (off := 0) (by decide) away
    have image : Memory.read (Memory.writeBytes (s.snapshotMem a) (A + 112) image) x = Memory.read (s.snapshotMem a) x :=
      Memory.read_outside (by omega) away
    rw [hand, image]
    cases snap : a.snapshot with
    | none => rw [State.snapshotMem_none snap]
    | some bytes => rw [State.snapshotMem_some snap, at_off]; exact Memory.read_outside (short bytes) away

end

/-! ## Append records that an answer reports to (R112, R114) -/

section
variable (a : AppendRecord)

theorem AppendRecord.addBlocks_committed (n : Nat) : (a.addBlocks n).committed = a.committed + n := by
  have parts := Nat.div_add_mod (a.blocksIntoFrame + n) a.frameBlocks
  simp only [AppendRecord.committed, AppendRecord.addBlocks, Nat.add_mul]
  rw [Nat.mul_comm] at parts
  omega

theorem AppendRecord.addBlocks_whole {n : Nat} (h : a.blocksIntoFrame < a.frameBlocks) :
    (a.addBlocks n).blocksIntoFrame < (a.addBlocks n).frameBlocks := Nat.mod_lt _ (by omega)

/-- The commit over a reservation list: it divides the list, adds what it commits, and changes nothing else (R112). -/
theorem AppendRecord.commit_divides (list : List Reservation) (whole : a.blocksIntoFrame < a.frameBlocks) :
    ∃ done left, list = done ++ left
      ∧ (∀ e ∈ done, e.good = true ∧ ∀ p, a.breakPoint = some p → e.offset < p)
      ∧ (∀ e, left.head? = some e → e.good = true → ∃ p, a.breakPoint = some p ∧ p ≤ e.offset)
      ∧ (a.commit list).committed = a.committed + (done.map (fun e => e.n)).sum
      ∧ (a.commit list).blocksIntoFrame < (a.commit list).frameBlocks
      ∧ a.commit list = { a with
          framesDone := (a.commit list).framesDone, blocksIntoFrame := (a.commit list).blocksIntoFrame, reservations := left } := by
  induction list generalizing a with
  | nil => exact ⟨[], [], rfl, by simp, by simp, rfl, whole, rfl⟩
  | cons e rest ih =>
    have below : a.breakPoint.all (fun p => e.offset < p) = true ↔ ∀ p, a.breakPoint = some p → e.offset < p := by
      cases a.breakPoint <;> simp
    by_cases commits : (e.good && a.breakPoint.all (fun p => e.offset < p)) = true
    · obtain ⟨done, left, split, good, head, sum, lt, same⟩ := ih (a.addBlocks e.n) (a.addBlocks_whole whole)
      have step : a.commit (e :: rest) = (a.addBlocks e.n).commit rest := if_pos commits
      rw [Bool.and_eq_true, below] at commits
      refine ⟨e :: done, left, by rw [split]; rfl, ?_, head, ?_, by rw [step]; exact lt, by rw [step]; exact same⟩
      · exact List.forall_mem_cons.2 ⟨commits, good⟩
      · rw [step, sum, a.addBlocks_committed, List.map_cons, List.sum_cons, Nat.add_assoc]
    · have step : a.commit (e :: rest) = { a with reservations := e :: rest } := if_neg commits
      rw [Bool.and_eq_true, below] at commits
      refine ⟨[], e :: rest, rfl, by simp, fun x hx good => ?_, by rw [step]; rfl, by rw [step]; exact whole, by rw [step]⟩
      obtain rfl : e = x := by simpa using hx
      by_contra none
      refine commits ⟨good, fun p hp => ?_⟩
      by_contra le
      exact none ⟨p, hp, Nat.not_lt.1 le⟩

theorem AppendRecord.discard_eq : a.discard =
    { a with reservations := a.reservations.filter (fun e => !(e.good && a.breakPoint.any (fun p => p ≤ e.offset))) } := by
  obtain ⟨size, frames, blocks, reserved, broken, point, reservations⟩ := a
  cases point with
  | none => simp [AppendRecord.discard]
  | some p => simp [AppendRecord.discard]

theorem AppendRecord.commits_of_commit (list : List Reservation) (whole : a.blocksIntoFrame < a.frameBlocks) :
    a.commits (a.commit list).discard list := by
  obtain ⟨done, left, split, good, head, sum, lt, same⟩ := a.commit_divides list whole
  refine ⟨done, left, split, good, head, ?_, ?_, ?_⟩
  · rw [AppendRecord.discard_eq]; exact sum
  · rw [AppendRecord.discard_eq]; exact lt
  · rw [AppendRecord.discard_eq]
    generalize (a.commit list).framesDone = f at same ⊢
    generalize (a.commit list).blocksIntoFrame = i at same ⊢
    rw [same]

theorem AppendRecord.reported_ok {offset : Nat} {r : Result} (whole : a.blocksIntoFrame < a.frameBlocks) (h : r ∈ [.ok, .okTruncated]) :
    a.commits (a.reported (some offset) r)
      (a.reservations.map (fun e => if e.offset = offset then { e with good := true } else e)) := by
  have acts : a.reported (some offset) r = a.succeed offset := if_pos (by simpa using h)
  rw [acts]; exact a.commits_of_commit _ whole

theorem AppendRecord.reported_failed {offset : Nat} {r : Result} (whole : a.blocksIntoFrame < a.frameBlocks)
    (h : r ∉ [.ok, .okTruncated]) :
    { a with broken := true, breakPoint := some ((a.breakPoint.map (fun p => min p offset)).getD offset) }.commits
      (a.reported (some offset) r) (a.reservations.filter (fun e => e.offset != offset)) := by
  have acts : a.reported (some offset) r = a.fail offset := if_neg (by simpa using h)
  rw [acts]; exact AppendRecord.commits_of_commit _ _ whole

end

/-! ## The answer of a transfer, reported to its loan (R26) -/

/-- A loan to which the answer of one of its transfers is reported. -/
def Loan.reported (l : Loan) (reserved : Option Nat) (r : Result) : Loan :=
  { l with inFlight := l.inFlight - 1, append := l.append.map (fun a => a.reported reserved r) }

/-- Loan n takes the report of an answered transfer, before what follows at count 0. -/
def State.loanReported (s : State) (n : Nat) (reserved : Option Nat) (r : Result) : State :=
  s.setLoan n ((s.loan n).reported reserved r)

section
variable {s u w t : State} {n b : Nat} {reserved : Option Nat} {r : Result} {ps : List Part}

theorem State.transferEnded_eq (s : State) (n : Nat) (reserved : Option Nat) (r : Result) : s.transferEnded n reserved r =
    if (s.loan n).inFlight - 1 = 0 then (s.loanReported n reserved r).inFlightOver n else s.loanReported n reserved r := rfl

theorem State.loanReported_touches (s : State) (n : Nat) (reserved : Option Nat) (r : Result) :
    Touches [.loans] s (s.loanReported n reserved r) := State.setLoan_touches ..

theorem State.loanReported_loan (m : Nat) :
    (s.loanReported n reserved r).loan m = if m = n then (s.loan n).reported reserved r else s.loan m := State.loan_setLoan ..

theorem State.loanReported_waiting (c : Nat) : (s.loanReported n reserved r).waiting c = s.waiting c := rfl

/-! ## What follows when the in-flight count has reached 0 -/

theorem State.inFlightOver_rests (h : (u.loan n).state ∈ [LoanState.free, .waiting, .held, .lapsed]
      ∨ ((u.loan n).state = .faulted ∧ (u.loan n).returnCell = none)) : u.inFlightOver n = u := by
  have states : (u.loan n).state = .free ∨ (u.loan n).state = .waiting ∨ (u.loan n).state = .held ∨ (u.loan n).state = .lapsed
      ∨ ((u.loan n).state = .faulted ∧ (u.loan n).returnCell = none) := by simpa [or_assoc] using h
  unfold State.inFlightOver
  rcases states with st | st | st | st | ⟨st, none⟩
  all_goals simp only [st]
  simp only [none]

theorem State.inFlightOver_returns (h : (u.loan n).state = .returning ∨ ((u.loan n).state = .lapsing ∧ (u.loan n).returnCell ≠ none)) :
    u.inFlightOver n = ((u.finishReturn n).examine (u.loan n).bay).completionTest (u.loan n).bay := by
  unfold State.inFlightOver
  rcases h with st | ⟨st, some⟩
  · simp only [st]
  · obtain ⟨c, hc⟩ := Option.ne_none_iff_exists'.1 some
    simp only [st, hc]

theorem State.inFlightOver_lapses (st : (u.loan n).state = .lapsing) (none : (u.loan n).returnCell = none) :
    u.inFlightOver n = (u.setLoan n { u.loan n with state := .lapsed }).examine (u.loan n).bay := by
  unfold State.inFlightOver
  simp only [st, none]

theorem State.inFlightOver_frees (st : (u.loan n).state = .faulted) (some : (u.loan n).returnCell ≠ none) :
    u.inFlightOver n = (u.finishReturn n).completionTest (u.loan n).bay := by
  obtain ⟨c, hc⟩ := Option.ne_none_iff_exists'.1 some
  unfold State.inFlightOver
  simp only [st, hc]

theorem State.finishReturn_answered (u : State) (n : Nat) :
    u.answered (u.finishReturn n) ((u.loan n).returnCell.toList.map (fun c => plain c .ok n)) :=
  ((u.freeLoan_touches n).answered_nil).trans (State.replyOpt_answered ..) (u.freeLoan_touches n).serving

/-- The answers of a return that frees its loan and has the bay examined. -/
theorem State.finishReturn_examined_answered (u : State) (n b : Nat) :
    u.answered (((u.finishReturn n).examine b).completionTest b)
      ((u.loan n).returnCell.toList.map (fun c => plain c .ok n)
        ++ (u.finishReturn n).grantAnswers ((u.finishReturn n).grantedOn b)) := by
  have grants := ((u.finishReturn n).examine_answered b).trans (State.completionTest_touches _ b).answered_nil (State.examine_touches ..).serving
  rw [List.append_nil] at grants
  exact (u.finishReturn_answered n).trans grants (State.finishReturn_touches ..).serving

theorem State.finishReturn_loans (u : State) (n : Nat) : (u.finishReturn n).loans = (u.freeLoan n).loans :=
  (State.replyOpt_touches ..).loans

theorem State.finishReturn_lapseQueue (u : State) (n : Nat) :
    (u.finishReturn n).exchange.lapseQueue = u.exchange.lapseQueue.filter (fun m => m != n) := by
  rw [State.finishReturn, (State.replyOpt_touches ..).lapseQueue, State.freeLoan_lapseQueue]

/-- Whatever follows, it decides answers and does nothing else to the Answer Write list. -/
theorem State.transferEnded_answered (s : State) (n : Nat) (reserved : Option Nat) (r : Result) :
    ∃ more, s.answered (s.transferEnded n reserved r) more := by
  have reported := (s.loanReported_touches n reserved r).answered_nil
  have serving := (s.loanReported_touches n reserved r).serving
  have ended : ∃ more, (s.loanReported n reserved r).answered ((s.loanReported n reserved r).inFlightOver n) more := by
    generalize s.loanReported n reserved r = u
    have returned := u.finishReturn_answered n
    unfold State.inFlightOver
    dsimp only
    split
    · exact ⟨_, u.finishReturn_examined_answered n _⟩
    · exact ⟨_, u.finishReturn_examined_answered n _⟩
    · exact ⟨_, (State.setLoan_touches ..).answered_nil.trans (State.examine_answered ..) rfl⟩
    · exact ⟨_, returned.trans (State.completionTest_touches ..).answered_nil (State.finishReturn_touches ..).serving⟩
    · exact ⟨_, u.answered_refl⟩
  rw [State.transferEnded_eq]
  split
  · obtain ⟨more, ended⟩ := ended
    exact ⟨more, reported.trans ended serving⟩
  · exact ⟨[], reported⟩

/-! ## The notice flags -/

theorem State.dropLapse_flags_answer (s : State) (n : Nat) : (s.dropLapse n).notices.flags.answer = s.notices.flags.answer := by
  unfold State.dropLapse
  split
  · rw [State.setLapseQueue_flags, Notices.renew_flags]
  · rfl

theorem State.finishReturn_flags_answer (s : State) (n : Nat) : (s.finishReturn n).notices.flags.answer = s.notices.flags.answer := by
  rw [State.finishReturn, (State.replyOpt_touches ..).notices]
  exact State.dropLapse_flags_answer _ n

theorem State.transferEnded_flags_answer (s : State) (n : Nat) (reserved : Option Nat) (r : Result) :
    (s.transferEnded n reserved r).notices.flags.answer = s.notices.flags.answer := by
  have ended : ∀ u : State, (u.inFlightOver n).notices.flags.answer = u.notices.flags.answer := fun u => by
    unfold State.inFlightOver
    dsimp only
    split
    · rw [(State.completionTest_touches ..).notices, (State.examine_touches ..).notices, State.finishReturn_flags_answer]
    · rw [(State.completionTest_touches ..).notices, (State.examine_touches ..).notices, State.finishReturn_flags_answer]
    · rw [(State.examine_touches ..).notices]; rfl
    · rw [(State.completionTest_touches ..).notices, State.finishReturn_flags_answer]
    · rfl
  rw [State.transferEnded_eq]
  split
  · exact ended _
  · rfl

/-! ## Conditions on a state that differs in one loan alone -/

theorem State.examined.seen_of {v : State} {g : List Nat} (h : v.examined t b g) (loans : ∀ m, s.loan m = v.loan m)
    (lists : ∀ c, s.waiting c = v.waiting c) : s.examined t b g := by
  unfold State.examined State.grantable at h ⊢
  simp only [loans, lists]
  exact h

theorem State.retiresWithout.congr (h : s.retiresWithout b n) (k : Touches ps s u) (others : ∀ m, m ≠ n → u.loan m = s.loan m)
    (w₁ : Part.records ∉ ps := by decide) (w₃ : Part.fifos ∉ ps := by decide) (w₄ : Part.arbiters ∉ ps := by decide)
    (w₅ : Part.staging ∉ ps := by decide) : u.retiresWithout b n := by
  obtain ⟨retiring, free, work, fresh⟩ := h
  have bay := k.bay b w₁
  exact ⟨by rw [bay]; exact retiring, fun m ne => by rw [others m ne]; exact free m ne, by rw [k.hasWork b w₃ w₄ w₅]; exact work,
    by rw [bay]; exact fresh⟩

end

/-! ## The loan of a transfer whose answer has been written (R26) -/

/-- What the end of an answer's write touches before the report to the loan. -/
abbrev takenParts : List Part := [.answers, .answerQueue, .notices, .held, .meters, .hostMem]

section
variable {s w t : State} {n : Nat} {reserved : Option Nat} {r : Result} {rest : List AnswerWrite}
variable (taken : Touches takenParts s w) (list : w.exchange.answerList = rest)

include taken in
theorem State.loanReported_touches_taken : Touches (.loans :: takenParts) s (w.loanReported n reserved r) :=
  (w.loanReported_touches n reserved r).after rfl (taken.mono rfl)

include taken in
theorem State.loanReported_loan_taken (m : Nat) :
    (w.loanReported n reserved r).loan m = if m = n then (s.loan n).reported reserved r else s.loan m := by
  rw [State.loanReported_loan, taken.loan, taken.loan]

include taken in
theorem State.loanReported_waiting_taken (c : Nat) : (w.loanReported n reserved r).waiting c = s.waiting c := by
  rw [State.loanReported_waiting, taken.waiting]

include taken in
theorem State.loanReported_own : (w.loanReported n reserved r).loan n = (s.loan n).reported reserved r := by
  rw [State.loanReported_loan_taken taken, if_pos rfl]

include taken in
theorem State.loanReported_others {m : Nat} (ne : m ≠ n) : (w.loanReported n reserved r).loan m = s.loan m := by
  rw [State.loanReported_loan_taken taken, if_neg ne]

include taken in
theorem State.loanReported_listed (h : s.waitingListed) : (w.loanReported n reserved r).waitingListed :=
  h.keep (n := n) (fun _ ne => State.loanReported_others taken ne) (fun c => State.loanReported_waiting_taken taken c)
    (by rw [State.loanReported_own taken]; exact ⟨rfl, rfl⟩)

include taken in
theorem State.loanReported_ordered (h : Table.ordered s.loans.table) : Table.ordered (w.loanReported n reserved r).loans.table := by
  rw [← taken.loans] at h
  exact Table.ordered_set (d := Loan.free) (n := n) h

include taken in
/-- At count 0 there follows what the state of the loan asks for. -/
theorem State.transferEnded_over (last : (s.loan n).inFlight ≤ 1) :
    w.transferEnded n reserved r = (w.loanReported n reserved r).inFlightOver n := by
  rw [State.transferEnded_eq, if_pos]
  rw [taken.loan]; omega

variable (ended : Touches [.part, .ports] (w.transferEnded n reserved r) t)

include taken list ended in
/-- Transfers are left, or the state of the loan asks for nothing. -/
theorem State.answerEnd_rests (h : 1 < (s.loan n).inFlight ∨ (s.loan n).state ∈ [LoanState.free, .waiting, .held, .lapsed]
      ∨ ((s.loan n).state = .faulted ∧ (s.loan n).returnCell = none)) :
    t.loan n = (s.loan n).reported reserved r ∧ s.otherLoans t n ∧ t.loans.waiting = s.loans.waiting ∧ t.exchange.answerList = rest := by
  have acts : w.transferEnded n reserved r = w.loanReported n reserved r := by
    rw [State.transferEnded_eq]
    split
    · next zero =>
      rw [taken.loan] at zero
      have rests := h.resolve_left (by omega)
      exact State.inFlightOver_rests (by rw [State.loanReported_own taken]; exact rests)
    · rfl
  rw [acts] at ended
  refine ⟨by rw [ended.loan, State.loanReported_own taken], fun m ne => by rw [ended.loan, State.loanReported_others taken ne], ?_, ?_⟩
  · rw [ended.loans, ← taken.loans]; rfl
  · rw [ended.answerList, (w.loanReported_touches ..).answerList, list]

include taken list ended in
/-- A LAPSING loan that nobody returns is LAPSED, and its bay is examined (R15). -/
theorem State.answerEnd_lapses (last : (s.loan n).inFlight ≤ 1) (st : (s.loan n).state = .lapsing) (none : (s.loan n).returnCell = none)
    (unlisted : n ∉ s.waiting (s.loan n).bay) :
    ∃ granted, t.loan n = { (s.loan n).reported reserved r with state := .lapsed, inFlight := 0 }
      ∧ (∀ m, m ≠ n → m ∉ granted → t.loan m = s.loan m)
      ∧ t.exchange.answerList = rest ++ s.grantAnswers granted
      ∧ (s.waitingListed → (s.setLoan n { s.loan n with state := .lapsed }).examined t (s.loan n).bay granted) := by
  obtain ⟨u, hu⟩ : ∃ u, u = (w.loanReported n reserved r).setLoan n { (s.loan n).reported reserved r with state := .lapsed } := ⟨_, rfl⟩
  have acts : w.transferEnded n reserved r = u.examine (s.loan n).bay := by
    have own := State.loanReported_own (reserved := reserved) (r := r) taken (n := n)
    rw [State.transferEnded_over taken last, State.inFlightOver_lapses (by rw [own]; exact st) (by rw [own]; exact none), own, hu]; rfl
  have touched : Touches (.loans :: takenParts) s u := by
    rw [hu]; exact (State.setLoan_touches ..).after rfl (State.loanReported_touches_taken taken)
  have loan : ∀ m, u.loan m = if m = n then { (s.loan n).reported reserved r with state := .lapsed } else s.loan m := fun m => by
    rw [hu, State.loan_setLoan]
    split
    · rfl
    · next ne => exact State.loanReported_others taken ne
  have lists : ∀ c, u.waiting c = s.waiting c := fun c => by
    rw [hu, ← taken.waiting]; rfl
  have out : n ∉ u.grantedOn (s.loan n).bay := fun g => unlisted (lists _ ▸ (u.grantedOn_sublist _).subset g)
  rw [acts] at ended
  refine ⟨u.grantedOn (s.loan n).bay, ?_, fun m ne stays => ?_, ?_, fun listed => ?_⟩
  · have zero : (s.loan n).inFlight - 1 = 0 := by omega
    rw [ended.loan, State.examine_loan, if_neg out, loan, if_pos rfl]
    simp only [Loan.reported, zero]
  · rw [ended.loan, State.examine_loan, if_neg stays, loan, if_neg ne]
  · have same : u.grantAnswers (u.grantedOn (s.loan n).bay) = s.grantAnswers (u.grantedOn (s.loan n).bay) :=
      List.filterMap_congr fun m hm => by rw [loan, if_neg (fun e : m = n => out (e ▸ hm))]
    have before : u.exchange.answerList = rest := by
      rw [hu, (State.setLoan_touches ..).answerList, (w.loanReported_touches ..).answerList, list]
    rw [ended.answerList, (u.examine_answered _).1, before, same]
  · have seen : ∀ m, (s.setLoan n { s.loan n with state := .lapsed }).loan m
        = if m = n then { s.loan n with state := .lapsed } else s.loan m := fun m => State.loan_setLoan ..
    have other : ∀ m ∈ s.waiting (s.loan n).bay, u.loan m = s.loan m
        ∧ (s.setLoan n { s.loan n with state := .lapsed }).loan m = s.loan m := fun m hm => by
      have ne : m ≠ n := fun e => unlisted (e ▸ hm)
      rw [loan, seen, if_neg ne]; exact ⟨rfl, if_neg ne⟩
    refine State.examined_of_examine ?_ (fun m hm => ?_) (lists _) (fun m hm => ?_) (fun m hm j _ => ?_)
      (State.waiting_of_loans ended.loans _) (fun m _ => ended.loan m)
    · rw [lists]; exact (listed _).1
    · rw [lists] at hm; rw [(other m hm).1]; exact listed.state hm
    · rw [(other m hm).1, (other m hm).2]
    · rw [(other m hm).1, (other m hm).2, loan, seen]
      split
      · simp [LoanState.inConflictSet]
      · rfl

include taken ended in
/-- A loan that is returned is freed with its last transfer, its return cell answered and its bay examined (R15, R20). -/
theorem State.answerEnd_returns (list : w.exchange.answerList = rest) (last : (s.loan n).inFlight ≤ 1)
    (h : (s.loan n).state = .returning ∨ ((s.loan n).state = .lapsing ∧ (s.loan n).returnCell ≠ none)) :
    ∃ granted, t.loan n = .free ∧ n ∉ t.exchange.lapseQueue ∧ (∀ m, m ≠ n → m ∉ granted → t.loan m = s.loan m)
      ∧ t.exchange.answerList = rest ++ (s.loan n).returnCell.toList.map (fun c => plain c .ok n) ++ s.grantAnswers granted
      ∧ (s.waitingListed → (s.freeLoan n).examined t (s.loan n).bay granted)
      ∧ (s.waitingListed → s.tablesOrdered → s.retiresWithout (s.loan n).bay n → s.standbySent t (s.loan n).bay) := by
  obtain ⟨u, hu⟩ : ∃ u, u = w.loanReported n reserved r := ⟨_, rfl⟩
  have own : u.loan n = (s.loan n).reported reserved r := by rw [hu]; exact State.loanReported_own taken
  have others : ∀ m, m ≠ n → u.loan m = s.loan m := fun m ne => by rw [hu]; exact State.loanReported_others taken ne
  have lists : ∀ c, u.waiting c = s.waiting c := fun c => by rw [hu]; exact State.loanReported_waiting_taken taken c
  have touched : Touches (.loans :: takenParts) s u := by rw [hu]; exact State.loanReported_touches_taken taken
  have place : (u.loan n).bay = (s.loan n).bay ∧ (u.loan n).returnCell = (s.loan n).returnCell := by rw [own]; exact ⟨rfl, rfl⟩
  have acts : w.transferEnded n reserved r = ((u.finishReturn n).examine (u.loan n).bay).completionTest (u.loan n).bay := by
    rw [State.transferEnded_over taken last, ← hu]
    exact State.inFlightOver_returns (by rw [own]; exact h)
  rw [acts] at ended
  have event : ∀ x : State, x.loans = ((u.finishReturn n).examine (u.loan n).bay).loans → u.freedAndExamined (u.finishReturn n) x n :=
    fun x hx => ⟨u.finishReturn_loans n, hx⟩
  have final := event t (ended.loans.trans (State.completionTest_touches ..).loans)
  have freed : ∀ m, (s.freeLoan n).loan m = (u.freeLoan n).loan m := fun m => by
    rw [State.freeLoan_loan, State.freeLoan_loan]
    split
    · rfl
    · next ne => exact (others m ne).symm
  have freedLists : ∀ c, (s.freeLoan n).waiting c = (u.freeLoan n).waiting c := fun c => by
    rw [State.freeLoan_waiting, State.freeLoan_waiting, lists, place.1]
  refine ⟨(u.finishReturn n).grantedOn (u.loan n).bay, final.freed, ?_, fun m ne stays => ?_, ?_, fun listed => ?_,
    fun listed ordered retires => ?_⟩
  · rw [ended.lapseQueue, (State.completionTest_touches ..).lapseQueue, (State.examine_touches ..).lapseQueue,
      State.finishReturn_lapseQueue]
    simp
  · rw [final.others m ne stays, others m ne]
  · have answers : u.grantAnswers ((u.finishReturn n).grantedOn (u.loan n).bay) = s.grantAnswers ((u.finishReturn n).grantedOn (u.loan n).bay) :=
      List.filterMap_congr fun m hm => by rw [others m (fun e : m = n => final.out (e ▸ hm))]
    have before : u.exchange.answerList = rest := by rw [hu, (w.loanReported_touches ..).answerList, list]
    rw [ended.answerList, (u.finishReturn_examined_answered n _).1, final.answers, answers, before, place.2, List.append_assoc]
  · rw [← place.1]
    exact (final.examined (hu ▸ State.loanReported_listed taken listed)).seen_of freed freedLists
  · have sent := (event _ rfl).standbySent ((State.examine_touches ..).after rfl (State.finishReturn_touches ..)
        : Touches [.answers, .lapseQueue, .loans, .notices] u ((u.finishReturn n).examine (u.loan n).bay))
      (hu ▸ State.loanReported_listed taken listed) (hu ▸ State.loanReported_ordered taken ordered.1)
      (by rw [place.1]; exact retires.congr touched others)
    rw [place.1] at sent
    refine sent.congr (touched.bay _) (touched.lines _) ?_
    rw [ended.bay, (State.beginRecords_touches _).bay, place.1]

include taken ended in
/-- A FAULTED loan that is returned is freed with its last transfer, and its return cell answered (R23). -/
theorem State.answerEnd_frees (list : w.exchange.answerList = rest) (last : (s.loan n).inFlight ≤ 1) (st : (s.loan n).state = .faulted)
    (some : (s.loan n).returnCell ≠ none) :
    t.loan n = .free ∧ s.otherLoans t n ∧ n ∉ t.exchange.lapseQueue
      ∧ t.exchange.answerList = rest ++ (s.loan n).returnCell.toList.map (fun c => plain c .ok n)
      ∧ (s.tablesOrdered → s.retiresWithout (s.loan n).bay n → s.standbySent t (s.loan n).bay) := by
  obtain ⟨u, hu⟩ : ∃ u, u = w.loanReported n reserved r := ⟨_, rfl⟩
  have own : u.loan n = (s.loan n).reported reserved r := by rw [hu]; exact State.loanReported_own taken
  have others : ∀ m, m ≠ n → u.loan m = s.loan m := fun m ne => by rw [hu]; exact State.loanReported_others taken ne
  have touched : Touches (.loans :: takenParts) s u := by rw [hu]; exact State.loanReported_touches_taken taken
  have returned : Touches (.lapseQueue :: .loans :: takenParts) s (u.finishReturn n) :=
    (State.finishReturn_touches ..).after rfl (touched.mono rfl)
  have loan : ∀ m, (u.finishReturn n).loan m = if m = n then .free else s.loan m := fun m => by
    rw [State.finishReturn_loan]
    split
    · rfl
    · next ne => exact others m ne
  have acts : w.transferEnded n reserved r = (u.finishReturn n).completionTest (s.loan n).bay := by
    rw [State.transferEnded_over taken last, ← hu, State.inFlightOver_frees (by rw [own]; exact st) (by rw [own]; exact some), own]; rfl
  rw [acts] at ended
  have after := State.completionTest_touches (u.finishReturn n) (s.loan n).bay
  refine ⟨?_, fun m ne => ?_, ?_, ?_, fun ordered retires => ?_⟩
  · rw [ended.loan, after.loan, loan, if_pos rfl]
  · rw [ended.loan, after.loan, loan, if_neg ne]
  · rw [ended.lapseQueue, after.lapseQueue, State.finishReturn_lapseQueue]
    simp
  · have before : u.exchange.answerList = rest := by rw [hu, (w.loanReported_touches ..).answerList, list]
    rw [ended.answerList, after.answerList, (u.finishReturn_answered n).1, before, own]; rfl
  · have table : Table.ordered (u.finishReturn n).loans.table := by
      rw [u.finishReturn_loans, State.freeLoan_loans]
      exact Table.ordered_set (d := Loan.free) (n := n) (v := Loan.free) (hu ▸ State.loanReported_ordered taken ordered.1)
    refine (retires.standbySent returned table (by rw [loan, if_pos rfl]; rfl) (fun m ne _ => by rw [loan, if_neg ne])).congr rfl rfl ?_
    rw [ended.bay, (State.beginRecords_touches _).bay]

end

section
variable {s t w z : State} {a : Answer} {rest : List AnswerWrite} {c : Nat}

/-! ## The Answer Queue and the Held Cell set behind an answer (R178) -/

/-- The answer has been written, the Answer Write list goes on, and the cell is queued and held no longer. -/
def State.answerTaken (s : State) (a : Answer) (rest : List AnswerWrite) : State :=
  ((((s.pokeAnswer a).pokeHand a.cell).nextAnswer rest).growAnswers a.cell).unhold a.cell

theorem State.pokedAnswer_touches (s : State) (a : Answer) : Touches [.hostMem] s ((s.pokeAnswer a).pokeHand a.cell) :=
  (State.pokeHand_touches ..).after rfl (State.pokeAnswer_touches ..)

theorem State.answerTaken_touches (s : State) (a : Answer) (rest : List AnswerWrite) :
    Touches [.answers, .answerQueue, .notices, .held, .hostMem] s (s.answerTaken a rest) :=
  (State.unhold_touches ..).after rfl ((State.growAnswers_touches ..).after rfl ((State.nextAnswer_touches ..).after rfl
    ((s.pokedAnswer_touches a).mono rfl)))

theorem State.answerTaken_hostMem (s : State) (a : Answer) (rest : List AnswerWrite) :
    (s.answerTaken a rest).hostMem = ((s.pokeAnswer a).pokeHand a.cell).hostMem := rfl

theorem State.answerTaken_answerList : (s.answerTaken a rest).exchange.answerList = rest := rfl
theorem State.answerTaken_answerBusy : (s.answerTaken a rest).exchange.answerBusy = !rest.isEmpty := rfl

theorem State.answerTaken_answerQueue (s : State) (a : Answer) (rest : List AnswerWrite) :
    (s.answerTaken a rest).exchange.answerQueue = s.exchange.answerQueue ++ [a.cell] := by
  rw [← (s.pokedAnswer_touches a).answerQueue]; rfl

theorem State.answerTaken_held (s : State) (a : Answer) (rest : List AnswerWrite) :
    (s.answerTaken a rest).exchange.held = s.exchange.held.filter (fun o => o.cell != a.cell) := by
  rw [← (s.pokedAnswer_touches a).held]; rfl

theorem State.growAnswers_flags_answer (s : State) (c : Nat) : (s.growAnswers c).notices.flags.answer
    = (s.exchange.control.answerMode == .each || s.notices.flags.answer || s.exchange.answerQueue.isEmpty) := by
  rw [State.growAnswers, State.setFlags, Notices.renew_flags]
  cases s.exchange.control.answerMode <;> rfl

theorem State.answerTaken_flags_answer (s : State) (a : Answer) (rest : List AnswerWrite) : (s.answerTaken a rest).notices.flags.answer
    = (s.exchange.control.answerMode == .each || s.notices.flags.answer || s.exchange.answerQueue.isEmpty) := by
  have poked := s.pokedAnswer_touches a
  rw [← poked.control, ← poked.notices, ← poked.answerQueue]
  exact State.growAnswers_flags_answer ((((s.pokeAnswer a).pokeHand a.cell).nextAnswer rest)) a.cell

/-- Of the held orders that of one cell is gone. -/
theorem State.order?_of_held (h : t.exchange.held = s.exchange.held.filter (fun o => o.cell != c)) (d : Nat) :
    t.order? d = if d = c then none else s.order? d := by
  rw [State.order?, h, List.find?_filter]
  split
  · next own =>
    rw [List.find?_eq_none]; simp [own]
  · next ne =>
    refine congrArg (fun p => s.exchange.held.find? p) (funext fun o => ?_)
    by_cases e : o.cell = d
    · simp [e, ne]
    · simp [e]

/-! ## The reports of an answer -/

theorem State.reportAnswer_none (s : State) (a : Answer) : s.reportAnswer a none = s.meterAnswered none := rfl

theorem State.reportAnswer_service {x : Transfer} (h : x.loan = none) : s.reportAnswer a (some x) = s.meterAnswered (some x.group) := by
  obtain ⟨⟩ := x
  cases h; rfl

theorem State.reportAnswer_loan {x : Transfer} {n : Nat} (h : x.loan = some n) :
    s.reportAnswer a (some x) = (s.meterAnswered (some x.group)).transferEnded n x.reserved a.result := by
  obtain ⟨⟩ := x
  cases h; rfl

theorem State.reportAnswer_answered (s : State) (a : Answer) (x : Option Transfer) :
    (∃ more, s.answered (s.reportAnswer a x) more)
      ∧ (s.reportAnswer a x).notices.flags.answer = s.notices.flags.answer := by
  have metered : ∀ g, s.answered (s.meterAnswered g) [] := fun g => (State.meterAnswered_touches ..).answered_nil
  have quiet : ∀ g, (s.meterAnswered g).notices = s.notices := fun g => (State.meterAnswered_touches ..).notices
  match x with
  | none => exact ⟨⟨[], metered _⟩, congrArg (fun m : Notices => m.flags.answer) (quiet none)⟩
  | some x =>
    cases own : x.loan with
    | none => rw [State.reportAnswer_service own]; exact ⟨⟨[], metered _⟩, congrArg (fun m : Notices => m.flags.answer) (quiet _)⟩
    | some n =>
      obtain ⟨more, ended⟩ := (s.meterAnswered (some x.group)).transferEnded_answered n x.reserved a.result
      rw [State.reportAnswer_loan own, State.transferEnded_flags_answer, quiet]
      exact ⟨⟨more, (metered _).trans ended (State.meterAnswered_touches ..).serving⟩, rfl⟩

/-! ## What stops behind the last answer (R185) -/

theorem State.tryStop_stopsOnceEmpty (part : z.exchange.part = s.exchange.part) (after : Touches [.ports] z.tryStop t) :
    s.stopsOnceEmpty t := by
  have stopped := State.tryStop_touches z
  have take : t.exchange.take = z.exchange.take := by
    have same : ∀ {ps : List Part} {u v : State}, Touches ps u v → Part.intake ∉ ps → v.exchange.take = u.exchange.take := fun k w => by
      obtain ⟨-, -, -, -, -, take⟩ := k.same .intake w; exact take
    rw [same after (by decide), same stopped (by decide)]
  rw [State.stopsOnceEmpty, after.part, after.held, after.answerList, take, stopped.held, stopped.answerList, ← part]
  unfold State.tryStop
  split <;> rfl

end

/-! ## The two events -/

section
variable {s : State} {a : Answer} {rest : List AnswerWrite}

theorem exec_answerWritten (s : State) : exec .answerWritten s = .next s.answerWritten := rfl
theorem exec_interimWriteEnd (s : State) : exec .interimWriteEnd s = .next s.interimWritten := rfl

theorem State.answerWritten_eq (busy : s.exchange.answerBusy = true) (list : s.exchange.answerList = .answer a :: rest) :
    s.answerWritten = if s.serving then ((s.answerTaken a rest).reportAnswer a (s.transfer? a.cell)).tryStop.beginRecords
      else ((s.pokeAnswer a).pokeHand a.cell).idleAnswers := by
  have poked := s.pokedAnswer_touches a
  have ended : s.answerWritten = if ((s.pokeAnswer a).pokeHand a.cell).serving then
      (((s.pokeAnswer a).pokeHand a.cell).finishAnswer a rest).beginRecords else ((s.pokeAnswer a).pokeHand a.cell).idleAnswers := by
    unfold State.answerWritten
    simp only [busy, list]
  rw [ended, poked.serving, State.finishAnswer, poked.transfer]; rfl

theorem State.interimWritten_eq {c n : Nat} (busy : s.exchange.answerBusy = true) (list : s.exchange.answerList = .interim c n :: rest) :
    s.interimWritten = if s.serving then ((s.poke (s.cellAddress c 116) (leBytes 4 n)).nextAnswer rest).tryStop
      else (s.poke (s.cellAddress c 116) (leBytes 4 n)).idleAnswers := by
  unfold State.interimWritten
  simp only [busy, list]; rfl

end

section
variable {s t : State} {a : Answer} {rest : List AnswerWrite}

theorem State.meterAnswered_orders (s : State) (g : Nat) :
    ((s.meterAnswered (some g)).meter g).orders.current = min 4294967295 ((s.meter g).orders.current + 1) := by
  rw [State.meterAnswered, State.meter_setMeter, if_pos rfl]; rfl

/-- The end of an answer's write leaves in a part that serves orders the Answer Queue, the Held Cell set, the Answer Write list and the
ANSWER flag so (R178, R185, R192). -/
theorem State.answerWritten_lists (serving : s.serving = true)
    (event : t = ((s.answerTaken a rest).reportAnswer a (s.transfer? a.cell)).tryStop.beginRecords) :
    t.exchange.answerQueue = s.exchange.answerQueue ++ [a.cell] ∧ t.isHeld a.cell = false
      ∧ (∀ c, c ≠ a.cell → t.order? c = s.order? c) ∧ (∃ more, t.exchange.answerList = rest ++ more)
      ∧ t.exchange.held = s.exchange.held.filter (fun o => o.cell != a.cell)
      ∧ t.exchange.answerBusy = !t.exchange.answerList.isEmpty ∧ s.stopsOnceEmpty t
      ∧ t.notices.flags.answer = (s.exchange.control.answerMode == .each || s.notices.flags.answer || s.exchange.answerQueue.isEmpty) := by
  obtain ⟨⟨more, answered⟩, flag⟩ := (s.answerTaken a rest).reportAnswer_answered a (s.transfer? a.cell)
  have taken := s.answerTaken_touches a rest
  have reported := State.reportAnswer_touches (s.answerTaken a rest) a (s.transfer? a.cell)
  have after : Touches [.part, .ports] ((s.answerTaken a rest).reportAnswer a (s.transfer? a.cell)) t := by
    rw [event]; exact (State.beginRecords_touches _).after rfl ((State.tryStop_touches _).mono rfl)
  have held : t.exchange.held = s.exchange.held.filter (fun o => o.cell != a.cell) := by
    rw [after.held, reported.held, State.answerTaken_held]
  have list : t.exchange.answerList = rest ++ more := by rw [after.answerList, answered.1, State.answerTaken_answerList]
  have orders := State.order?_of_held held
  refine ⟨?_, ?_, fun c ne => ?_, ⟨more, list⟩, held, ?_, ?_, ?_⟩
  · rw [after.answerQueue, reported.answerQueue, State.answerTaken_answerQueue]
  · rw [State.isHeld, orders, if_pos rfl]; rfl
  · rw [orders, if_neg ne]
  · rw [list, after.answerBusy, answered.2, State.answerTaken_answerBusy, taken.serving, serving]
    cases rest <;> cases more <;> rfl
  · refine State.tryStop_stopsOnceEmpty (z := (s.answerTaken a rest).reportAnswer a (s.transfer? a.cell)) ?_
      (event ▸ State.beginRecords_touches _)
    rw [reported.part, taken.part]
  · rw [after.notices, flag, State.answerTaken_flags_answer]

theorem State.answerWritten_ungrouped (none : s.transfer? a.cell = none)
    (event : t = ((s.answerTaken a rest).reportAnswer a (s.transfer? a.cell)).tryStop.beginRecords) :
    t.meters = { s.meters with noGroup := s.meters.noGroup.add 1 } ∧ t.loans = s.loans := by
  have taken := s.answerTaken_touches a rest
  have after : Touches [.part, .ports] ((s.answerTaken a rest).meterAnswered .none) t := by
    rw [event, none]; exact (State.beginRecords_touches _).after rfl ((State.tryStop_touches _).mono rfl)
  refine ⟨?_, ?_⟩
  · rw [after.meters, ← taken.meters]; rfl
  · rw [after.loans, (State.meterAnswered_touches ..).loans, taken.loans]

/-- What the answer of a transfer is counted under, and the state in which its loan is told. -/
theorem State.answerWritten_grouped {x : Transfer} (order : s.transfer? a.cell = some x)
    (event : t = ((s.answerTaken a rest).reportAnswer a (s.transfer? a.cell)).tryStop.beginRecords) :
    (t.meter x.group).orders.current = min 4294967295 ((s.meter x.group).orders.current + 1)
      ∧ (x.loan = none → t.loans = s.loans)
      ∧ ∀ n, x.loan = some n → ∃ w, Touches takenParts s w ∧ w.exchange.answerList = rest
          ∧ Touches [.part, .ports] (w.transferEnded n x.reserved a.result) t := by
  obtain ⟨w, hw⟩ : ∃ w, w = (s.answerTaken a rest).meterAnswered (some x.group) := ⟨_, rfl⟩
  have metered := State.meterAnswered_touches (s.answerTaken a rest) (some x.group)
  have taken : Touches takenParts s w := by rw [hw]; exact metered.after rfl ((s.answerTaken_touches a rest).mono rfl)
  have list : w.exchange.answerList = rest := by rw [hw, metered.answerList, State.answerTaken_answerList]
  have count : (w.meter x.group).orders.current = min 4294967295 ((s.meter x.group).orders.current + 1) := by
    rw [hw, State.meterAnswered_orders, (s.answerTaken_touches a rest).meter]
  have after : Touches [.part, .ports] ((s.answerTaken a rest).reportAnswer a (some x)) t := by
    rw [event, order]; exact (State.beginRecords_touches _).after rfl ((State.tryStop_touches _).mono rfl)
  cases own : x.loan with
  | none =>
    rw [State.reportAnswer_service own, ← hw] at after
    exact ⟨by rw [after.meter, count], fun _ => by rw [after.loans, hw, metered.loans, (s.answerTaken_touches a rest).loans],
      fun n some => absurd some (by simp)⟩
  | some n =>
    rw [State.reportAnswer_loan own, ← hw] at after
    refine ⟨by rw [after.meter, (State.transferEnded_touches ..).meter, count], fun none => absurd none (by simp), fun m some => ?_⟩
    cases some
    exact ⟨w, taken, list, after⟩

/-- An interim write that has ended leaves the number in the detail field (R7, R178, R199). -/
theorem State.interimWritten_leaves {c n : Nat} (busy : s.exchange.answerBusy = true)
    (list : s.exchange.answerList = .interim c n :: rest) :
    (∀ i, i < 4 → Memory.read s.interimWritten.hostMem (s.cellAddress c (116 + i) % 18446744073709551616) = (leBytes 4 n)[i]?)
      ∧ s.otherBytes s.interimWritten (s.cellAddress c 116) 4
      ∧ (s.exchange.part ∈ [.stopped, .running, .stopping] → s.interimWritten.exchange.answerList = rest
          ∧ s.interimWritten.exchange.answerBusy = !rest.isEmpty ∧ s.stopsOnceEmpty s.interimWritten)
      ∧ (s.exchange.part ∉ [.stopped, .running, .stopping] →
          s.interimWritten.exchange = { s.exchange with answerBusy := false }) := by
  have event := State.interimWritten_eq busy list
  have stopped := State.tryStop_touches ((s.poke (s.cellAddress c 116) (leBytes 4 n)).nextAnswer rest)
  have memory : s.interimWritten.hostMem = Memory.writeBytes s.hostMem (s.cellAddress c 116) (leBytes 4 n) := by
    rw [event]
    split
    · rw [stopped.hostMem]; rfl
    · rfl
  refine ⟨fun i hi => ?_, fun x away => ?_, fun serves => ?_, fun other => ?_⟩
  · rw [memory, show s.cellAddress c (116 + i) = s.cellAddress c 116 + i from (Nat.add_assoc ..).symm]
    exact Memory.read_written (A := s.cellAddress c 116) (bs := leBytes 4 n) (by rw [leBytes_length]; decide) (by rw [leBytes_length]; exact hi)
  · rw [memory]
    exact Memory.read_writeBytes_other _ _ _ _ (by rw [leBytes_length]; decide) (by rw [leBytes_length]; exact away)
  · rw [event, if_pos (s.serving_iff.2 serves)]
    exact ⟨by rw [stopped.answerList]; rfl, by rw [stopped.answerBusy]; rfl, State.tryStop_stopsOnceEmpty
      (z := (s.poke (s.cellAddress c 116) (leBytes 4 n)).nextAnswer rest) rfl (Touches.refl ..)⟩
  · rw [event, if_neg (fun on => other (s.serving_iff.1 on))]; rfl

end

/-- Settles O55: the bytes of the answer, then the queue and the lists, then what the report asks of the loan, state by state. -/
theorem answersAreWritten : Obligations.AnswersAreWritten := by
  refine ⟨rfl, rfl, fun a stamp hostTag => ⟨answerImage_length .., answerImage_laidOut a stamp hostTag⟩, fun s a rest busy list => ?_,
    fun _ _ => rfl, fun a offset r => a.reported_ok, fun a offset r => a.reported_failed, fun s c n rest busy list => ?_⟩
  · obtain ⟨t, ht⟩ : ∃ t, t = s.answerWritten := ⟨_, rfl⟩
    have event := State.answerWritten_eq busy list
    have memory : t.hostMem = ((s.pokeAnswer a).pokeHand a.cell).hostMem := by
      rw [ht, event]
      split
      · rw [(State.beginRecords_touches _).hostMem, (State.tryStop_touches _).hostMem, (State.reportAnswer_touches ..).hostMem,
          State.answerTaken_hostMem]
      · rfl
    obtain ⟨hand, answer, snapshot, between, outside⟩ := State.answerBytes memory
    refine ⟨t, (exec_answerWritten s).trans (congrArg _ ht.symm), hand, answer, snapshot, between, outside, fun serves => ?_, fun other => ?_⟩
    · have serving := s.serving_iff.2 serves
      rw [if_pos serving, ← ht] at event
      obtain ⟨queue, gone, orders, more, held, writing, stops, flag⟩ := State.answerWritten_lists serving event
      refine ⟨queue, gone, orders, more, held, writing, stops, flag, fun none => ?_, fun x order => ?_⟩
      · exact State.answerWritten_ungrouped none event
      · obtain ⟨metered, serviced, under⟩ := State.answerWritten_grouped order event
        refine ⟨metered, serviced, fun n own => ?_⟩
        obtain ⟨w, taken, list, ended⟩ := under n own
        refine ⟨State.answerEnd_rests taken list ended, fun last st none unlisted => State.answerEnd_lapses taken list ended last st none unlisted,
          fun last h => ?_, fun last st some => State.answerEnd_frees taken ended list last st some⟩
        obtain ⟨granted, freed, unqueued, others, answers, examined, standby⟩ := State.answerEnd_returns taken ended list last h
        exact ⟨granted, freed, unqueued, others, answers, examined, standby⟩
    · rw [if_neg (fun on => other (s.serving_iff.1 on))] at event
      rw [ht, event]
      exact ⟨by rw [State.pokeAnswer_eq]; rfl, (State.idleAnswers_touches _).after rfl ((s.pokedAnswer_touches a).mono rfl)⟩
  · obtain ⟨bytes, outside, serves, other⟩ := State.interimWritten_leaves busy list
    exact ⟨s.interimWritten, exec_interimWriteEnd s, bytes, outside, serves, other, s.interimWritten_touches⟩

/-! ## Tables by rising number, and folds over entries that take their change once -/

section
variable {α β : Type} {d : α} {t : Table α}

/-- What is read of the listed entries that satisfy p, by number or in the table. -/
theorem Table.keys_filter_map (h : Table.ordered t) (p : α → Bool) (f : α → β) :
    ((Table.keys t).filter (fun k => p (Table.get d t k))).map (fun k => f (Table.get d t k)) = (t.filter (fun e => p e.2)).map (fun e => f e.2) := by
  have value : ∀ e ∈ t, Table.get d t e.1 = e.2 := fun e he => Table.get_of_mem h he
  rw [Table.keys, List.filter_map, List.map_map]
  have kept : t.filter ((fun k => p (Table.get d t k)) ∘ Prod.fst) = t.filter (fun e => p e.2) :=
    List.filter_congr fun e he => by simp only [Function.comp, value e he]
  rw [kept]
  exact List.map_congr_left fun e he => by simp only [Function.comp, value e (List.mem_of_mem_filter he)]

theorem Table.keys_filter_length (h : Table.ordered t) (p : α → Bool) :
    ((Table.keys t).filter (fun k => p (Table.get d t k))).length = t.countP (fun e => p e.2) := by
  have lists := congrArg List.length (Table.keys_filter_map (d := d) h p (fun _ => ()))
  rw [List.length_map, List.length_map] at lists
  rw [lists, List.countP_eq_length_filter]

theorem Table.keys_nodup (h : Table.ordered t) : (Table.keys t).Nodup :=
  h.imp fun lt => Nat.ne_of_lt lt

end

/-- Each entry changes by a step that does nothing when it is taken again. -/
theorem foldl_entry_again {α : Type} {get : State → Nat → α} {f : State → Nat → State} {g : α → α}
    (own : ∀ s b c, get (f s b) c = if c = b then g (get s b) else get s c) (again : ∀ v, g (g v) = g v) (bs : List Nat) (s : State)
    (c : Nat) : get (bs.foldl f s) c = if c ∈ bs then g (get s c) else get s c := by
  induction bs generalizing s with
  | nil => rfl
  | cons b bs ih =>
    rw [List.foldl_cons, ih, own]
    by_cases e : c = b
    · subst e; simp [again]
    · simp only [if_neg e, List.mem_cons, or_iff_right e]

/-- Answers of steps that decide some each, one after another. -/
theorem State.answered.foldl {f : State → Nat → State} {as : State → Nat → List AnswerWrite}
    (each : ∀ s n, State.answered s (f s n) (as s n)) (serving : ∀ s n, (f s n).serving = s.serving) (ns : List Nat) (s : State) :
    ∃ all, s.answered (ns.foldl f s) all := by
  induction ns generalizing s with
  | nil => exact ⟨[], s.answered_refl⟩
  | cons n ns ih =>
    obtain ⟨all, rest⟩ := ih (f s n)
    exact ⟨_, (each s n).trans rest (serving s n)⟩

/-! ## The loans of a faulted bay (R27) -/

section
variable {s : State} {b n c : Nat} {cause : Cause}

theorem State.faultWaiting_answered (s : State) (n : Nat) :
    s.answered (s.faultWaiting n) ((s.loan n).openingCell.toList.map (fun x => plain x .diskFault n)) := by
  have freed := ((s.replyOpt_answered (s.loan n).openingCell .diskFault n).trans (State.freeLoan_touches _ n).answered_nil
    (State.replyOpt_touches ..).serving)
  rwa [List.append_nil] at freed

/-- The waiting loans are freed, and answered in their opening cells. -/
theorem State.faultWaitings_loan (s : State) (ns : List Nat) (m : Nat) :
    (ns.foldl (fun s n => s.faultWaiting n) s).loan m = if m ∈ ns then .free else s.loan m :=
  foldl_entry_again (get := State.loan) (g := fun _ => .free) (fun u k j => u.faultWaiting_loan j k) (fun _ => rfl) ns s m

theorem State.faultWaitings_answers (s : State) (ns : List Nat) : ∃ all, s.answered (ns.foldl (fun s n => s.faultWaiting n) s) all :=
  State.answered.foldl State.faultWaiting_answered (fun u k => (u.faultWaiting_touches k).serving) ns s

theorem State.faultWaitings_answer {ns : List Nat} (mem : n ∈ ns) (opening : (s.loan n).openingCell = some c) :
    plain c .diskFault n ∈ (ns.foldl (fun s n => s.faultWaiting n) s).exchange.answerList := by
  induction ns generalizing s with
  | nil => exact absurd mem List.not_mem_nil
  | cons k ns ih =>
    rw [List.foldl_cons]
    by_cases e : n = k
    · subst e
      obtain ⟨all, answered⟩ := (s.faultWaiting n).faultWaitings_answers ns
      rw [answered.1, (s.faultWaiting_answered n).1, opening]
      simp
    · exact ih ((List.mem_cons.1 mem).resolve_left e) (by rwa [State.faultWaiting_loan, if_neg e])

theorem State.faultLoanAll_loan (s : State) (ns : List Nat) (m : Nat) : (ns.foldl (fun s n => s.faultLoan cause n) s).loan m
    = if m ∈ ns then { s.loan m with state := .faulted, faultCause := cause } else s.loan m :=
  foldl_entry_again (get := State.loan) (g := fun l => { l with state := .faulted, faultCause := cause })
    (fun u k j => u.faultLoan_loan j k cause) (fun _ => rfl) ns s m

theorem State.faultLoan_lapseQueue (s : State) (n : Nat) :
    (s.faultLoan cause n).exchange.lapseQueue = s.exchange.lapseQueue.filter (fun m => m != n) := State.dropLapse_lapseQueue ..

theorem State.faultLoanAll_unqueued {ns : List Nat} (h : n ∈ ns ∨ n ∉ s.exchange.lapseQueue) :
    n ∉ (ns.foldl (fun s n => s.faultLoan cause n) s).exchange.lapseQueue := by
  induction ns generalizing s with
  | nil => exact h.resolve_left List.not_mem_nil
  | cons k ns ih =>
    refine ih ?_
    by_cases e : n ∈ ns
    · exact .inl e
    · refine .inr fun mem => ?_
      rw [State.faultLoan_lapseQueue, List.mem_filter, bne_iff_ne] at mem
      rcases h with h | h
      · exact mem.2 ((List.mem_cons.1 h).resolve_right e)
      · exact h mem.1

/-- A loan by the end of the handling of a fault. -/
theorem State.faultLoans_loan (s : State) (b : Nat) (cause : Cause) (m : Nat) : (s.faultLoans b cause).loan m =
    if m ∈ s.toFault b then { (if m ∈ s.waiting b then Loan.free else s.loan m) with state := .faulted, faultCause := cause }
    else if m ∈ s.waiting b then .free else s.loan m := by
  rw [State.faultLoans, State.faultLoanAll_loan, State.faultWaitings_loan]

theorem State.mem_toFault {m : Nat} :
    m ∈ s.toFault b ↔ (s.loan m).bay = b ∧ ((s.loan m).state.inConflictSet = true ∨ (s.loan m).state = .lapsed) := by
  rw [State.toFault, State.mem_loansWhere (by simp [Loan.free, LoanState.inConflictSet])]
  simp

theorem State.faultLoanAll_answerList (s : State) (ns : List Nat) :
    (ns.foldl (fun s n => s.faultLoan cause n) s).exchange.answerList = s.exchange.answerList :=
  (Touches.foldl (fun u k => State.faultLoan_touches u cause k) (Touches.refl _ s)).answerList

theorem State.faultLoans_answers (s : State) (b : Nat) (cause : Cause) : ∃ all, s.answered (s.faultLoans b cause) all := by
  obtain ⟨all, freed⟩ := s.faultWaitings_answers (s.waiting b)
  have faulted : Touches [.lapseQueue, .loans, .notices] ((s.waiting b).foldl (fun s n => s.faultWaiting n) s) (s.faultLoans b cause) :=
    Touches.foldl (fun u k => State.faultLoan_touches u cause k) (Touches.refl _ _)
  have serving : ((s.waiting b).foldl (fun s n => s.faultWaiting n) s).serving = s.serving :=
    (Touches.foldl (fun u k => State.faultWaiting_touches u k) (Touches.refl _ s)).serving
  exact ⟨_, freed.trans faulted.answered_nil serving⟩

/-- The Loan Manager's handling of a fault, as the word of the statements says it (R27). -/
theorem State.faultLoans_faultsLoans (s : State) (b : Nat) (cause : Cause) : s.faultsLoans (s.faultLoans b cause) b cause := by
  refine ⟨fun n bay unlisted hit => ?_, fun n listed bay st => ?_, fun n unlisted out => ?_⟩
  · have mem : n ∈ s.toFault b := State.mem_toFault.2 ⟨bay, hit⟩
    rw [State.faultLoans_loan, if_pos mem, if_neg unlisted]
    exact ⟨rfl, State.faultLoanAll_unqueued (.inl mem)⟩
  · have out : n ∉ s.toFault b := fun mem => by
      have hit := (State.mem_toFault.1 mem).2
      rw [st] at hit; simp [LoanState.inConflictSet] at hit
    refine ⟨by rw [State.faultLoans_loan, if_neg out, if_pos listed], fun c opening => ?_⟩
    rw [State.faultLoans, State.faultLoanAll_answerList]
    exact State.faultWaitings_answer listed opening
  · have spared : n ∉ s.toFault b := fun mem => by
      obtain ⟨bay, hit⟩ := State.mem_toFault.1 mem
      rcases out with other | st
      · exact other bay
      · simp only [List.mem_cons, List.not_mem_nil, or_false] at st
        rcases st with st | st | st <;> rw [st] at hit <;> simp [LoanState.inConflictSet] at hit
    rw [State.faultLoans_loan, if_neg spared, if_neg unlisted]

theorem State.loansFaultedBy_eq (ordered : Table.ordered s.loans.table) : s.loansFaultedBy b = s.loansHit b := by
  rw [State.loansFaultedBy, State.loansHit, State.toFault, State.loansWhere]
  exact congrArg ((s.waiting b).length + ·)
    (Table.keys_filter_length (d := Loan.free) ordered (fun l => l.bay == b && (l.state.inConflictSet || l.state == .lapsed)))

end

/-! ## The FIFOs, the command tags and the Slot Wait place of a faulted bay (R74) -/

section
variable {s : State} {b : Nat} {cause : Cause}

/-- A FIFO of a faulted bay. -/
def Fifo.faulted (q : Fifo) : Fifo := { q.giveBack with orders := [] }

theorem Fifo.faulted_eq (q : Fifo) :
    q.faulted = { orders := [], cost := none, tags := none, lastFinish := (q.tags.map (fun x => x.start)).getD q.lastFinish } := by
  unfold Fifo.faulted Fifo.giveBack
  cases h : q.tags with
  | none => simp
  | some x => rfl

theorem State.faultFifo_fifo (s : State) (b : Nat) (cause : Cause) (g c h : Nat) :
    (s.faultFifo b cause g).fifo c h = if fifoNumber c h = fifoNumber b g then (s.fifo b g).faulted else s.fifo c h := by
  rw [State.faultFifo, (State.replyAll_touches ..).fifo, State.fifo_setFifo]; rfl

theorem State.faultFifo_answered (s : State) (b : Nat) (cause : Cause) (g : Nat) :
    s.answered (s.faultFifo b cause g) ((s.fifo b g).orders.map (fun c => plain c .diskFault cause.code)) :=
  ((State.setFifo_touches ..).answered_nil).trans (State.replyAll_answered ..) rfl

/-- The scheduler empties the FIFOs of some groups of a bay. -/
def State.faultFifos (s : State) (b : Nat) (cause : Cause) (gs : List Nat) : State := gs.foldl (fun s g => s.faultFifo b cause g) s

theorem State.faultFifos_touches (s : State) (b : Nat) (cause : Cause) (gs : List Nat) :
    Touches [.answers, .fifos] s (s.faultFifos b cause gs) :=
  Touches.foldl (fun u g => State.faultFifo_touches u b cause g) (Touches.refl _ s)

theorem State.faultFifos_fifo (s : State) (b : Nat) (cause : Cause) (gs : List Nat) (once : gs.Nodup) (h : Nat) :
    (s.faultFifos b cause gs).fifo b h = if h ∈ gs then (s.fifo b h).faulted else s.fifo b h :=
  foldl_entry (get := fun u h => u.fifo b h) (g := Fifo.faulted) (fun u g h => by
    rw [State.faultFifo_fifo]
    simp only [fifoNumber, Nat.add_left_cancel_iff]) gs once s h

theorem State.faultFifos_fifo_other (s : State) {c h : Nat} (ne : c ≠ b) (bound : h < 16) (gs : List Nat) (groups : ∀ g ∈ gs, g < 16) :
    (s.faultFifos b cause gs).fifo c h = s.fifo c h := by
  unfold State.faultFifos
  induction gs generalizing s with
  | nil => rfl
  | cons g gs ih =>
    rw [List.foldl_cons, ih _ (fun g hg => groups g (List.mem_cons_of_mem _ hg)), State.faultFifo_fifo, if_neg]
    exact fun e => ne ((fifoNumber_inj _ _ _ _ (groups g List.mem_cons_self) bound).1 e).1

theorem State.faultFifos_answered (s : State) (b : Nat) (cause : Cause) (gs : List Nat) (once : gs.Nodup) :
    s.answered (s.faultFifos b cause gs) (gs.flatMap (fun g => (s.fifo b g).orders.map (fun c => plain c .diskFault cause.code))) := by
  unfold State.faultFifos
  induction gs generalizing s with
  | nil => exact s.answered_refl
  | cons g gs ih =>
    obtain ⟨fresh, once⟩ := List.nodup_cons.1 once
    have rest := ih (s.faultFifo b cause g) once
    have same : gs.flatMap (fun h => ((s.faultFifo b cause g).fifo b h).orders.map (fun c => plain c .diskFault cause.code))
        = gs.flatMap (fun h => (s.fifo b h).orders.map (fun c => plain c .diskFault cause.code)) :=
      List.flatMap_congr fun h hh => by
        rw [State.faultFifo_fifo, if_neg]
        intro e
        exact fresh (Nat.add_left_cancel e ▸ hh)
    rw [same] at rest
    exact (s.faultFifo_answered b cause g).trans rest (State.faultFifo_touches ..).serving

theorem State.faultShares_eq (s : State) (b : Nat) (cause : Cause) : s.faultShares b cause =
    ((s.faultFifos b cause allGroups).setArbiter b { (s.faultFifos b cause allGroups).arbiter b with tags := [] }).leaveSlotWait b := rfl

theorem State.faultShares_touches_fifos (s : State) (b : Nat) (cause : Cause) :
    Touches [.arbiters, .staging] (s.faultFifos b cause allGroups) (s.faultShares b cause) := by
  rw [State.faultShares_eq]
  exact (State.leaveSlotWait_touches ..).after rfl ((State.setArbiter_touches ..).mono rfl)

theorem State.faultShares_answered (s : State) (b : Nat) (cause : Cause) : s.answered (s.faultShares b cause)
    (allGroups.flatMap (fun g => (s.fifo b g).orders.map (fun c => plain c .diskFault cause.code))) := by
  have all := (s.faultFifos_answered b cause allGroups List.nodup_range).trans (s.faultShares_touches_fifos b cause).answered_nil
    (s.faultFifos_touches b cause allGroups).serving
  rwa [List.append_nil] at all

theorem State.faultShares_untagged (s : State) (b : Nat) (cause : Cause) (i : Nat) : (s.faultShares b cause).tagHolder b i = none := by
  rw [State.faultShares_eq, State.tagHolder, (State.leaveSlotWait_touches ..).arbiter, State.arbiter_setArbiter, if_pos rfl]; rfl

theorem State.leaveSlotWait_staging (s : State) (b : Nat) :
    (s.leaveSlotWait b).staging = { s.staging with slotWait := s.staging.slotWait.filter (fun x => x != b) } := rfl

theorem State.faultShares_staging (s : State) (b : Nat) (cause : Cause) : (s.faultShares b cause).staging =
    { s.staging with slotWait := s.staging.slotWait.filter (fun x => x != b) } := by
  rw [State.faultShares_eq, State.leaveSlotWait_staging, (State.setArbiter_touches ..).staging, (s.faultFifos_touches b cause allGroups).staging]

/-- The scheduler's handling of a fault, as the word of the statements says it (R59, R74). -/
theorem State.faultShares_faultsShares (s : State) (b : Nat) (cause : Cause) : s.faultsShares (s.faultShares b cause) b cause := by
  have after := s.faultShares_touches_fifos b cause
  refine ⟨fun g bound => ⟨?_, fun c mem => ?_⟩, fun c g ne bound => ?_, s.faultShares_untagged b cause, ?_⟩
  · rw [after.fifo, s.faultFifos_fifo b cause allGroups List.nodup_range, if_pos (show g ∈ allGroups from List.mem_range.2 bound),
      Fifo.faulted_eq]
  · rw [(s.faultShares_answered b cause).1]
    exact List.mem_append_right _ (List.mem_flatMap.2 ⟨g, List.mem_range.2 bound, List.mem_map.2 ⟨c, mem, rfl⟩⟩)
  · rw [after.fifo, State.faultFifos_fifo_other s ne bound allGroups (fun g hg => List.mem_range.1 hg)]
  · rw [State.faultShares_staging]; simp

end

/-! ## What single operations of the Staging Controller do to a slot -/

section
variable {s : State} {j k c : Nat} {v : Slot}

theorem State.leaveResidency_slot (s : State) (k m : Nat) : (s.leaveResidency k).slot m = s.slot m := rfl

theorem State.freeSlot_slot (s : State) (k m : Nat) : (s.freeSlot k).slot m = if m = k then .free else s.slot m := by
  rw [State.freeSlot, State.leaveResidency_slot, State.slot_setSlot]

/-- An offer leaves the slots as they were, or reserves the one that is offered (R89). -/
theorem State.offerSlot_slots (s : State) (k : Nat) : (s.offerSlot k).staging.slots = s.staging.slots
    ∨ (s.slot k).available = true
      ∧ ∃ b, (s.offerSlot k).staging.slots = (s.setSlot k { Slot.free with reservedFor := some b }).staging.slots := by
  unfold State.offerSlot
  split
  · exact .inl rfl
  · next bay rest _ =>
    dsimp only
    split
    · next ready =>
      exact .inr ⟨(Bool.and_eq_true_iff.1 ready).2, bay, rfl⟩
    · exact .inl rfl

theorem State.slot_of_slots {s t : State} (h : t.staging.slots = s.staging.slots) (m : Nat) : t.slot m = s.slot m := by
  rw [State.slot, h, State.slot]

theorem State.offerSlot_slot_other (s : State) (ne : j ≠ k) : (s.offerSlot k).slot j = s.slot j := by
  rcases s.offerSlot_slots k with same | ⟨-, b, given⟩
  · exact State.slot_of_slots same j
  · rw [State.slot_of_slots given, State.slot_setSlot, if_neg ne]

theorem State.offerSlot_slot_unavailable (h : (s.slot k).available = false) : (s.offerSlot k).slot k = s.slot k := by
  rcases s.offerSlot_slots k with same | ⟨ready, -⟩
  · exact State.slot_of_slots same k
  · rw [h] at ready; cases ready

theorem State.offerSlot_slot_free (h : (s.slot k).state = .free) : ((s.offerSlot k).slot k).state = .free := by
  rcases s.offerSlot_slots k with same | ⟨-, b, given⟩
  · rw [State.slot_of_slots same]; exact h
  · rw [State.slot_of_slots given, State.slot_setSlot, if_pos rfl]; rfl

theorem State.dropResident_slot (s : State) (k m : Nat) : (s.dropResident k).slot m =
    if m = k then if (s.slot k).deliveries = 0 then .free else { s.slot k with state := .stale } else s.slot m := by
  unfold State.dropResident
  dsimp only
  split
  · rw [State.freeSlot_slot]
  · rw [State.leaveResidency_slot, State.slot_setSlot]

theorem State.sendRead_slot (s : State) (k m : Nat) : (s.sendRead k).slot m = s.slot m := (State.sendRead_touches ..).slot m

theorem State.reissue_slot_other (s : State) (ne : k ≠ j) : (s.reissue j).slot k = s.slot k := by
  unfold State.reissue
  dsimp only
  split
  · rw [State.sendRead_slot, State.slot_setSlot, if_neg ne]
  · rfl

theorem State.unblockSlot_slot_other (s : State) (c : Nat) (ne : k ≠ j) : (s.unblockSlot c j).slot k = s.slot k := by
  unfold State.unblockSlot
  dsimp only
  split
  · rw [State.reissue_slot_other _ ne, State.slot_setSlot, if_neg ne]
  · rw [State.slot_setSlot, if_neg ne]

/-! ## A bay without command tags -/

/-- No command tag of bay b is held. -/
def State.untagged (s : State) (b : Nat) : Prop := ∀ i, s.tagHolder b i = none

variable {b : Nat}

theorem State.untagged.touch {ps : List Part} {t : State} (h : s.untagged b) (k : Touches ps s t) (w : Part.arbiters ∉ ps := by decide) :
    t.untagged b := fun i => by rw [k.tagHolder b i w]; exact h i

theorem State.untagged.tagOf (h : s.untagged b) (c : Nat) : s.tagOf b c = none := by
  rw [State.tagOf, List.find?_eq_none]
  intro i _
  rw [h i]; simp

theorem State.untagged.leadHasTag (h : s.untagged b) (on : (s.slot k).onBay b = true) : s.leadHasTag k = false := by
  unfold State.leadHasTag
  unfold Slot.onBay at on
  cases place : (s.slot k).place with
  | none => rfl
  | some p =>
    rw [place] at on
    cases lead : (s.slot k).lead with
    | none => rfl
    | some c =>
      have bay : p.bay = b := by simpa using on
      simp only [bay, h.tagOf c]; rfl

/-- A fill of such a bay is not reissued: a write leaves its blocking writes, and nothing else changes (R94, R103). -/
theorem State.untagged.unblockSlot (h : s.untagged b) (on : (s.slot k).onBay b = true) :
    (s.unblockSlot c k).slot k = { s.slot k with blocking := (s.slot k).blocking.filter (fun w => w != c) } := by
  obtain ⟨u, hu⟩ : ∃ u, u = s.setSlot k { s.slot k with blocking := (s.slot k).blocking.filter (fun w => w != c) } := ⟨_, rfl⟩
  have own : u.slot k = { s.slot k with blocking := (s.slot k).blocking.filter (fun w => w != c) } := by
    rw [hu, State.slot_setSlot, if_pos rfl]
  have none : u.leadHasTag k = false := (show u.untagged b from hu ▸ h.touch (State.setSlot_touches ..)).leadHasTag (by rw [own]; exact on)
  have still : u.reissue k = u := by
    rw [State.reissue]
    simp only [none]; rfl
  rw [State.unblockSlot]
  dsimp only
  rw [← hu, still, ite_self, own]

end

/-! ## Slots that the fault of another slot leaves to their turn -/

/-- A slot has changed in no more than its blocking writes, and where it is not FILLING, in nothing. -/
def Slot.spared (v w : Slot) : Prop := (∃ l, w = { v with blocking := l }) ∧ (v.state ≠ .filling → w = v)

section
variable {u v w : Slot}

theorem Slot.spared_refl (v : Slot) : v.spared v := ⟨⟨v.blocking, rfl⟩, fun _ => rfl⟩

theorem Slot.spared.trans (h : u.spared v) (k : v.spared w) : u.spared w := by
  obtain ⟨⟨l, rfl⟩, same⟩ := h
  obtain ⟨⟨m, rfl⟩, still⟩ := k
  exact ⟨⟨m, rfl⟩, fun st => (still st).trans (same st)⟩

theorem Slot.spared.onBay {b : Nat} (h : v.spared w) : w.onBay b = v.onBay b := by
  obtain ⟨⟨l, rfl⟩, -⟩ := h; rfl

end

section
variable {s : State} {b j k c : Nat} {cause : Cause}

theorem State.unblockSlots_slot_other (js : List Nat) (s : State) (out : k ∉ js) :
    (js.foldl (fun s j => s.unblockSlot c j) s).slot k = s.slot k := by
  induction js generalizing s with
  | nil => rfl
  | cons j js ih =>
    rw [List.foldl_cons, ih _ (fun mem => out (List.mem_cons_of_mem _ mem)),
      State.unblockSlot_slot_other _ _ (fun e : k = j => out (e ▸ List.mem_cons_self))]

theorem State.untagged.unblockSlots (js : List Nat) {s : State} (h : s.untagged b) (on : (s.slot k).onBay b = true) :
    ∃ l, (js.foldl (fun s j => s.unblockSlot c j) s).slot k = { s.slot k with blocking := l } := by
  induction js generalizing s with
  | nil => exact ⟨(s.slot k).blocking, rfl⟩
  | cons j js ih =>
    have step : ∃ l, (s.unblockSlot c j).slot k = { s.slot k with blocking := l } := by
      by_cases e : k = j
      · subst e; exact ⟨_, h.unblockSlot on⟩
      · exact ⟨(s.slot k).blocking, s.unblockSlot_slot_other c e⟩
    obtain ⟨l, step⟩ := step
    obtain ⟨m, rest⟩ := ih (h.touch (State.unblockSlot_touches ..)) (by rw [step]; exact on)
    exact ⟨m, by rw [List.foldl_cons, rest, step]⟩

/-- The end of a drain reaches no slot but FILLING ones. -/
theorem State.unblock_slot_other (h : (s.slot k).state ≠ .filling) : (s.unblock c).slot k = s.slot k :=
  State.unblockSlots_slot_other _ s fun mem => by
    rw [State.slotsWhere, List.mem_filter, Bool.and_eq_true, beq_iff_eq] at mem
    exact h mem.2.1

theorem State.untagged.unblock (h : s.untagged b) (on : (s.slot k).onBay b = true) : (s.slot k).spared ((s.unblock c).slot k) :=
  ⟨h.unblockSlots _ on, fun st => State.unblock_slot_other st⟩

theorem State.endDrain_slot_other (s : State) (ne : k ≠ j) : (s.endDrain j c).slot k = ((s.freeSlot j).unblock c).slot k :=
  State.offerSlot_slot_other _ ne

theorem State.endDrain_slot_own (s : State) (k c : Nat) : ((s.endDrain k c).slot k).state = .free := by
  have own : (s.freeSlot k).slot k = .free := by rw [State.freeSlot_slot, if_pos rfl]
  refine State.offerSlot_slot_free ?_
  rw [State.unblock_slot_other (by rw [own]; decide), own]; rfl

/-! ## The fault of one slot (R103) -/

/-- A fault answers the orders of this slot: it is FILLING, or DRAINING with its fetch behind it. -/
def Slot.losesOrders (v : Slot) : Bool := v.state == .filling || (v.state == .draining && v.phase != some .fetch)

theorem Slot.losesOrders_iff {v : Slot} : v.losesOrders = true ↔ v.state = .filling ∨ (v.state = .draining ∧ v.phase ≠ some .fetch) := by
  simp [Slot.losesOrders]

theorem State.faultSlot_filling (st : (s.slot k).state = .filling) :
    s.faultSlot cause k = ((s.replyAll (s.slot k).orders .diskFault cause.code).freeSlot k).offerSlot k := by
  unfold State.faultSlot
  simp only [st]

theorem State.faultSlot_drain (st : (s.slot k).state = .draining) (phase : (s.slot k).phase ≠ some .fetch) :
    s.faultSlot cause k = (s.replyAll (s.slot k).orders .diskFault cause.code).endDrain k ((s.slot k).lead.getD 0) := by
  unfold State.faultSlot
  cases own : (s.slot k).phase with
  | none => simp only [st, own]
  | some p =>
    cases p
    · exact absurd own phase
    · simp only [st, own]

theorem State.faultSlot_fetch (st : (s.slot k).state = .draining) (phase : (s.slot k).phase = some .fetch) :
    s.faultSlot cause k = s.setSlot k { s.slot k with fetchFailure := some cause } := by
  unfold State.faultSlot
  simp only [st, phase]

theorem State.faultSlot_resident (st : (s.slot k).state = .resident) : s.faultSlot cause k = (s.dropResident k).offerSlot k := by
  unfold State.faultSlot
  simp only [st]

theorem State.faultSlot_quiet (st : (s.slot k).state = .free ∨ (s.slot k).state = .stale ∨ (s.slot k).state = .bad) :
    s.faultSlot cause k = s := by
  unfold State.faultSlot
  rcases st with st | st | st <;> simp only [st]

/-- The ways in which a fault acts on a slot. -/
theorem Slot.fault_cases (v : Slot) : v.losesOrders = true ∨ (v.state = .draining ∧ v.phase = some .fetch) ∨ v.state = .resident
    ∨ (v.state = .free ∨ v.state = .stale ∨ v.state = .bad) := by
  unfold Slot.losesOrders
  cases v.state <;> simp
  by_cases h : v.phase = some .fetch <;> simp [h]

end

/-! ## A slot by the end of the fault of its bay (R103) -/

/-- What the fault of its bay makes of a slot. -/
structure Slot.faultedInto (v w : Slot) (cause : Cause) : Prop where
  ended : v.losesOrders = true → w.state = .free
  doomed : v.state = .draining → v.phase = some .fetch → w = { v with fetchFailure := some cause }
  dropped : v.state = .resident → v.deliveries = 0 → w.state = .free
  delivering : v.state = .resident → v.deliveries ≠ 0 → w = { v with state := .stale }
  kept : v.state = .stale ∨ v.state = .bad → w = v

section
variable {v w x : Slot} {cause : Cause}

theorem Slot.spared.losesOrders (h : v.spared w) : w.losesOrders = v.losesOrders := by
  obtain ⟨⟨l, rfl⟩, -⟩ := h; rfl

theorem Slot.spared.orders (h : v.spared w) : w.orders = v.orders := by
  obtain ⟨⟨l, rfl⟩, -⟩ := h; rfl

theorem Slot.spared.faultedInto (h : v.spared w) (k : w.faultedInto x cause) : v.faultedInto x cause := by
  by_cases st : v.state = .filling
  · exact ⟨fun loses => k.ended (h.losesOrders.trans loses), by simp [st], by simp [st], by simp [st], by simp [st]⟩
  · rw [← h.2 st]; exact k

end

section
variable {s : State} {b j k c : Nat} {cause : Cause} {v : Slot}

theorem State.replyAll_slot (s : State) (cells : List Nat) (r : Result) (d m : Nat) : (s.replyAll cells r d).slot m = s.slot m :=
  (State.replyAll_touches ..).slot m

/-- The fault of one slot leaves every other that is not FILLING. -/
theorem State.faultSlot_slot_unfilled (ne : k ≠ j) (st : (s.slot k).state ≠ .filling) : (s.faultSlot cause j).slot k = s.slot k := by
  rcases (s.slot j).fault_cases with loses | ⟨own, phase⟩ | own | own
  · rcases Slot.losesOrders_iff.1 loses with own | ⟨own, phase⟩
    · rw [State.faultSlot_filling own, State.offerSlot_slot_other _ ne, State.freeSlot_slot, if_neg ne, State.replyAll_slot]
    · have before : (((s.replyAll (s.slot j).orders .diskFault cause.code).freeSlot j).slot k) = s.slot k := by
        rw [State.freeSlot_slot, if_neg ne, State.replyAll_slot]
      rw [State.faultSlot_drain own phase, State.endDrain_slot_other _ ne, State.unblock_slot_other (by rw [before]; exact st), before]
  · rw [State.faultSlot_fetch own phase, State.slot_setSlot, if_neg ne]
  · rw [State.faultSlot_resident own, State.offerSlot_slot_other _ ne, State.dropResident_slot, if_neg ne]
  · rw [State.faultSlot_quiet own]

/-- The fault of one slot leaves every other of an untagged bay to its turn. -/
theorem State.untagged.faultSlot_other (h : s.untagged b) (on : (s.slot k).onBay b = true) (ne : k ≠ j) :
    (s.slot k).spared ((s.faultSlot cause j).slot k) := by
  by_cases drain : (s.slot j).state = .draining ∧ (s.slot j).phase ≠ some .fetch
  · have before : (((s.replyAll (s.slot j).orders .diskFault cause.code).freeSlot j).slot k) = s.slot k := by
      rw [State.freeSlot_slot, if_neg ne, State.replyAll_slot]
    have free : ((s.replyAll (s.slot j).orders .diskFault cause.code).freeSlot j).untagged b :=
      (h.touch (State.replyAll_touches ..)).touch (State.freeSlot_touches ..)
    rw [State.faultSlot_drain drain.1 drain.2, State.endDrain_slot_other _ ne]
    have left := free.unblock (c := (s.slot j).lead.getD 0) (by rw [before]; exact on)
    rwa [before] at left
  · have same : (s.faultSlot cause j).slot k = s.slot k := by
      rcases (s.slot j).fault_cases with loses | ⟨own, phase⟩ | own | own
      · have own := (Slot.losesOrders_iff.1 loses).resolve_right drain
        rw [State.faultSlot_filling own, State.offerSlot_slot_other _ ne, State.freeSlot_slot, if_neg ne, State.replyAll_slot]
      · rw [State.faultSlot_fetch own phase, State.slot_setSlot, if_neg ne]
      · rw [State.faultSlot_resident own, State.offerSlot_slot_other _ ne, State.dropResident_slot, if_neg ne]
      · rw [State.faultSlot_quiet own]
    rw [same]; exact Slot.spared_refl _

/-- The fault of a slot makes of it what R103 says. -/
theorem State.faultSlot_own (s : State) (cause : Cause) (k : Nat) :
    (s.slot k).faultedInto ((s.faultSlot cause k).slot k) cause := by
  rcases (s.slot k).fault_cases with loses | ⟨own, phase⟩ | own | own
  · have free : ((s.faultSlot cause k).slot k).state = .free := by
      rcases Slot.losesOrders_iff.1 loses with own | ⟨own, phase⟩
      · rw [State.faultSlot_filling own]
        exact State.offerSlot_slot_free (by rw [State.freeSlot_slot, if_pos rfl]; rfl)
      · rw [State.faultSlot_drain own phase]
        exact State.endDrain_slot_own _ k _
    rcases Slot.losesOrders_iff.1 loses with own | ⟨own, phase⟩
    · exact ⟨fun _ => free, by simp [own], by simp [own], by simp [own], by simp [own]⟩
    · exact ⟨fun _ => free, fun _ fetch => absurd fetch phase, by simp [own], by simp [own], by simp [own]⟩
  · have lost : (s.slot k).losesOrders = false := by simp [Slot.losesOrders, own, phase]
    refine ⟨by simp [lost], fun _ _ => ?_, by simp [own], by simp [own], by simp [own]⟩
    rw [State.faultSlot_fetch own phase, State.slot_setSlot, if_pos rfl]
  · have lost : (s.slot k).losesOrders = false := by simp [Slot.losesOrders, own]
    refine ⟨by simp [lost], by simp [own], fun _ idle => ?_, fun _ busy => ?_, by simp [own]⟩
    · rw [State.faultSlot_resident own]
      exact State.offerSlot_slot_free (by rw [State.dropResident_slot, if_pos rfl, if_pos idle]; rfl)
    · have stale : (s.dropResident k).slot k = { s.slot k with state := .stale } := by
        rw [State.dropResident_slot, if_pos rfl, if_neg busy]
      rw [State.faultSlot_resident own, State.offerSlot_slot_unavailable (by rw [stale]; rfl), stale]
  · rw [State.faultSlot_quiet own]
    have lost : (s.slot k).losesOrders = false := by rcases own with own | own | own <;> simp [Slot.losesOrders, own]
    refine ⟨by simp [lost], ?_, ?_, ?_, fun _ => rfl⟩ <;> rcases own with own | own | own <;> simp [own]

/-- What a fault has made of a slot, a further turn of the same fault leaves. -/
theorem State.faultSlot_settled (h : v.faultedInto (s.slot k) cause) (used : v.state ≠ .free) : (s.faultSlot cause j).slot k = s.slot k := by
  have settled : ((s.slot k).state = .free ∨ (s.slot k).state = .stale ∨ (s.slot k).state = .bad)
      ∨ ((s.slot k).state = .draining ∧ (s.slot k).phase = some .fetch ∧ (s.slot k).fetchFailure = some cause) := by
    rcases v.fault_cases with loses | ⟨own, phase⟩ | own | own
    · exact .inl (.inl (h.ended loses))
    · rw [h.doomed own phase]; exact .inr ⟨own, phase, rfl⟩
    · by_cases idle : v.deliveries = 0
      · exact .inl (.inl (h.dropped own idle))
      · rw [h.delivering own idle]; exact .inl (.inr (.inl rfl))
    · have own := own.resolve_left used
      rw [h.kept own]; exact .inl (.inr own)
  by_cases e : k = j
  · subst e
    rcases settled with quiet | ⟨own, phase, failure⟩
    · rw [State.faultSlot_quiet quiet]
    · rw [State.faultSlot_fetch own phase, State.slot_setSlot, if_pos rfl, ← failure]
  · refine State.faultSlot_slot_unfilled e fun st => ?_
    rcases settled with (own | own | own) | ⟨own, -⟩ <;> rw [st] at own <;> cases own

theorem State.faultSlot_answered (s : State) (cause : Cause) (k : Nat) : s.answered (s.faultSlot cause k)
    (if (s.slot k).losesOrders = true then (s.slot k).orders.map (fun c => plain c .diskFault cause.code) else []) := by
  have replied := s.replyAll_answered (s.slot k).orders .diskFault cause.code
  rcases (s.slot k).fault_cases with loses | ⟨own, phase⟩ | own | own
  · have only : ∀ {t : State}, Touches [.staging, .records] (s.replyAll (s.slot k).orders .diskFault cause.code) t →
        s.answered t ((s.slot k).orders.map (fun c => plain c .diskFault cause.code)) := fun touched => by
      have all := replied.trans touched.answered_nil (State.replyAll_touches ..).serving
      rwa [List.append_nil] at all
    rw [if_pos loses]
    rcases Slot.losesOrders_iff.1 loses with own | ⟨own, phase⟩
    · rw [State.faultSlot_filling own]
      exact only ((State.offerSlot_touches ..).after rfl ((State.freeSlot_touches ..).mono rfl))
    · rw [State.faultSlot_drain own phase]
      exact only (State.endDrain_touches ..)
  · rw [if_neg (by simp [Slot.losesOrders, own, phase]), State.faultSlot_fetch own phase]
    exact (State.setSlot_touches ..).answered_nil
  · rw [if_neg (by simp [Slot.losesOrders, own]), State.faultSlot_resident own]
    exact ((State.offerSlot_touches ..).after rfl (State.dropResident_touches ..) : Touches [.staging] _ _).answered_nil
  · rw [if_neg (by rcases own with own | own | own <;> simp [Slot.losesOrders, own]), State.faultSlot_quiet own]
    exact s.answered_refl

/-! ### The bay's own record -/

theorem State.untagged.reissue_bay (h : s.untagged b) (k : Nat) : (s.reissue k).bay b = s.bay b := by
  unfold State.reissue
  dsimp only
  split
  · have still := h.touch (State.setSlot_touches s k
      { s.slot k with refetch := false, refetchCount := (s.slot k).refetchCount + 1, readEnded := false })
    unfold State.sendRead
    dsimp only
    split
    · next p c _ _ =>
      split
      · next i tag =>
        have other : b ≠ p.bay := fun e => by rw [← e, still.tagOf] at tag; cases tag
        exact State.send_bay_other _ _ other
      · rfl
    · rfl
  · rfl

theorem State.untagged.unblock_bay (h : s.untagged b) (c : Nat) : (s.unblock c).bay b = s.bay b := by
  have each : ∀ (js : List Nat) (u : State), u.untagged b → (js.foldl (fun s j => s.unblockSlot c j) u).bay b = u.bay b := by
    intro js
    induction js with
    | nil => exact fun _ _ => rfl
    | cons j js ih =>
      intro u hu
      rw [List.foldl_cons, ih _ (hu.touch (State.unblockSlot_touches ..))]
      unfold State.unblockSlot
      dsimp only
      split
      · exact (hu.touch (State.setSlot_touches ..)).reissue_bay j
      · rfl
  exact each _ s h

theorem State.untagged.faultSlot_bay (h : s.untagged b) (cause : Cause) (k : Nat) : (s.faultSlot cause k).bay b = s.bay b := by
  rcases (s.slot k).fault_cases with loses | ⟨own, phase⟩ | own | own
  · rcases Slot.losesOrders_iff.1 loses with own | ⟨own, phase⟩
    · rw [State.faultSlot_filling own, (State.offerSlot_touches ..).bay, (State.freeSlot_touches ..).bay, (State.replyAll_touches ..).bay]
    · rw [State.faultSlot_drain own phase, State.endDrain, (State.offerSlot_touches ..).bay,
        ((h.touch (State.replyAll_touches ..)).touch (State.freeSlot_touches ..)).unblock_bay, (State.freeSlot_touches ..).bay,
        (State.replyAll_touches ..).bay]
  · rw [State.faultSlot_fetch own phase]; rfl
  · rw [State.faultSlot_resident own, (State.offerSlot_touches ..).bay, (State.dropResident_touches ..).bay]
  · rw [State.faultSlot_quiet own]

end

/-! ## The fault of every slot of a bay (R103) -/

theorem sum_map_of_filter {α : Type} (l : List α) (p : α → Bool) (f : α → Nat) :
    (l.map (fun e => if p e = true then f e else 0)).sum = ((l.filter p).map f).sum := by
  induction l with
  | nil => rfl
  | cons e l ih =>
    rw [List.map_cons, List.sum_cons, ih, List.filter_cons]
    split
    · rw [List.map_cons, List.sum_cons]
    · exact Nat.zero_add _

/-- The orders that the fault of its bay answers out of a slot. -/
def Slot.ordersHit (v : Slot) : Nat := if v.losesOrders = true then v.orders.length else 0

/-- The Staging Controller takes some slots of a faulted bay in turn. -/
def State.faultSlots (s : State) (cause : Cause) (ks : List Nat) : State := ks.foldl (fun s k => s.faultSlot cause k) s

section
variable {s : State} {b j k c : Nat} {cause : Cause} {v : Slot} {ks : List Nat}

theorem State.faultSlots_cons (s : State) (cause : Cause) (k : Nat) (ks : List Nat) :
    s.faultSlots cause (k :: ks) = (s.faultSlot cause k).faultSlots cause ks := rfl

theorem State.faultSlots_touches (s : State) (cause : Cause) (ks : List Nat) :
    Touches [.answers, .staging, .records] s (s.faultSlots cause ks) :=
  Touches.foldl (fun u k => State.faultSlot_touches u cause k) (Touches.refl _ s)

theorem State.faultSlots_answers (s : State) (cause : Cause) (ks : List Nat) : ∃ all, s.answered (s.faultSlots cause ks) all :=
  State.answered.foldl (fun u k => u.faultSlot_answered cause k) (fun u k => (u.faultSlot_touches cause k).serving) ks s

theorem State.faultSlots_settled (h : v.faultedInto (s.slot k) cause) (used : v.state ≠ .free) (ks : List Nat) :
    (s.faultSlots cause ks).slot k = s.slot k := by
  induction ks generalizing s with
  | nil => rfl
  | cons j ks ih =>
    have still := State.faultSlot_settled (j := j) h used
    rw [State.faultSlots_cons, ih (by rw [still]; exact h), still]

theorem State.faultSlots_slot_other (out : k ∉ ks) (st : (s.slot k).state ≠ .filling) : (s.faultSlots cause ks).slot k = s.slot k := by
  induction ks generalizing s with
  | nil => rfl
  | cons j ks ih =>
    have same : (s.faultSlot cause j).slot k = s.slot k :=
      State.faultSlot_slot_unfilled (fun e => out (e ▸ List.mem_cons_self)) st
    rw [State.faultSlots_cons, ih (fun mem => out (List.mem_cons_of_mem _ mem)) (by rw [same]; exact st), same]

theorem State.untagged.faultSlots_bay (h : s.untagged b) (cause : Cause) (ks : List Nat) : (s.faultSlots cause ks).bay b = s.bay b := by
  induction ks generalizing s with
  | nil => rfl
  | cons k ks ih => rw [State.faultSlots_cons, ih (h.touch (State.faultSlot_touches ..)), h.faultSlot_bay]

/-- A slot of the bay takes the effects of the fault at its turn, and its orders are answered. -/
theorem State.untagged.faultSlots_slot (h : s.untagged b) (mem : k ∈ ks) (on : v.onBay b = true) (used : v.state ≠ .free)
    (same : v.spared (s.slot k)) : v.faultedInto ((s.faultSlots cause ks).slot k) cause
      ∧ (v.losesOrders = true → ∀ c ∈ v.orders, plain c .diskFault cause.code ∈ (s.faultSlots cause ks).exchange.answerList) := by
  induction ks generalizing s with
  | nil => exact absurd mem List.not_mem_nil
  | cons j ks ih =>
    rw [State.faultSlots_cons]
    by_cases e : k = j
    · subst e
      have own := same.faultedInto (s.faultSlot_own cause k)
      refine ⟨by rw [State.faultSlots_settled own used]; exact own, fun loses c hc => ?_⟩
      obtain ⟨all, rest⟩ := (s.faultSlot cause k).faultSlots_answers cause ks
      rw [rest.1, (s.faultSlot_answered cause k).1, if_pos (same.losesOrders.trans loses), same.orders]
      exact List.mem_append_left _ (List.mem_append_right _ (List.mem_map.2 ⟨c, hc, rfl⟩))
    · exact ih (h.touch (State.faultSlot_touches ..)) ((List.mem_cons.1 mem).resolve_left e)
        (same.trans (h.faultSlot_other (by rw [same.onBay]; exact on) e))

/-- How many answers the fault of the slots of a bay makes, each slot once. -/
theorem State.untagged.faultSlots_count (h : s.untagged b) (once : ks.Nodup) (view : Nat → Slot)
    (same : ∀ k ∈ ks, (view k).spared (s.slot k) ∧ (view k).onBay b = true) :
    ∃ all, s.answered (s.faultSlots cause ks) all ∧ all.length = (ks.map (fun k => (view k).ordersHit)).sum := by
  induction ks generalizing s with
  | nil => exact ⟨[], s.answered_refl, rfl⟩
  | cons k ks ih =>
    obtain ⟨fresh, once⟩ := List.nodup_cons.1 once
    obtain ⟨own, -⟩ := same k List.mem_cons_self
    have rest : ∀ j ∈ ks, (view j).spared ((s.faultSlot cause k).slot j) ∧ (view j).onBay b = true := fun j hj => by
      obtain ⟨spared, on⟩ := same j (List.mem_cons_of_mem _ hj)
      exact ⟨spared.trans (h.faultSlot_other (by rw [spared.onBay]; exact on) (fun e : j = k => fresh (e ▸ hj))), on⟩
    obtain ⟨all, answered, length⟩ := ih (h.touch (State.faultSlot_touches ..)) once rest
    refine ⟨_, (s.faultSlot_answered cause k).trans answered (State.faultSlot_touches ..).serving, ?_⟩
    rw [List.length_append, length, List.map_cons, List.sum_cons, Slot.ordersHit, own.losesOrders, own.orders]
    split
    · rw [List.length_map]
    · rfl

theorem State.mem_slotsWhere {p : Slot → Bool} (free : p .free = false) : k ∈ s.slotsWhere p ↔ p (s.slot k) = true := by
  rw [State.slotsWhere, List.mem_filter, and_iff_right_iff_imp]
  intro h
  refine Table.mem_keys_of_get_ne .free s.staging.slots k fun e => ?_
  have own : s.slot k = .free := e
  rw [own, free] at h; cases h

theorem State.faultStaging_eq (s : State) (b : Nat) (cause : Cause) :
    s.faultStaging b cause = s.faultSlots cause (s.slotsWhere (fun v => v.onBay b)) := rfl

/-- The Staging Controller's handling of a fault, as the word of the statements says it (R103). -/
theorem State.untagged.faultStaging_faultsSlots (h : s.untagged b) (cause : Cause) : s.faultsSlots (s.faultStaging b cause) b cause := by
  have listed : ∀ k, k ∈ s.slotsWhere (fun v => v.onBay b) ↔ (s.slot k).onBay b = true :=
    fun k => State.mem_slotsWhere (p := fun v => v.onBay b) rfl
  rw [State.faultStaging_eq]
  refine ⟨fun k on => ?_, fun k off st => ?_⟩
  · have turn : (s.slot k).state ≠ .free → _ := fun used =>
      h.faultSlots_slot (cause := cause) ((listed k).2 on) on used (Slot.spared_refl (s.slot k))
    refine ⟨fun st => ?_, fun st phase => ?_, fun st idle => ?_, fun st busy => ?_, fun st => ?_⟩
    · have loses := Slot.losesOrders_iff.2 st
      obtain ⟨into, answers⟩ := turn (by rcases st with st | ⟨st, -⟩ <;> rw [st] <;> decide)
      exact ⟨into.ended loses, answers loses⟩
    · exact (turn (by rw [st]; decide)).1.doomed st phase
    · exact (turn (by rw [st]; decide)).1.dropped st idle
    · exact (turn (by rw [st]; decide)).1.delivering st busy
    · have own : (s.slot k).state = .stale ∨ (s.slot k).state = .bad := by simpa using st
      exact (turn (by rcases own with st | st <;> rw [st] <;> decide)).1.kept own
  · exact State.faultSlots_slot_other (fun mem => by rw [listed, off] at mem; cases mem) st

theorem State.untagged.faultStaging_count (h : s.untagged b) (cause : Cause) (ordered : Table.ordered s.staging.slots) :
    ∃ all, s.answered (s.faultStaging b cause) all ∧ all.length
      = ((s.staging.slots.filter (fun e => e.2.onBay b
            && (e.2.state == .filling || (e.2.state == .draining && e.2.phase != some .fetch)))).map
          (fun e => e.2.lead.toList.length + e.2.joiners.length)).sum := by
  obtain ⟨all, answered, length⟩ := h.faultSlots_count (cause := cause) (ks := s.slotsWhere (fun v => v.onBay b))
    ((Table.keys_nodup ordered).filter _) s.slot
    (fun k hk => ⟨Slot.spared_refl _, (State.mem_slotsWhere (p := fun v => v.onBay b) rfl).1 hk⟩)
  refine ⟨all, answered, length.trans ?_⟩
  have table := Table.keys_filter_map (d := Slot.free) ordered (fun v => v.onBay b) Slot.ordersHit
  have slots : (s.slotsWhere (fun v => v.onBay b)).map (fun k => (s.slot k).ordersHit)
      = (s.staging.slots.filter (fun e => e.2.onBay b)).map (fun e => e.2.ordersHit) := table
  have losing : s.staging.slots.filter (fun e => e.2.onBay b
        && (e.2.state == .filling || (e.2.state == .draining && e.2.phase != some .fetch)))
      = (s.staging.slots.filter (fun e => e.2.onBay b)).filter (fun e => e.2.losesOrders) := by
    rw [List.filter_filter]
    exact List.filter_congr fun e _ => Bool.and_comm ..
  have orders : (fun e : Nat × Slot => e.2.lead.toList.length + e.2.joiners.length) = fun e => e.2.orders.length :=
    funext fun e => (List.length_append ..).symm
  rw [slots, losing, orders]
  exact sum_map_of_filter _ (fun e : Nat × Slot => e.2.losesOrders) (fun e => e.2.orders.length)

end

/-! ## The offer of a fault (R160 to R162) -/

section
variable {s t u : State} {cause : Cause} {location loans orders b : Nat}

/-- An offer in a part that serves orders, with the beginning of record writes behind it. -/
theorem State.offer_tookOffer (serving : u.serving = true) (capture : u.capture = s.capture) (clock : u.clock = s.clock)
    (base : u.exchange.base = s.exchange.base) :
    s.tookOffer (u.offer cause location loans orders).beginRecords cause location loans orders := by
  have offered : Touches [.capture] u (u.offer cause location loans orders) := State.offer_touches ..
  have may : (u.offer cause location loans orders).mayWriteRecords = true ↔ s.exchange.base ≠ 0 := by
    simp only [State.mayWriteRecords, offered.serving, serving, offered.base, base, Bool.true_and, bne_iff_ne]
  have begun := (u.offer cause location loans orders).beginRecords_captures
  simp only [may, offered.base, base] at begun
  unfold State.tookOffer
  cases triggered : s.capture.triggered with
  | false =>
    have taken : (u.offer cause location loans orders).capture = { s.capture with
        triggered := true, sequence := s.capture.sequence + 1, suppressed := 0,
        record := some { cause := cause, location := location, loansFaulted := loans, ordersFailed := orders,
                         stamp := s.clock.tickCount, suppressedBefore := s.capture.suppressed, holdMask := s.capture.holdMask,
                         autoRearm := s.capture.autoRearm, sequence := s.capture.sequence + 1 } } := by
      rw [State.offer, if_pos (by rw [serving, capture, triggered]; rfl), State.recordFor, capture, clock]
    rw [taken] at begun
    rw [begun]
    split
    · next starts => exact ⟨rfl, rfl, rfl, rfl, fun _ => ⟨rfl, rfl, fun _ => (if_neg starts.1).symm⟩, nofun⟩
    · next stays =>
      refine ⟨rfl, rfl, rfl, rfl, fun _ => ⟨rfl, rfl, fun idle => ?_⟩, nofun⟩
      have zero : s.exchange.base = 0 := by
        by_contra ne
        exact stays ⟨ne, rfl, idle⟩
      rw [if_pos zero]; exact idle
  | true =>
    have taken : (u.offer cause location loans orders).capture = { s.capture with
        sequence := s.capture.sequence + 1, suppressed := min 255 (s.capture.suppressed + 1) } := by
      rw [State.offer, if_neg (by rw [serving, capture, triggered]; decide), capture]
    rw [taken] at begun
    rw [begun]
    split <;> exact ⟨rfl, triggered, rfl, rfl, nofun, fun _ => ⟨rfl, rfl⟩⟩

/-! ## A bay fault while orders are served (R138, R139) -/

/-- The bay record has taken a fault, and the cell of its admission its answer (R138). -/
def State.bayRecorded (s : State) (b : Nat) (cause : Cause) : State :=
  (s.putBay b ((s.bay b).faulted cause)).answerAdmit b .diskFault Cause.admitFailed.code

/-- Loans and scheduler have taken the fault of the bay (R139). -/
def State.faultsShared (s : State) (b : Nat) (cause : Cause) : State := (s.faultLoans b cause).faultShares b cause

theorem State.bayFault_serving (serving : s.serving = true) (b : Nat) (cause : Cause) :
    s.bayFault b cause = (s.bayRecorded b cause).spreadFault b cause := by
  have recorded : ((s.putBay b ((s.bay b).faulted cause)).releaseEnded b (s.bay b).outstanding) = s.putBay b ((s.bay b).faulted cause) := by
    rw [State.releaseEnded, if_neg]
    have part := s.serving_iff.1 serving
    intro halted
    have same : (s.putBay b ((s.bay b).faulted cause)).exchange.part = s.exchange.part := (State.putBay_touches ..).part
    rw [same] at halted
    rw [halted] at part; simp at part
  have still : ((s.putBay b ((s.bay b).faulted cause)).answerAdmit b .diskFault Cause.admitFailed.code).serving = true := by
    rw [(State.answerAdmit_touches ..).serving, (State.putBay_touches ..).serving]; exact serving
  simp only [State.bayFault, recorded, still, if_true, State.bayRecorded]

theorem State.spreadFault_eq (s : State) (b : Nat) (cause : Cause) : s.spreadFault b cause =
    ((s.faultsShared b cause).faultStaging b cause).offer cause b (s.loansFaultedBy b)
      (((s.faultsShared b cause).faultStaging b cause).exchange.answerList.length - (s.faultLoans b cause).exchange.answerList.length) := by
  simp only [State.spreadFault, State.faultsShared]

theorem State.bayRecorded_touches (s : State) (b : Nat) (cause : Cause) : Touches [.answers, .ports, .records] s (s.bayRecorded b cause) :=
  (State.answerAdmit_touches ..).after rfl ((State.putBay_touches ..).mono rfl)

theorem State.faultsShared_touches (s : State) (b : Nat) (cause : Cause) :
    Touches [.answers, .lapseQueue, .loans, .notices, .fifos, .arbiters, .staging] s (s.faultsShared b cause) :=
  (State.faultShares_touches ..).after rfl ((State.faultLoans_touches ..).mono rfl)

theorem State.faultsShared_untagged (s : State) (b : Nat) (cause : Cause) : (s.faultsShared b cause).untagged b :=
  fun i => State.faultShares_untagged _ b cause i

theorem State.answerAdmit_serving (serving : s.serving = true) (b : Nat) (r : Result) (d : Nat) :
    s.answerAdmit b r d = (s.setBay b { s.bay b with admitCell := none }).replyOpt (s.bay b).admitCell r d := if_pos serving

theorem State.bayRecorded_eq (serving : s.serving = true) (b : Nat) (cause : Cause) : s.bayRecorded b cause =
    ((s.putBay b ((s.bay b).faulted cause)).setBay b ((s.bay b).afterFault cause)).replyOpt (s.bay b).admitCell .diskFault 1 := by
  have own : (s.putBay b ((s.bay b).faulted cause)).bay b = (s.bay b).faulted cause := (State.bay_setBay ..).trans (if_pos rfl)
  rw [State.bayRecorded, State.answerAdmit_serving ((State.putBay_touches ..).serving.trans serving), own]; rfl

theorem State.bayRecorded_bay (serving : s.serving = true) (b : Nat) (cause : Cause) :
    (s.bayRecorded b cause).bay b = (s.bay b).afterFault cause := by
  rw [State.bayRecorded_eq serving, (State.replyOpt_touches ..).bay, State.bay_setBay, if_pos rfl]

theorem State.bayRecorded_answered (serving : s.serving = true) (b : Nat) (cause : Cause) :
    s.answered (s.bayRecorded b cause) ((s.bay b).admitCell.toList.map (fun c => plain c .diskFault 1)) := by
  rw [State.bayRecorded_eq serving]
  have set : Touches [.ports, .records] s ((s.putBay b ((s.bay b).faulted cause)).setBay b ((s.bay b).afterFault cause)) :=
    (State.setBay_touches ..).after rfl ((State.putBay_touches ..).mono rfl)
  exact set.answered_nil.trans (State.replyOpt_answered ..) set.serving

theorem State.bayRecorded_summaryPort (serving : s.serving = true) (b : Nat) (cause : Cause) :
    (s.bayRecorded b cause).exchange.summaryPort = { s.exchange.summaryPort with held := true }
      ∧ (s.bayRecorded b cause).exchange.summarySeq = s.exchange.summarySeq := by
  rw [State.bayRecorded_eq serving]
  cases (s.bay b).admitCell <;> exact ⟨rfl, rfl⟩

end

/-! ## The Slot Wait list while slots are taken -/

section
variable {s t u v : State} {b k c : Nat} {cause : Cause} {ps : List Part}

theorem State.offerSlot_slotWait (s : State) (k : Nat) : (s.offerSlot k).staging.slotWait ⊆ s.staging.slotWait := by
  unfold State.offerSlot
  split
  · exact fun _ h => h
  · next bay rest list =>
    dsimp only
    split
    · rw [list]; exact List.subset_cons_self bay rest
    · exact fun _ h => h

theorem State.dropResident_slotWait (s : State) (k : Nat) : (s.dropResident k).staging.slotWait = s.staging.slotWait := by
  unfold State.dropResident
  dsimp only
  split <;> rfl

theorem State.unblock_slotWait (s : State) (c : Nat) : (s.unblock c).staging.slotWait = s.staging.slotWait := by
  have reissued : ∀ (u : State) j, (u.reissue j).staging.slotWait = u.staging.slotWait := fun u j => by
    unfold State.reissue
    dsimp only
    split
    · rw [(State.sendRead_touches ..).staging]; rfl
    · rfl
  have step : ∀ (u : State) j, (u.unblockSlot c j).staging.slotWait = u.staging.slotWait := fun u j => by
    unfold State.unblockSlot
    dsimp only
    split
    · rw [reissued]; rfl
    · rfl
  have each : ∀ (js : List Nat) (u : State), (js.foldl (fun s j => s.unblockSlot c j) u).staging.slotWait = u.staging.slotWait := by
    intro js
    induction js with
    | nil => exact fun _ => rfl
    | cons j js ih => exact fun u => (ih _).trans (step u j)
  exact each _ s

theorem State.faultSlot_slotWait (s : State) (cause : Cause) (k : Nat) : (s.faultSlot cause k).staging.slotWait ⊆ s.staging.slotWait := by
  have replied : (s.replyAll (s.slot k).orders .diskFault cause.code).staging = s.staging := (State.replyAll_touches ..).staging
  have freed : ((s.replyAll (s.slot k).orders .diskFault cause.code).freeSlot k).staging.slotWait = s.staging.slotWait := by
    rw [← replied]; rfl
  rcases (s.slot k).fault_cases with loses | ⟨own, phase⟩ | own | own
  · rcases Slot.losesOrders_iff.1 loses with own | ⟨own, phase⟩
    · rw [State.faultSlot_filling own, ← freed]
      exact State.offerSlot_slotWait ..
    · have offered := State.offerSlot_slotWait
        (((s.replyAll (s.slot k).orders .diskFault cause.code).freeSlot k).unblock ((s.slot k).lead.getD 0)) k
      rw [State.unblock_slotWait, freed] at offered
      rw [State.faultSlot_drain own phase]; exact offered
  · rw [State.faultSlot_fetch own phase]; exact fun _ h => h
  · rw [State.faultSlot_resident own, ← s.dropResident_slotWait k]
    exact State.offerSlot_slotWait ..
  · rw [State.faultSlot_quiet own]; exact fun _ h => h

theorem State.faultSlots_slotWait (ks : List Nat) (s : State) : (s.faultSlots cause ks).staging.slotWait ⊆ s.staging.slotWait := by
  induction ks generalizing s with
  | nil => exact fun _ h => h
  | cons k ks ih => exact List.Subset.trans (ih _) (s.faultSlot_slotWait cause k)

/-! ## The words of a bay fault, from one state to another -/

theorem State.faultsLoans.congr (h : u.faultsLoans v b cause) (loans : u.loans = s.loans) (after : Touches ps v t)
    (answers : v.exchange.answerList ⊆ t.exchange.answerList) (w : Part.loans ∉ ps := by decide) (w' : Part.lapseQueue ∉ ps := by decide) :
    s.faultsLoans t b cause := by
  obtain ⟨hit, waited, rest⟩ := h
  have loan : ∀ n, u.loan n = s.loan n := fun n => State.loan_of_loans loans n
  have list : u.waiting b = s.waiting b := State.waiting_of_loans loans b
  simp only [loan, list] at hit waited rest
  refine ⟨fun n bay out st => ?_, fun n mem bay st => ?_, fun n out st => ?_⟩
  · rw [after.loan n w, after.lapseQueue w']; exact hit n bay out st
  · obtain ⟨freed, answered⟩ := waited n mem bay st
    exact ⟨(after.loan n w).trans freed, fun c opening => answers (answered c opening)⟩
  · rw [after.loan n w]; exact rest n out st

theorem State.faultsShares.congr (h : u.faultsShares v b cause) (fifos : u.shares.fifos = s.shares.fifos) (after : Touches ps v t)
    (answers : v.exchange.answerList ⊆ t.exchange.answerList) (slotWait : t.staging.slotWait ⊆ v.staging.slotWait)
    (w : Part.fifos ∉ ps := by decide) (w' : Part.arbiters ∉ ps := by decide) : s.faultsShares t b cause := by
  obtain ⟨own, others, tags, waits⟩ := h
  have fifo : ∀ c g, u.fifo c g = s.fifo c g := fun c g => by simp only [State.fifo, fifos]
  simp only [fifo] at own others
  refine ⟨fun g bound => ?_, fun c g ne bound => ?_, fun i => ?_, fun mem => waits (slotWait mem)⟩
  · obtain ⟨emptied, answered⟩ := own g bound
    exact ⟨(after.fifo b g w).trans emptied, fun c mem => answers (answered c mem)⟩
  · rw [after.fifo c g w]; exact others c g ne bound
  · rw [after.tagHolder b i w']; exact tags i

theorem State.faultsSlots.congr (h : u.faultsSlots v b cause) (slots : u.staging.slots = s.staging.slots) (after : Touches ps v t)
    (answers : t.exchange.answerList = v.exchange.answerList) (w : Part.staging ∉ ps := by decide) : s.faultsSlots t b cause := by
  have slot : ∀ k, u.slot k = s.slot k := fun k => (State.slot_of_slots slots k)
  have final : ∀ k, t.slot k = v.slot k := fun k => after.slot k w
  unfold State.faultsSlots at h ⊢
  simp only [slot] at h
  simp only [final, answers]
  exact h

/-- Where neither capture nor ports are touched, the whole of the capture unit is as it was. -/
theorem Touches.captures (h : Touches ps s t) (w : Part.capture ∉ ps := by decide) (w' : Part.ports ∉ ps := by decide) :
    t.capture = s.capture := by
  obtain ⟨triggered, autoRearm, holdMask, sequence, suppressed, record⟩ := h.same .capture w
  obtain ⟨-, -, -, writing⟩ := h.same .ports w'
  cases hs : s.capture
  cases ht : t.capture
  simp only [hs, ht] at triggered autoRearm holdMask sequence suppressed record writing
  simp only [triggered, autoRearm, holdMask, sequence, suppressed, record, writing]

/-! ## The stages of a bay fault while orders are served (R139) -/

/-- The loans of the bay have taken the fault. -/
def State.bayLoaned (s : State) (b : Nat) (cause : Cause) : State := (s.bayRecorded b cause).faultLoans b cause

/-- The scheduler has taken it too. -/
def State.bayShared (s : State) (b : Nat) (cause : Cause) : State := (s.bayLoaned b cause).faultShares b cause

/-- The slots have taken it too. -/
def State.bayStaged (s : State) (b : Nat) (cause : Cause) : State := (s.bayShared b cause).faultStaging b cause

/-- How many orders the fault has answered by then (log entry 27). -/
def State.ordersAnswered (s : State) (b : Nat) (cause : Cause) : Nat :=
  (s.bayStaged b cause).exchange.answerList.length - (s.bayLoaned b cause).exchange.answerList.length

section
variable (s : State) (b : Nat) (cause : Cause)

theorem State.bayLoaned_touches : Touches [.answers, .lapseQueue, .loans, .notices] (s.bayRecorded b cause) (s.bayLoaned b cause) :=
  State.faultLoans_touches ..

theorem State.bayShared_touches : Touches [.answers, .fifos, .arbiters, .staging] (s.bayLoaned b cause) (s.bayShared b cause) :=
  State.faultShares_touches ..

theorem State.bayStaged_touches : Touches [.answers, .staging, .records] (s.bayShared b cause) (s.bayStaged b cause) :=
  State.faultStaging_touches ..

theorem State.bayStaged_touches_recorded :
    Touches [.answers, .staging, .records, .fifos, .arbiters, .lapseQueue, .loans, .notices] (s.bayRecorded b cause) (s.bayStaged b cause) :=
  (s.bayStaged_touches b cause).after rfl ((s.bayShared_touches b cause).after rfl ((s.bayLoaned_touches b cause).mono rfl))

theorem State.bayShared_untagged : (s.bayShared b cause).untagged b := fun i => State.faultShares_untagged _ b cause i

theorem State.bayShared_slots : (s.bayShared b cause).staging.slots = s.staging.slots := by
  rw [State.bayShared, State.faultShares_staging, (s.bayLoaned_touches b cause).staging, (s.bayRecorded_touches b cause).staging]

theorem State.bayLoaned_fifos : (s.bayLoaned b cause).shares.fifos = s.shares.fifos := by
  rw [(s.bayLoaned_touches b cause).fifos, (s.bayRecorded_touches b cause).fifos]

theorem State.bayLoaned_answers : (s.bayRecorded b cause).exchange.answerList ⊆ (s.bayLoaned b cause).exchange.answerList := by
  obtain ⟨all, answered⟩ := (s.bayRecorded b cause).faultLoans_answers b cause
  rw [State.bayLoaned, answered.1]; exact List.subset_append_left _ _

theorem State.bayShared_answers : (s.bayLoaned b cause).exchange.answerList ⊆ (s.bayShared b cause).exchange.answerList := by
  rw [State.bayShared, ((s.bayLoaned b cause).faultShares_answered b cause).1]; exact List.subset_append_left _ _

theorem State.bayStaged_answers : (s.bayShared b cause).exchange.answerList ⊆ (s.bayStaged b cause).exchange.answerList := by
  obtain ⟨all, answered⟩ := (s.bayShared b cause).faultSlots_answers cause ((s.bayShared b cause).slotsWhere (fun v => v.onBay b))
  rw [State.bayStaged, State.faultStaging_eq, answered.1]; exact List.subset_append_left _ _

/-- The answers that a fault decides once the loans have taken it: those of queued orders and of slots. -/
theorem State.ordersAnswered_eq (ordered : s.tablesOrdered) : s.ordersAnswered b cause = s.ordersHit b := by
  have shares := (s.bayLoaned b cause).faultShares_answered b cause
  obtain ⟨all, staged, length⟩ := (s.bayShared_untagged b cause).faultStaging_count cause
    (by rw [s.bayShared_slots]; exact ordered.2.2.2.2.2.1)
  have fifo : ∀ g, (s.bayLoaned b cause).fifo b g = s.fifo b g := fun g => by simp only [State.fifo, s.bayLoaned_fifos b cause]
  have queued : (allGroups.flatMap (fun g => ((s.bayLoaned b cause).fifo b g).orders.map (fun c => plain c .diskFault cause.code))).length
      = ((List.range 16).map (fun g => (s.fifo b g).orders.length)).sum := by
    rw [List.length_flatMap]
    exact congrArg List.sum (List.map_congr_left fun g _ => by rw [List.length_map, fifo])
  have sum : (s.bayStaged b cause).exchange.answerList.length = (s.bayLoaned b cause).exchange.answerList.length + s.ordersHit b := by
    rw [State.bayStaged, staged.1, State.bayShared, shares.1, List.length_append, List.length_append, length, queued, s.bayShared_slots,
      State.ordersHit, Nat.add_assoc]
  rw [State.ordersAnswered, sum, Nat.add_sub_cancel_left]

variable {s} (serving : s.serving = true)
include serving

theorem State.bayFault_eq : s.bayFault b cause
    = (s.bayStaged b cause).offer cause b ((s.bayRecorded b cause).loansFaultedBy b) (s.ordersAnswered b cause) := by
  rw [State.bayFault_serving serving, State.spreadFault_eq]
  simp only [State.ordersAnswered, State.bayStaged, State.bayShared, State.bayLoaned, State.faultsShared]

theorem State.bayFault_touches_staged : Touches [.capture, .ports] (s.bayStaged b cause) (s.bayFault b cause).beginRecords := by
  rw [State.bayFault_eq b cause serving]
  exact (State.beginRecords_touches _).after rfl ((State.offer_touches ..).mono rfl)

theorem State.bayFault_answers_shared : (s.bayShared b cause).exchange.answerList ⊆ (s.bayFault b cause).beginRecords.exchange.answerList := by
  rw [(State.bayFault_touches_staged b cause serving).answerList]; exact s.bayStaged_answers b cause

theorem State.bayFault_answers_loaned : (s.bayLoaned b cause).exchange.answerList ⊆ (s.bayFault b cause).beginRecords.exchange.answerList :=
  List.Subset.trans (s.bayShared_answers b cause) (State.bayFault_answers_shared b cause serving)

/-! ## What a bay fault reaches (R138, R139) -/

theorem State.bayFault_bay : (s.bayFault b cause).beginRecords.bay b = (s.bay b).afterFault cause := by
  have staged : (s.bayStaged b cause).bay b = (s.bayShared b cause).bay b := by
    rw [State.bayStaged, State.faultStaging_eq]; exact (s.bayShared_untagged b cause).faultSlots_bay cause _
  rw [(State.bayFault_touches_staged b cause serving).bay, staged, (s.bayShared_touches b cause).bay, (s.bayLoaned_touches b cause).bay,
    State.bayRecorded_bay serving]

theorem State.bayFault_admit {c : Nat} (opening : (s.bay b).admitCell = some c) :
    plain c .diskFault 1 ∈ (s.bayFault b cause).beginRecords.exchange.answerList := by
  refine State.bayFault_answers_loaned b cause serving (s.bayLoaned_answers b cause ?_)
  rw [(State.bayRecorded_answered serving b cause).1, opening]
  simp

theorem State.bayFault_faultsLoans : s.faultsLoans (s.bayFault b cause).beginRecords b cause := by
  have after : Touches [.answers, .fifos, .arbiters, .staging, .records, .capture, .ports] (s.bayLoaned b cause)
      (s.bayFault b cause).beginRecords :=
    (State.bayFault_touches_staged b cause serving).after rfl ((s.bayStaged_touches b cause).after rfl ((s.bayShared_touches b cause).mono rfl))
  exact ((s.bayRecorded b cause).faultLoans_faultsLoans b cause).congr (s.bayRecorded_touches b cause).loans after
    (State.bayFault_answers_loaned b cause serving)

theorem State.bayFault_faultsShares : s.faultsShares (s.bayFault b cause).beginRecords b cause := by
  have last := State.bayFault_touches_staged b cause serving
  have after : Touches [.answers, .staging, .records, .capture, .ports] (s.bayShared b cause) (s.bayFault b cause).beginRecords :=
    last.after rfl ((s.bayStaged_touches b cause).mono rfl)
  refine ((s.bayLoaned b cause).faultShares_faultsShares b cause).congr (s.bayLoaned_fifos b cause) after
    (State.bayFault_answers_shared b cause serving) ?_
  rw [last.staging, State.bayStaged, State.faultStaging_eq]
  exact State.faultSlots_slotWait ..

theorem State.bayFault_faultsSlots : s.faultsSlots (s.bayFault b cause).beginRecords b cause := by
  have last := State.bayFault_touches_staged b cause serving
  have said : (s.bayShared b cause).faultsSlots (s.bayStaged b cause) b cause := (s.bayShared_untagged b cause).faultStaging_faultsSlots cause
  exact said.congr (s.bayShared_slots b cause) last last.answerList

theorem State.bayStaged_capture : (s.bayStaged b cause).capture = s.capture := by
  have same : (s.bayRecorded b cause).capture = s.capture := by
    rw [State.bayRecorded_eq serving]
    cases (s.bay b).admitCell <;> rfl
  rw [(s.bayStaged_touches_recorded b cause).captures, same]

/-- The fault is offered with the loans and orders it hit (R139, R160 to R162). -/
theorem State.bayFault_tookOffer : s.tookOffer (s.bayFault b cause).beginRecords cause b ((s.bayRecorded b cause).loansFaultedBy b)
    (s.ordersAnswered b cause) := by
  have staged := s.bayStaged_touches_recorded b cause
  have recorded := s.bayRecorded_touches b cause
  rw [State.bayFault_eq b cause serving]
  exact State.offer_tookOffer (by rw [staged.serving, recorded.serving]; exact serving) (State.bayStaged_capture b cause serving)
    (by rw [staged.clock, recorded.clock]) (by rw [staged.base, recorded.base])

theorem State.bayFault_summaryAsked : s.summaryAsked (s.bayFault b cause).beginRecords := by
  have offered : Touches [.answers, .staging, .records, .fifos, .arbiters, .lapseQueue, .loans, .notices, .capture] (s.bayRecorded b cause)
      (s.bayFault b cause) := by
    rw [State.bayFault_eq b cause serving]
    exact (State.offer_touches ..).after rfl ((s.bayStaged_touches_recorded b cause).mono rfl)
  obtain ⟨-, port, seq, -⟩ := offered.same .ports (by decide)
  obtain ⟨held, number⟩ := State.bayRecorded_summaryPort serving b cause
  exact State.summaryAsked_of_request (port.trans held) (seq.trans number) (by rw [offered.base, (s.bayRecorded_touches b cause).base])

/-- A bay fault reaches loans, scheduler, staging memory, Fault Capture Unit and Bay Summary (R139). -/
theorem State.bayFault_faultReached : s.faultReached (s.bayFault b cause).beginRecords b cause := by
  have offered := State.bayFault_tookOffer b cause serving
  refine ⟨State.bayFault_faultsLoans b cause serving, State.bayFault_faultsShares b cause serving,
    State.bayFault_faultsSlots b cause serving, offered.1, fun ordered => ?_, State.bayFault_summaryAsked b cause serving⟩
  have loans : (s.bayRecorded b cause).loansFaultedBy b = s.loansHit b := by
    have same := (s.bayRecorded_touches b cause).loans
    rw [State.loansFaultedBy_eq (by rw [same]; exact ordered.1), State.loansHit, State.loansHit, same, State.waiting_of_loans same]
  rwa [loans, s.ordersAnswered_eq b cause ordered] at offered

end

end

/-! ## Link errors (R124) -/

section
variable {s : State} {b n : Nat} {tag : Option (Fin 4)} {d : Command} {cause : Cause}

theorem exec_linkError (s : State) (b : Fin 24) (tag : Option (Fin 4)) (n : Nat) :
    exec (.linkError b ⟨tag, n⟩) s = .next (s.linkError b tag n) := rfl
theorem exec_cmdTimeout (s : State) (b : Fin 24) (tag : Option (Fin 4)) (n : Nat) :
    exec (.cmdTimeout b ⟨tag, n⟩) s = .next (s.cmdTimeout b tag n) := rfl
theorem exec_readyLost (s : State) (b : Fin 24) : exec (.readyLost b) s = .next (s.readyLost b) := rfl
theorem exec_operationTimeout (s : State) (b : Fin 24) : exec (.operationTimeout b) s = .next (s.operationFails b).beginRecords := rfl

/-- The first and second link error of a command: its resend, while orders are served. -/
theorem State.linkError_resends (serving : s.serving = true) (found : s.command b tag n = some d) (few : d.linkErrors < 2) :
    s.linkError b tag n = (s.endCommand b tag n).send b { d with linkErrors := d.linkErrors + 1 } := by
  have served : (s.endCommand b tag n).serving = true := serving
  unfold State.linkError
  simp only [found]
  rw [if_pos (show d.linkErrors + 1 < Config.linkErrorLimit by unfold Config.linkErrorLimit; omega), State.resend, served]
  rfl

theorem State.linkError_fails (found : s.command b tag n = some d) (third : 2 ≤ d.linkErrors) :
    s.linkError b tag n = (s.linkFails b d).beginRecords := by
  unfold State.linkError
  simp only [found]
  rw [if_neg (show ¬d.linkErrors + 1 < Config.linkErrorLimit by unfold Config.linkErrorLimit; omega)]

theorem State.linkFails_link (kind : d.kind ∈ [CommandKind.read, .write, .standby]) : s.linkFails b d = s.bayFault b .linkFailed := by
  have kinds : d.kind = .read ∨ d.kind = .write ∨ d.kind = .standby := by simpa using kind
  unfold State.linkFails
  rcases kinds with k | k | k <;> simp only [k]

theorem State.linkFails_operation (kind : d.kind ∈ [CommandKind.start, .identify]) : s.linkFails b d = s.operationFails b := by
  have kinds : d.kind = .start ∨ d.kind = .identify := by simpa using kind
  unfold State.linkFails
  rcases kinds with k | k <;> simp only [k]

theorem State.operationFails_admitting (st : (s.bay b).state = .admitting) : s.operationFails b = s.bayFault b .admitFailed := by
  unfold State.operationFails; simp only [st]

theorem State.operationFails_spinningUp (st : (s.bay b).state = .spinningUp) : s.operationFails b = s.bayFault b .spinupFailed := by
  unfold State.operationFails; simp only [st]

/-- A command that may be sent at once is sent as the next one of its bay; any other waits for the ready line (R122). -/
theorem State.send_bay (s : State) (b : Nat) (c : Command) : (s.send b c).bay b =
    if c.kind.waitsForReady = true ∧ (s.lines b).ready = false then { s.bay b with sendList := (s.bay b).sendList ++ [c] }
    else { s.bay b with
      outstanding := (s.bay b).outstanding ++ [{ c with timer := 0, number := (s.bay b).sends }], sends := (s.bay b).sends + 1,
      idleTicks := 0, readyLow := if c.kind = .standby then 0 else (s.bay b).readyLow } := by
  unfold State.send State.readyHigh
  simp only [Bool.and_eq_true, Bool.not_eq_true']
  split
  · rw [State.bay_setBay, if_pos rfl]
  · rw [State.bay_setBay, if_pos rfl]

theorem State.endCommand_bay (s : State) (b : Nat) (tag : Option (Fin 4)) (n c : Nat) : (s.endCommand b tag n).bay c =
    if c = b then (s.bay b).endCommand (tag.map (fun t => t.val)) n else s.bay c := State.bay_setBay ..

/-- A resend, seen in the bay record (R124). -/
theorem State.linkError_bay (serving : s.serving = true) (found : s.command b tag n = some d) (few : d.linkErrors < 2) :
    ((s.linkError b tag n).bay b).state = (s.bay b).state ∧ s.otherBays (s.linkError b tag n) b
      ∧ (d.kind ∈ [.start, .identify] ∨ (s.lines b).ready = true →
          { d with linkErrors := d.linkErrors + 1, timer := 0, number := (s.bay b).sends } ∈ ((s.linkError b tag n).bay b).outstanding
            ∧ ((s.linkError b tag n).bay b).sends = (s.bay b).sends + 1)
      ∧ (d.kind ∈ [.read, .write, .standby] → (s.lines b).ready = false →
          { d with linkErrors := d.linkErrors + 1 } ∈ ((s.linkError b tag n).bay b).sendList)
      ∧ Touches [.records] s (s.linkError b tag n) := by
  have own : (s.endCommand b tag n).bay b = (s.bay b).endCommand (tag.map (fun t => t.val)) n := by
    rw [State.endCommand_bay, if_pos rfl]
  have ended : Touches [.records] s (s.endCommand b tag n) := State.setBay_touches ..
  rw [State.linkError_resends serving found few]
  have sent := (s.endCommand b tag n).send_bay b { d with linkErrors := d.linkErrors + 1 }
  rw [own, ended.lines] at sent
  have waits : d.kind.waitsForReady = true ↔ d.kind = .read ∨ d.kind = .write ∨ d.kind = .standby := d.kind.waitsForReady_iff
  refine ⟨?_, fun c ne => ?_, fun atOnce => ?_, fun kind low => ?_, (State.send_touches ..).after rfl ended⟩
  · rw [State.send_bay_state, own]; rfl
  · rw [State.send_bay_other _ _ ne, State.endCommand_bay, if_neg ne]
  · rw [if_neg] at sent
    · rw [sent]
      exact ⟨List.mem_append_right _ (List.mem_singleton_self _), rfl⟩
    · rintro ⟨wait, low⟩
      rcases atOnce with kind | ready
      · have kinds : d.kind = .start ∨ d.kind = .identify := by simpa using kind
        rcases kinds with k | k <;> rw [show d.kind = _ from k] at wait <;> cases wait
      · rw [ready] at low; cases low
  · rw [if_pos ⟨waits.2 (by simpa using kind), low⟩] at sent
    rw [sent]
    exact List.mem_append_right _ (List.mem_singleton_self _)

/-! ## The causes of a bay fault -/

theorem State.cmdTimeout_fault (found : s.command b tag n = some d) (kind : d.kind ∈ [CommandKind.read, .write, .standby]) :
    s.cmdTimeout b tag n = (s.bayFault b .cmdTimeout).beginRecords := by
  rw [State.cmdTimeout, found, if_pos]
  exact (Option.any_some ..).trans (d.kind.waitsForReady_iff.2 (by simpa using kind))

theorem State.readyLost_fault (watched : (s.bay b).watched = true) (low : (s.lines b).ready = false) :
    s.readyLost b = (s.bayFault b .readyLost).beginRecords := by
  rw [State.readyLost, if_pos]
  rw [watched, State.readyHigh, low]; rfl

end

/-- Settles O52: each of the commands comes to one bay fault, which takes its stages one after another. -/
theorem linkErrorsAndBayFaults : Obligations.LinkErrorsAndBayFaults := by
  refine ⟨fun s b tag n d serves found few => ?_, fun s b command cause serves kinds => ?_⟩
  · exact ⟨_, exec_linkError s b tag n, State.linkError_bay (s.serving_iff.2 serves) found few⟩
  · have serving := s.serving_iff.2 serves
    have fault : exec command s = .next (s.bayFault b cause).beginRecords ∧ cause ≠ .removed := by
      rcases kinds with ⟨tag, n, d, rfl, found, kind, rfl⟩ | ⟨rfl, watched, low, rfl⟩ | ⟨tag, n, d, rfl, found, third, kinds⟩
        | ⟨rfl, st, rfl⟩ | ⟨rfl, st, rfl⟩
      · exact ⟨by rw [exec_cmdTimeout, State.cmdTimeout_fault found kind], nofun⟩
      · exact ⟨by rw [exec_readyLost, State.readyLost_fault watched low], nofun⟩
      · rw [exec_linkError, State.linkError_fails found third]
        rcases kinds with ⟨kind, rfl⟩ | ⟨kind, st, rfl⟩ | ⟨kind, st, rfl⟩
        · exact ⟨by rw [State.linkFails_link kind], nofun⟩
        · exact ⟨by rw [State.linkFails_operation kind, State.operationFails_admitting st], nofun⟩
        · exact ⟨by rw [State.linkFails_operation kind, State.operationFails_spinningUp st], nofun⟩
      · exact ⟨by rw [exec_operationTimeout, State.operationFails_admitting st], nofun⟩
      · exact ⟨by rw [exec_operationTimeout, State.operationFails_spinningUp st], nofun⟩
    have bay := State.bayFault_bay b cause serving
    refine ⟨_, fault.1, bay, ?_, fun c opening => State.bayFault_admit b cause serving opening,
      State.bayFault_faultReached b cause serving⟩
    rw [bay]
    exact if_neg fault.2

end Sys2Proof.Machine
end

section
namespace Sys2Proof.Machine

set_option Elab.async false

/-! ## The Held Cell set and the take in progress (R174 to R176) -/

section
variable {s t u : State} {ps : List Part} {c cell : Nat} {o : HeldOrder}

theorem State.isHeld_eq_false : s.isHeld c = false ↔ ∀ o ∈ s.exchange.held, o.cell ≠ c := by
  simp [State.isHeld, State.order?, Option.isSome_eq_false_iff, List.find?_eq_none]

theorem State.order?_some (h : s.order? c = some o) : o ∈ s.exchange.held ∧ o.cell = c :=
  ⟨List.mem_of_find?_eq_some h, by simpa using List.find?_some h⟩

/-- Where no cell is held twice, a held order is the one that its cell names. -/
theorem State.heldOnce.unique (h : s.heldOnce) (own : s.order? cell = some o) {q : HeldOrder} (mem : q ∈ s.exchange.held)
    (at_cell : q.cell = cell) : q = o := by
  obtain ⟨held, named⟩ := State.order?_some own
  exact List.inj_on_of_nodup_map h.1 mem held (at_cell.trans named.symm)

/-- No order was taken between two states: held orders only left, and a take that has begun is of a cell that was not held. -/
structure State.holdsLess (s t : State) : Prop where
  held : t.exchange.held.Sublist s.exchange.held
  take : ∀ x, t.exchange.take = some x → s.exchange.take = some x ∨ s.isHeld x.cell = false

theorem State.holdsLess.heldOnce (k : s.holdsLess t) (h : s.heldOnce) : t.heldOnce := by
  refine ⟨h.1.sublist (k.held.map _), fun x begun => ?_⟩
  have free : s.isHeld x.cell = false := (k.take x begun).elim (h.2 x) id
  rw [State.isHeld_eq_false] at free ⊢
  exact fun o mem => free o (k.held.subset mem)

theorem State.holdsLess.ordersChecked (k : s.holdsLess t) (h : s.ordersChecked) : t.ordersChecked :=
  fun o mem => h o (k.held.subset mem)

theorem State.holdsLess_of_same (held : t.exchange.held = s.exchange.held) (take : t.exchange.take = s.exchange.take) : s.holdsLess t :=
  ⟨held ▸ List.Sublist.refl _, fun _ begun => .inl (take ▸ begun)⟩

theorem State.holdsLess_of_idle (held : t.exchange.held.Sublist s.exchange.held) (idle : t.exchange.take = none) : s.holdsLess t :=
  ⟨held, fun x begun => by rw [idle] at begun; cases begun⟩

theorem Touches.take (h : Touches ps s t) (w : Part.intake ∉ ps := by decide) : t.exchange.take = s.exchange.take :=
  (h.same .intake w).2.2.2.2.2

theorem Touches.holdsLess (h : Touches ps s t) (w : Part.held ∉ ps := by decide) (w' : Part.intake ∉ ps := by decide) : s.holdsLess t :=
  State.holdsLess_of_same (h.held w) (h.take w')

theorem State.holdsLess.after (h : s.holdsLess t) (k : Touches ps t u) (w : Part.held ∉ ps := by decide)
    (w' : Part.intake ∉ ps := by decide) : s.holdsLess u :=
  ⟨k.held w ▸ h.held, fun x begun => h.take x (k.take w' ▸ begun)⟩

/-! ### The take in progress through what touches the intake -/

theorem State.stopSweep_take (s : State) : s.stopSweep.exchange.take = s.exchange.take := rfl

theorem State.startSweepTimer_take (s : State) : s.startSweepTimer.exchange.take = s.exchange.take := by
  unfold State.startSweepTimer; split <;> rfl

theorem State.sweepOn_take (s : State) (n : Nat) : (s.sweepOn n).exchange.take = s.exchange.take := by
  unfold State.sweepOn; split <;> rfl

theorem State.quiesce_take (s : State) : s.quiesce.exchange.take = s.exchange.take := by
  have sends : ∀ bs : List Nat, Touches [.arbiters, .records] s.stopSweep (bs.foldl (fun u b => u.stopSends b) s.stopSweep) := fun bs =>
    Touches.foldl (fun u b => State.stopSends_touches u b) (Touches.refl ..)
  unfold State.quiesce
  rw [(sends allBays).take, State.stopSweep_take]

theorem State.requestRestart_take (s : State) (cause : ResetCause) : (s.requestRestart cause).exchange.take = s.exchange.take := by
  unfold State.requestRestart
  split
  · rfl
  · rfl
  all_goals rw [State.quiesce_take]

theorem State.areaError_take (s : State) (cause : HaltCause) : (s.areaError cause).exchange.take = s.exchange.take := by
  unfold State.areaError
  split
  iterate 3 rw [State.quiesce_take]
  · split <;> rfl
  · rfl
  · rfl

theorem State.tryStart_take (s : State) : s.tryStart.exchange.take = s.exchange.take := by
  unfold State.tryStart
  split
  · exact State.startSweepTimer_take _
  · rfl

theorem State.actOnRun_take (s : State) : s.actOnRun.exchange.take = s.exchange.take := by
  unfold State.actOnRun
  split
  · exact s.tryStart_take
  · exact State.startSweepTimer_take _
  · rw [(State.tryStop_touches _).take, State.stopSweep_take]; rfl
  · rfl

theorem State.storeControl_take (s : State) (c : Control) : (s.storeControl c).exchange.take = s.exchange.take := by
  have mode : ∀ (u : State) old, (u.changeAnswerMode old).exchange.take = u.exchange.take := fun u old =>
    (State.changeAnswerMode_touches u old).take
  have sweep : ∀ (u : State) old, (u.changeSweepMs old).exchange.take = u.exchange.take := fun u old => by
    unfold State.changeSweepMs; split <;> rfl
  have intake : ∀ (u : State) old, (u.changeIntake old).exchange.take = u.exchange.take := fun u old => by
    unfold State.changeIntake; dsimp only; split; · rfl
    split; · rfl
    split <;> rfl
  unfold State.storeControl
  dsimp only
  rw [State.actOnRun_take, intake, sweep, mode]

theorem State.writeControl_take (s : State) (w : Word) : (s.writeControl w).exchange.take = s.exchange.take := by
  unfold State.writeControl
  split
  · dsimp only
    rw [(State.beginRecords_touches _).take]
    split
    · rw [State.requestRestart_take, State.storeControl_take]
    · rw [State.storeControl_take]
  · rfl

theorem State.writeBase_take (s : State) (high : Bool) (w : Word) : (s.writeBase high w).exchange.take = s.exchange.take := by
  unfold State.writeBase
  split
  · rw [(State.beginRecords_touches _).take, State.tryStart_take]
  · rfl

theorem State.writePost_take (s : State) (w : Word) : (s.writePost w).exchange.take = s.exchange.take := by
  unfold State.writePost
  split
  · split
    · rfl
    · exact (State.noticeOverflow_touches s).take
  · rfl

theorem State.beginSweep_take (s : State) : s.beginSweep.exchange.take = s.exchange.take := by
  unfold State.beginSweep
  split
  · unfold State.firstVisit
    split
    · rfl
    · rw [State.sweepOn_take]; rfl
  · rfl

theorem State.milliSweep_take (s : State) : s.milliSweep.exchange.take = s.exchange.take := by
  unfold State.milliSweep; dsimp only; split <;> rfl

theorem State.microsecond_take (s : State) : s.microsecond.exchange.take = s.exchange.take := by
  have bays : ∀ (bs : List (Fin 24)) (u : State), Touches [.records, .pending] u
      (bs.foldl (fun s b => (s.milliReady b).milliOperation b) u) := fun bs u =>
    Touches.foldl (fun v b => (State.milliOperation_touches _ b).after rfl ((State.milliReady_touches v b).mono rfl)) (Touches.refl ..)
  have milli : ∀ u : State, u.millisecond.exchange.take = u.exchange.take := fun u => by
    unfold State.millisecond
    rw [(bays (List.finRange 24) u.milliSweep).take, State.milliSweep_take]
  have timers : ∀ (bs : List (Fin 24)) (u : State), Touches [.records, .pending] u (bs.foldl (fun s b => s.cycleBay b) u) := fun bs u =>
    Touches.foldl (fun v b => State.cycleBay_touches v b) (Touches.refl ..)
  have divide : ∀ u : State, u.divide.exchange.take = u.exchange.take := fun u => by
    unfold State.divide
    split
    · rfl
    · exact milli _
  unfold State.microsecond
  dsimp only
  split
  · exact (State.cycleClock_touches s).take
  · rw [divide, (timers (List.finRange 24) s.cycleClock).take, (State.cycleClock_touches s).take]

/-- A host memory error leaves the take in progress, or ends it (R176). -/
theorem State.accessFails_take (s : State) (access : AreaAccess) :
    (s.accessFails access).exchange.take = s.exchange.take ∨ (s.accessFails access).exchange.take = none := by
  cases access
  case visitRead =>
    refine .inl ?_
    show s.visitFails.exchange.take = _
    unfold State.visitFails
    split
    · rw [State.areaError_take]; rfl
    · rfl
  case takeRead =>
    show s.takeReadFails.exchange.take = _ ∨ s.takeReadFails.exchange.take = _
    unfold State.takeReadFails
    split
    · exact .inr (State.areaError_take ..)
    · exact .inl rfl
  case takenWrite =>
    show s.takenWriteFails.exchange.take = _ ∨ s.takenWriteFails.exchange.take = _
    unfold State.takenWriteFails
    split
    · exact .inr ((State.areaError_take ..).trans (State.markTaken_touches ..).take)
    · exact .inl rfl
  case faultRecord part =>
    refine .inl ?_
    show (s.faultRecordFails part).exchange.take = _
    unfold State.faultRecordFails
    split
    · exact (State.areaError_take ..).trans (State.failParts_touches ..).take
    · rfl
  case meterBlock part =>
    refine .inl ?_
    show (s.meterBlockFails part).exchange.take = _
    unfold State.meterBlockFails
    split
    · rfl
    · exact (State.areaError_take ..).trans ((State.endMeterWrite_touches _).take.trans (State.failParts_touches ..).take)
  case baySummary part =>
    refine .inl ?_
    show (s.baySummaryFails part).exchange.take = _
    unfold State.baySummaryFails
    split
    · rfl
    · exact (State.areaError_take ..).trans ((State.endSummaryWrite_touches _).take.trans (State.failParts_touches ..).take)
  all_goals
    refine .inl ?_
    show (s.answerFails _).exchange.take = _
    unfold State.answerFails
    split
    · unfold State.fieldsFail
      dsimp only
      rw [State.areaError_take]
      split <;> rfl
    · unfold State.handFails
      rw [State.areaError_take]
      exact (State.pokeAnswer_touches ..).take
    · rw [State.areaError_take]; rfl
    · rfl

/-! ### Takes that begin, and takes that end -/

theorem State.foundPosted_holdsLess (fresh : s.isHeld c = false) : s.holdsLess (s.foundPosted c) := by
  unfold State.foundPosted
  split
  · refine ⟨List.Sublist.refl _, fun x begun => .inr ?_⟩
    obtain rfl : { cell := c, bySweep := true } = x := Option.some.inj begun
    exact fresh
  · exact State.holdsLess_of_same rfl rfl

theorem State.sweepOn_holdsLess (s : State) (n : Nat) : s.holdsLess (s.sweepOn n) :=
  State.holdsLess_of_same (State.sweepOn_touches s n).held (s.sweepOn_take n)

theorem State.visited_holdsLess (s : State) (lead : BitVec 64) : s.holdsLess (s.visited lead) := by
  unfold State.visited
  split
  · exact State.holdsLess_of_same rfl rfl
  · next c _ =>
    split
    · unfold State.leftoverEnds
      dsimp only
      split
      · exact State.holdsLess_of_same (State.sweepOn_touches _ 0).held (State.sweepOn_take _ 0)
      · exact State.holdsLess_of_same rfl rfl
    · split
      · exact s.sweepOn_holdsLess _
      · next posted =>
        rw [Bool.or_eq_true, not_or, Bool.not_eq_true] at posted
        exact State.foundPosted_holdsLess posted.1

theorem State.takePosted_holdsLess (s : State) : s.holdsLess s.takePosted := by
  unfold State.takePosted
  split
  · split
    · exact State.holdsLess_of_same rfl rfl
    · next c rest _ =>
      dsimp only
      split
      · exact State.holdsLess_of_same rfl rfl
      · next fit =>
        refine ⟨List.Sublist.refl _, fun x begun => .inr ?_⟩
        obtain rfl : { cell := c, bySweep := false } = x := Option.some.inj begun
        exact Bool.not_eq_true _ ▸ fun held => fit (.inr held)
  · exact State.holdsLess_of_same rfl rfl

theorem State.resumeSweep_holdsLess (s : State) (x : Take) : s.holdsLess (s.resumeSweep x) := by
  unfold State.resumeSweep
  split
  · split
    · exact s.sweepOn_holdsLess _
    · next fresh => exact State.foundPosted_holdsLess (Bool.not_eq_true _ ▸ fresh)
  · split
    · exact s.sweepOn_holdsLess _
    · exact State.holdsLess_of_same rfl rfl

theorem State.hold_exchange (s : State) (c : Nat) (copy : Copy) :
    (s.hold c copy).exchange.held = s.exchange.held ++ [{ cell := c, copy := copy, transfer := none }]
      ∧ (s.hold c copy).exchange.take = s.exchange.take := by
  unfold State.hold
  dsimp only
  split <;> exact ⟨rfl, rfl⟩

/-- The state in which a take has ended, before the sweep goes on (R176). -/
def State.taken (s : State) (x : Take) (copy : Copy) : State :=
  if copy.hand = handPosted then ((s.setTake none).markTaken x.cell).hold x.cell copy
  else if x.bySweep then s.setTake none else (s.setTake none).strayPost

theorem State.endTake_some {x : Take} (h : s.exchange.take = some x) (copy : Copy) :
    s.endTake copy = ((s.taken x copy).resumeSweep x).tryStop := by
  simp only [State.endTake, h]; rfl

/-- A take that has ended has held its cell, or nothing has been held; either way no take is in progress. -/
theorem State.taken_exchange (s : State) (x : Take) (copy : Copy) :
    ((s.taken x copy).exchange.held = s.exchange.held
        ∨ (s.taken x copy).exchange.held = s.exchange.held ++ [{ cell := x.cell, copy := copy, transfer := none }])
      ∧ (s.taken x copy).exchange.take = none := by
  unfold State.taken
  split
  · obtain ⟨held, take⟩ := ((s.setTake none).markTaken x.cell).hold_exchange x.cell copy
    rw [(State.markTaken_touches ..).held] at held
    rw [(State.markTaken_touches ..).take] at take
    exact ⟨.inr held, take⟩
  · split <;> exact ⟨.inl rfl, rfl⟩

theorem State.heldOnce.taken (h : s.heldOnce) {x : Take} (begun : s.exchange.take = some x) (copy : Copy) : (s.taken x copy).heldOnce := by
  obtain ⟨held, idle⟩ := s.taken_exchange x copy
  refine ⟨?_, fun y begun => by rw [idle] at begun; cases begun⟩
  rcases held with held | held
  · rw [held]; exact h.1
  · have fresh := State.isHeld_eq_false.1 (h.2 x begun)
    rw [held, List.map_append, List.map_singleton, ← List.concat_eq_append, List.nodup_concat]
    refine ⟨fun mem => ?_, h.1⟩
    obtain ⟨o, mem, named⟩ := List.mem_map.1 mem
    exact fresh o mem named

theorem State.ordersChecked.taken (h : s.ordersChecked) (x : Take) (copy : Copy) : (s.taken x copy).ordersChecked := by
  intro o mem y transfer
  rcases (s.taken_exchange x copy).1 with held | held
  · exact h o (held ▸ mem) y transfer
  · rw [held, List.mem_append, List.mem_singleton] at mem
    rcases mem with mem | rfl
    · exact h o mem y transfer
    · cases transfer

theorem State.endTake_laws (h : s.heldOnce) (copy : Copy) :
    (s.endTake copy).heldOnce ∧ (s.ordersChecked → (s.endTake copy).ordersChecked) := by
  cases begun : s.exchange.take with
  | none =>
    have still : s.endTake copy = s := by simp only [State.endTake, begun]
    rw [still]; exact ⟨h, id⟩
  | some x =>
    have less : (s.taken x copy).holdsLess (s.endTake copy) := by
      rw [State.endTake_some begun]
      exact ((s.taken x copy).resumeSweep_holdsLess x).after (State.tryStop_touches _)
    exact ⟨less.heldOnce (h.taken begun copy), fun checked => less.ordersChecked (checked.taken x copy)⟩

/-! ### Orders that come to make a transfer (R34, R38) -/

theorem State.order?_of_handed {k : OrderKind} (h : s.handed k cell = some o) : s.order? cell = some o ∧ Copy.kind o.copy = some k := by
  unfold State.handed at h
  split at h
  · obtain ⟨own, kind⟩ := Option.filter_eq_some_iff.1 h
    exact ⟨own, by simpa using kind⟩
  · cases h

/-- Of the held orders no more changed than that the one in a cell, with a copy c, makes a transfer that has passed its format check, with
the count of the copy, but for an append. -/
def State.makesChecked (s t : State) (cell : Nat) (c : Copy) : Prop :=
  t.exchange.held = s.exchange.held
    ∨ ∃ x : Transfer, t.exchange.held = (s.setTransfer cell x).exchange.held ∧ c.transferFailure x.kind = none
        ∧ (x.kind ≠ .appendWrite → x.count = c.count)

theorem State.makesChecked_of_touches {c : Copy} (k : Touches ps s t) (w : Part.held ∉ ps := by decide) : s.makesChecked t cell c :=
  .inl (k.held w)

theorem State.takeUp_held (s : State) (cell : Nat) (x : Transfer) :
    (s.takeUp cell x).exchange.held = (s.setTransfer cell x).exchange.held := (State.path_touches _ cell x).held

theorem State.loanTransfer_makesChecked (s : State) (k : OrderKind) (cell : Nat) (c : Copy) : s.makesChecked (s.loanTransfer k cell c) cell c := by
  unfold State.loanTransfer
  split
  · exact State.makesChecked_of_touches (State.reply_touches ..)
  · next format =>
    split
    · exact State.makesChecked_of_touches (State.reply_touches ..)
    · exact .inr ⟨_, State.takeUp_held _ _ _, format, fun _ => rfl⟩

theorem State.serviceTransfer_makesChecked (s : State) (k : OrderKind) (cell : Nat) (c : Copy) :
    s.makesChecked (s.serviceTransfer k cell c) cell c := by
  unfold State.serviceTransfer
  split
  · exact State.makesChecked_of_touches (State.reply_touches ..)
  · next format =>
    split
    · exact State.makesChecked_of_touches (State.reply_touches ..)
    · exact .inr ⟨_, State.takeUp_held _ _ _, format, fun _ => rfl⟩

theorem State.appendOrder_makesChecked (s : State) (cell : Nat) (c : Copy) : s.makesChecked (s.appendOrder cell c) cell c := by
  unfold State.appendOrder
  split
  · exact State.makesChecked_of_touches (State.reply_touches ..)
  · next format =>
    split
    · exact State.makesChecked_of_touches (State.reply_touches ..)
    · unfold State.placeAppend
      dsimp only
      split
      · exact .inr ⟨_, (State.reply_touches ..).held, format, fun append => absurd rfl append⟩
      · split
        · exact .inr ⟨_, (State.reply_touches ..).held, format, fun append => absurd rfl append⟩
        · exact .inr ⟨_, State.takeUp_held _ _ _, format, fun append => absurd rfl append⟩

theorem State.setTransfer_cells (s : State) (cell : Nat) (x : Transfer) :
    (s.setTransfer cell x).exchange.held.map (fun o => o.cell) = s.exchange.held.map (fun o => o.cell) := by
  rw [State.setTransfer, List.map_map]
  exact List.map_congr_left fun o _ => by simp only [Function.comp]; split <;> rfl

theorem State.makesChecked.cells {c : Copy} (k : s.makesChecked t cell c) :
    t.exchange.held.map (fun o => o.cell) = s.exchange.held.map (fun o => o.cell) := by
  rcases k with held | ⟨x, held, -, -⟩
  · rw [held]
  · rw [held, State.setTransfer_cells]

theorem State.makesChecked.heldOnce {c : Copy} (k : s.makesChecked t cell c) (take : t.exchange.take = s.exchange.take) (h : s.heldOnce) :
    t.heldOnce := by
  refine ⟨k.cells ▸ h.1, fun x begun => ?_⟩
  have free := State.isHeld_eq_false.1 (h.2 x (take ▸ begun))
  refine State.isHeld_eq_false.2 fun o mem e => ?_
  have mem : o.cell ∈ s.exchange.held.map (fun o => o.cell) := k.cells ▸ List.mem_map_of_mem (f := fun o => o.cell) mem
  obtain ⟨q, mem, named⟩ := List.mem_map.1 mem
  exact free q mem (named.trans e)

theorem State.makesChecked.ordersChecked (k : s.makesChecked t cell o.copy) (once : s.heldOnce) (own : s.order? cell = some o)
    (h : s.ordersChecked) : t.ordersChecked := by
  rcases k with held | ⟨x, held, format, count⟩
  · exact fun q mem => h q (held ▸ mem)
  · intro q mem y transfer
    rw [held] at mem
    obtain ⟨p, listed, rfl⟩ := List.mem_map.1 mem
    split at transfer
    · next named =>
      obtain rfl := once.unique own listed named
      obtain rfl := Option.some.inj transfer
      rw [if_pos named]
      exact ⟨format, count⟩
    · next named => rw [if_neg named]; exact h p listed y transfer

/-- An order whose handling can do no more than make a checked transfer keeps the laws of the Held Cell set. -/
theorem State.handling_laws {k : OrderKind} {act : State → Copy → State} (acts : ∀ (u : State) c, u.makesChecked (act u c) cell c)
    (frame : ∀ (u : State) c, (act u c).exchange.take = u.exchange.take) (h : s.heldOnce) (e : s.handling k cell act = .next t) :
    t.heldOnce ∧ (s.ordersChecked → t.ordersChecked) := by
  cases handed : s.handed k cell with
  | none => simp only [State.handling, handed] at e; cases e; exact ⟨h, id⟩
  | some o =>
    rw [State.handling_of_handed handed] at e
    cases e
    have made : s.makesChecked (act (s.validated cell) o.copy).beginRecords cell o.copy := by
      rcases acts (s.validated cell) o.copy with held | ⟨x, held, checked⟩
      · exact .inl ((State.beginRecords_touches _).held.trans held)
      · exact .inr ⟨x, (State.beginRecords_touches _).held.trans held, checked⟩
    have take : (act (s.validated cell) o.copy).beginRecords.exchange.take = s.exchange.take :=
      (State.beginRecords_touches _).take.trans (frame _ _)
    exact ⟨made.heldOnce take h, made.ordersChecked h (State.order?_of_handed handed).1⟩

/-! ### Every step -/

theorem State.restartEffects_holdsLess (s : State) : s.holdsLess s.restartEffects := by
  have held : s.restartEffects.exchange.held = [] :=
    (s.restartEffects_touches_restarted.held).trans (s.restarted_touches.held)
  have take : s.restartEffects.exchange.take = none :=
    (s.restartEffects_touches_restarted.take).trans (s.restarted_touches.take)
  exact State.holdsLess_of_idle (held ▸ List.nil_sublist _) take

theorem State.answerWritten_holdsLess (s : State) : s.holdsLess s.answerWritten := by
  have take : s.answerWritten.exchange.take = s.exchange.take := (State.answerWritten_touches s).take
  refine ⟨?_, fun x begun => .inl (take ▸ begun)⟩
  unfold State.answerWritten
  split
  · next a rest _ _ =>
    dsimp only
    split
    · have reported : ∀ (u : State) (x : Option Transfer), (u.reportAnswer a x).exchange.held = u.exchange.held := fun u x =>
        (State.reportAnswer_touches u a x).held
      rw [(State.beginRecords_touches _).held, State.finishAnswer, (State.tryStop_touches _).held, reported]
      have filtered : ∀ u : State, (u.unhold a.cell).exchange.held.Sublist u.exchange.held := fun _ => List.filter_sublist
      rw [← (s.pokedAnswer_touches a).held]
      exact filtered (((((s.pokeAnswer a).pokeHand a.cell)).nextAnswer rest).growAnswers a.cell)
    · rw [← (s.pokedAnswer_touches a).held]
      exact List.Sublist.refl _
  · exact List.Sublist.refl _

/-- A command keeps the laws of the Held Cell set: an order is taken by TAKE alone, comes to make a transfer as a transfer order alone, and
every other command holds no more than before. -/
theorem exec_held_laws {c : Instr} (h : s.heldOnce) (e : exec c s = .next t) : t.heldOnce ∧ (s.ordersChecked → t.ordersChecked) := by
  have less : ∀ {t}, s.holdsLess t → t.heldOnce ∧ (s.ordersChecked → t.ordersChecked) := fun k => ⟨k.heldOnce h, k.ordersChecked⟩
  have same : Part.held ∉ footprint c → t.exchange.take = s.exchange.take → t.heldOnce ∧ (s.ordersChecked → t.ordersChecked) :=
    fun w take => less (State.holdsLess_of_same ((exec_touches e).held w) take)
  cases c
  case powerOn => cases e; exact less (State.holdsLess_of_idle (List.nil_sublist _) rfl)
  case restartEffects =>
    cases e
    split
    · exact less s.restartEffects_holdsLess
    · exact ⟨h, id⟩
  case linkReset => cases e; exact same (by dsimp only [footprint]; decide) (State.requestRestart_take ..)
  case restart => cases e; exact same (by dsimp only [footprint]; decide) (s.writeControl_take _)
  case run => cases e; exact same (by dsimp only [footprint]; decide) (s.writeControl_take _)
  case runStop => cases e; exact same (by dsimp only [footprint]; decide) (s.writeControl_take _)
  case intakeMode => cases e; exact same (by dsimp only [footprint]; decide) (s.writeControl_take _)
  case answerMode => cases e; exact same (by dsimp only [footprint]; decide) (s.writeControl_take _)
  case sweepMs => cases e; exact same (by dsimp only [footprint]; decide) (s.writeControl_take _)
  case exchangeBase => cases e; exact same (by dsimp only [footprint]; decide) (s.writeBase_take _ _)
  case post => cases e; exact same (by dsimp only [footprint]; decide) (s.writePost_take _)
  case postFifoIntake => cases e; exact less s.takePosted_holdsLess
  case sweep => cases e; exact same (by dsimp only [footprint]; decide) s.beginSweep_take
  case sweepVisit => cases e; exact less (s.visited_holdsLess _)
  case take => cases e; exact State.endTake_laws h _
  case read cell =>
    rw [exec_read] at e
    exact State.handling_laws (fun u c => u.loanTransfer_makesChecked _ _ c) (fun u c => (State.loanTransfer_touches u _ _ c).take) h e
  case write cell =>
    rw [exec_write] at e
    exact State.handling_laws (fun u c => u.loanTransfer_makesChecked _ _ c) (fun u c => (State.loanTransfer_touches u _ _ c).take) h e
  case appendWrite cell =>
    rw [exec_appendWrite] at e
    exact State.handling_laws (fun u c => u.appendOrder_makesChecked _ c) (fun u c => (State.appendOrder_touches u _ c).take) h e
  case serviceRead cell =>
    rw [exec_serviceRead] at e
    exact State.handling_laws (fun u c => u.serviceTransfer_makesChecked _ _ c) (fun u c => (State.serviceTransfer_touches u _ _ c).take) h e
  case serviceWrite cell =>
    rw [exec_serviceWrite] at e
    exact State.handling_laws (fun u c => u.serviceTransfer_makesChecked _ _ c) (fun u c => (State.serviceTransfer_touches u _ _ c).take) h e
  case answerWritten => cases e; exact less s.answerWritten_holdsLess
  case exchangeAreaError access =>
    cases e
    have held : (s.accessFails access).exchange.held = s.exchange.held := (State.accessFails_touches s access).held
    rcases s.accessFails_take access with take | take
    · exact less (State.holdsLess_of_same held take)
    · exact less (State.holdsLess_of_idle (held ▸ List.Sublist.refl _) take)
  all_goals exact less ((exec_touches e).holdsLess (by dsimp only [footprint]; decide) (by dsimp only [footprint]; decide))

theorem step_held_laws (h : s.heldOnce) (e : step s = .next t) : t.heldOnce ∧ (s.ordersChecked → t.ordersChecked) := by
  rcases step_cases e with ⟨-, rfl⟩ | ⟨c, rest, -, e⟩
  · have less : s.holdsLess s.microsecond := State.holdsLess_of_same (State.microsecond_touches s).held s.microsecond_take
    exact ⟨less.heldOnce h, less.ordersChecked⟩
  · have less : s.holdsLess { s with pending := rest } := (touches_pending s rest).holdsLess
    obtain ⟨once, checked⟩ := exec_held_laws (less.heldOnce h) e
    exact ⟨once, fun orders => checked (less.ordersChecked orders)⟩

end

/-- Settles O5, by what each command does to the Held Cell set and to the take in progress. -/
theorem stepsHoldACellOnce : Obligations.StepsHoldACellOnce :=
  ⟨fun _ _ h e => (step_held_laws h e).1, fun _ _ h checked e => (step_held_laws h e).2 checked⟩

end Sys2Proof.Machine
end

section
namespace Sys2Proof.Machine

set_option Elab.async false

/-! ## Transfers that pass their checks (R24, R25, R34, R36, R38) -/

section
variable {s t u : State} {ps : List Part} {k : OrderKind} {c : Copy} {o : HeldOrder} {x : Transfer} {l : Loan}

theorem State.setTransfer_order? (s : State) (cell : Nat) (x : Transfer) (d : Nat) : (s.setTransfer cell x).order? d =
    if d = cell then (s.order? d).map (fun o => { o with transfer := some x }) else s.order? d := by
  unfold State.order? State.setTransfer
  dsimp only
  rw [List.find?_map]
  have named : ((fun o : HeldOrder => o.cell == d) ∘ fun o => if o.cell = cell then { o with transfer := some x } else o)
      = fun o => o.cell == d := by
    funext o; simp only [Function.comp]; split <;> rfl
  rw [named]
  cases found : s.exchange.held.find? (fun o => o.cell == d) with
  | none => simp
  | some o =>
    have named : o.cell = d := by simpa using List.find?_some found
    simp only [Option.map_some, named]
    split <;> rfl

/-- The in-flight count of the loan of a transfer rises, if it is under a loan (R24). -/
def State.counted (s : State) (x : Transfer) : State :=
  match x.loan with
  | some n => s.raiseInFlight n
  | none => s

theorem State.counted_touches (s : State) (x : Transfer) : Touches [.loans] s (s.counted x) := by
  unfold State.counted
  split
  · exact State.raiseInFlight_touches ..
  · exact Touches.refl ..

theorem State.counted_loan (s : State) (x : Transfer) (n : Nat) : (s.counted x).loan n =
    if x.loan = some n then { s.loan n with inFlight := (s.loan n).inFlight + 1 } else s.loan n := by
  unfold State.counted
  split
  · next m own =>
    rw [State.raiseInFlight, State.loan_setLoan, own]
    by_cases e : n = m
    · subst e; simp
    · rw [if_neg e, if_neg fun h => e (Option.some.inj h).symm]
  · next none => rw [none, if_neg (by simp)]

theorem State.loanCheck_lends (lends : s.lends k c l) (low : l.first ≤ c.first)
    (high : c.first + c.count ≤ l.first + l.count) : s.loanCheck k c = .ok l := by
  obtain ⟨bound, rfl, held, node, mode⟩ := lends
  have own := State.loanOf_own bound (by rw [held]; simp) node
  simp only [State.loanCheck, own, held, mode]
  simp [liesWithin, low, high]

theorem State.bayCheck_none (accepts : (s.bay c.bay).state.accepts = true) (fits : c.first + c.count ≤ (s.bay c.bay).capacity) :
    s.bayCheck c = none := by
  have sound : (s.bay c.bay).state ≠ .faulted := fun e => by rw [e] at accepts; cases accepts
  unfold State.bayCheck
  dsimp only
  rw [if_neg sound, accepts, if_neg (by decide), if_neg (by omega)]

/-- The state in which the held order of a transfer that passed its checks has come to make it. -/
def State.transferMade (s : State) (cell : Nat) (x : Transfer) : State := ((s.validated cell).counted x).setTransfer cell x

theorem State.transferMade_touches (s : State) (cell : Nat) (x : Transfer) :
    Touches [.awaiting, .held, .loans] s (s.transferMade cell x) :=
  (State.setTransfer_touches ..).after rfl ((State.counted_touches ..).after rfl ((State.validated_touches ..).mono rfl))

/-- The transfer that a READ or WRITE makes under a loan (R25). -/
def Copy.underLoan (c : Copy) (k : OrderKind) (l : Loan) : Transfer :=
  { kind := k, group := l.group, bay := l.bay, first := c.first, count := c.count, loan := some c.loan, reserved := none, residue := 0 }

/-- The transfer that a SERVICE_READ or SERVICE_WRITE makes (R36). -/
def Copy.inService (c : Copy) (k : OrderKind) : Transfer :=
  { kind := k, group := c.group, bay := c.bay, first := c.first, count := c.count, loan := none, reserved := none, residue := 0 }

/-- A transfer that passes its checks goes on its path (R39). -/
theorem exec_transfer_passes {cell : Fin 1024} (kind : k ∈ [OrderKind.read, .write, .serviceRead, .serviceWrite])
    (handed : s.handed k cell = some o) (passes : s.passes k o.copy x) :
    exec (k.command cell) s = .next ((s.transferMade cell x).path cell x).beginRecords := by
  have before := s.validated_touches cell
  obtain ⟨format, ⟨loan, l, lends, low, high, rfl⟩ | ⟨service, accepts, fits, rfl⟩⟩ := passes
  · have check : (s.validated cell).loanCheck k o.copy = .ok l :=
      (before.loanCheck k o.copy).trans (State.loanCheck_lends lends low high)
    have taken : (s.validated cell).loanTransfer k cell o.copy =
        (s.transferMade cell (Copy.underLoan o.copy k l)).path cell (Copy.underLoan o.copy k l) := by
      simp only [State.loanTransfer, format, check]; rfl
    refine Eq.trans ?_ (congrArg (fun v => Host.Outcome.next v.beginRecords) taken)
    rcases loan with rfl | rfl
    · exact (exec_read cell s).trans (State.handling_of_handed handed)
    · exact (exec_write cell s).trans (State.handling_of_handed handed)
  · have check : (s.validated cell).bayCheck o.copy = none := (before.bayCheck o.copy).trans (State.bayCheck_none accepts fits)
    have taken : (s.validated cell).serviceTransfer k cell o.copy =
        (s.transferMade cell (Copy.inService o.copy k)).path cell (Copy.inService o.copy k) := by
      simp only [State.serviceTransfer, format, check]; rfl
    refine Eq.trans ?_ (congrArg (fun v => Host.Outcome.next v.beginRecords) taken)
    rcases service with rfl | rfl
    · exact (exec_serviceRead cell s).trans (State.handling_of_handed handed)
    · exact (exec_serviceWrite cell s).trans (State.handling_of_handed handed)

/-- Whatever path it then takes, the transfer is taken up. -/
theorem State.takenUp_of_handed {cell : Nat} (handed : s.handed k cell = some o) (after : Touches ps (s.transferMade cell x) t)
    (w : Part.held ∉ ps := by decide) (w' : Part.loans ∉ ps := by decide) : s.takenUp t cell x := by
  have order : ∀ d, t.order? d = if d = cell then (s.order? d).map (fun o => { o with transfer := some x }) else s.order? d := fun d => by
    rw [after.order d w, State.transferMade, State.setTransfer_order?, (State.counted_touches ..).order, (State.validated_touches ..).order]
  refine ⟨?_, fun d ne => by rw [order, if_neg ne], fun n => ?_⟩
  · rw [State.transfer?, order, if_pos rfl, (State.order?_of_handed handed).1]; rfl
  · rw [after.loan n w', State.transferMade, (State.setTransfer_touches ..).loan, State.counted_loan, (State.validated_touches ..).loan]

theorem Touches.candidate (h : Touches ps s t) (b first count : Nat) (w : Part.staging ∉ ps := by decide) :
    t.candidate b first count = s.candidate b first count := by
  simp only [State.candidate, State.outdated, State.overDrain, State.slot, h.staging w]

end

/-! ## A transfer behind other orders (R39, R57) -/

/-- Settles O32: the path of the transfer, which no slot takes, ends in an append to a FIFO that is not empty. -/
theorem transfersAreQueued : Obligations.TransfersAreQueued := by
  intro k s cell o x kind handed passes alone queued
  have made := s.transferMade_touches cell x
  have isRead : x.kind = k := by obtain ⟨-, ⟨-, l, -, -, -, rfl⟩ | ⟨-, -, -, rfl⟩⟩ := passes <;> rfl
  have fifo := made.fifo x.bay x.group
  have path : (s.transferMade cell x).path cell x = (s.transferMade cell x).setFifo x.bay x.group
      { s.fifo x.bay x.group with orders := (s.fifo x.bay x.group).orders ++ [cell.val] } := by
    have unjoined : (if x.kind.isRead then (s.transferMade cell x).candidate x.bay x.first x.count else none) = none := by
      rw [isRead]
      split
      · next read => rw [made.candidate, alone read]
      · rfl
    simp only [State.path, unjoined, State.enqueue, fifo]
    rw [if_neg (by simpa using queued)]
  have ended : Touches [.ports] ((s.transferMade cell x).path cell x) ((s.transferMade cell x).path cell x).beginRecords :=
    State.beginRecords_touches _
  have put : Touches [.fifos] (s.transferMade cell x) ((s.transferMade cell x).path cell x) := path ▸ State.setFifo_touches ..
  refine ⟨_, exec_transfer_passes kind handed passes, State.takenUp_of_handed handed (ended.after (qs := [.fifos, .ports]) rfl (put.mono rfl)),
    ?_, fun c h other => ?_, ended.after rfl (put.after rfl (made.mono rfl))⟩
  · rw [ended.fifo, path, State.fifo_setFifo_self]
  · rw [ended.fifo, path, State.fifo_setFifo, if_neg other, made.fifo]

end Sys2Proof.Machine
end

section
namespace Sys2Proof.Machine

set_option Elab.async false

/-! ## Joins (R81 to R83) -/

section
variable {s t : State} {b first count j k c : Nat} {x : Transfer} {ps : List Part}

/-- Slot j can be joined by a read of a range of bay b (R81, log entry 10). -/
def State.joinable (s : State) (b first count j : Nat) : Prop :=
  ∃ p, (s.slot j).place = some p ∧ p.bay = b ∧ p.first ≤ first ∧ first + count ≤ p.first + p.count
    ∧ (((s.slot j).state = .resident ∧ ∀ e ∈ s.staging.slots, e.2.state = .draining → e.2.overlapsOn b p.first p.count = false)
      ∨ ((s.slot j).state = .filling ∧ (s.slot j).joiners.length < 32 ∧ (s.slot j).staleRetry = false))

theorem State.overDrain_eq_false : s.overDrain b first count = false ↔
    ∀ e ∈ s.staging.slots, e.2.state = .draining → e.2.overlapsOn b first count = false := by
  simp [State.overDrain, List.any_eq_false]

theorem State.joinable_iff :
    ((s.slot j).isCandidate b first count && !s.outdated (s.slot j)) = true ↔ s.joinable b first count j := by
  cases place : (s.slot j).place with
  | none => simp [State.joinable, Slot.isCandidate, Slot.containsOn, place]
  | some p =>
    have inside : (s.slot j).containsOn b first count = true ↔ p.bay = b ∧ p.first ≤ first ∧ first + count ≤ p.first + p.count := by
      simp [Slot.containsOn, place, liesWithin]
    have resident : (s.slot j).state = .resident → (s.outdated (s.slot j) = false ↔ s.overDrain p.bay p.first p.count = false) := fun st => by
      simp [State.outdated, st, place]
    have other : (s.slot j).state ≠ .resident → s.outdated (s.slot j) = false := fun st => by simp [State.outdated, st]
    simp only [State.joinable, place, Option.some.injEq, exists_eq_left', Slot.isCandidate, Bool.and_eq_true, Bool.or_eq_true,
      Bool.not_eq_true', beq_iff_eq, decide_eq_true_eq, inside, Config.maxJoiners]
    constructor
    · rintro ⟨⟨⟨rfl, low, high⟩, st | ⟨⟨st, few⟩, fresh⟩⟩, current⟩
      · exact ⟨rfl, low, high, .inl ⟨st, State.overDrain_eq_false.1 ((resident st).1 current)⟩⟩
      · exact ⟨rfl, low, high, .inr ⟨st, few, fresh⟩⟩
    · rintro ⟨rfl, low, high, ⟨st, current⟩ | ⟨st, few, fresh⟩⟩
      · exact ⟨⟨⟨rfl, low, high⟩, .inl st⟩, (resident st).2 (State.overDrain_eq_false.2 current)⟩
      · exact ⟨⟨⟨rfl, low, high⟩, .inr ⟨⟨st, few⟩, fresh⟩⟩, other (by rw [st]; decide)⟩

/-- The candidate is the lowest slot that can be joined. -/
theorem State.candidate_eq_some : s.candidate b first count = some j ↔
    j < 256 ∧ s.joinable b first count j ∧ ∀ i, i < j → ¬s.joinable b first count i := by
  unfold State.candidate
  rw [List.find?_range_eq_some]
  simp only [State.joinable_iff, Bool.not_eq_true', List.mem_range, Config.numSlots, ← Bool.not_eq_true]
  tauto

theorem State.candidate_eq_none : s.candidate b first count = none ↔ ∀ j, j < 256 → ¬s.joinable b first count j := by
  unfold State.candidate
  rw [List.find?_range_eq_none]
  simp only [Bool.not_eq_true', Config.numSlots, ← Bool.not_eq_true, State.joinable_iff]

/-- What a join leaves of the slot that is joined (R82, R83). -/
def Slot.joinedBy (v : Slot) (c : Nat) : Slot :=
  if v.state = .resident then { v with deliveries := v.deliveries + 1 } else { v with joiners := v.joiners ++ [c] }

theorem State.joinSlot_slot (s : State) (k c : Nat) (x : Transfer) (j : Nat) :
    (s.joinSlot k c x).slot j = if j = k then (s.slot k).joinedBy c else s.slot j := by
  unfold State.joinSlot Slot.joinedBy
  dsimp only
  split
  · rw [(State.meterStaged_touches ..).slot, (State.startItem_touches ..).slot]
    exact State.slot_setSlot ..
  · exact State.slot_setSlot ..

theorem State.joinSlot_resident (st : (s.slot k).state = .resident) : s.joinSlot k c x =
    (((s.setSlot k { s.slot k with deliveries := (s.slot k).deliveries + 1 }).touch k).startItem
      { cell := c, slot := k, fetch := false, led := false, channel := none }).meterStaged x.group x.count := if_pos st

theorem State.joinSlot_filling (st : (s.slot k).state ≠ .resident) :
    s.joinSlot k c x = s.setSlot k { s.slot k with joiners := (s.slot k).joiners ++ [c] } := if_neg st

theorem State.meterStaged_meter (s : State) (g n h : Nat) : (s.meterStaged g n).meter h =
    if h = g then { s.meter g with staged := (s.meter g).staged.add n } else s.meter h := State.meter_setMeter ..

end

/-- Settles O34: what makes a slot a candidate, and the two ways to join it. -/
theorem readsJoinStagedData : Obligations.ReadsJoinStagedData := by
  refine ⟨fun s b first count => ⟨fun j => State.candidate_eq_some, State.candidate_eq_none⟩, ?_⟩
  intro k s cell o x j kind handed passes candidate
  have made := s.transferMade_touches cell x
  have read : x.kind.isRead = true := by
    have own : x.kind = k := by obtain ⟨-, ⟨-, l, -, -, -, rfl⟩ | ⟨-, -, -, rfl⟩⟩ := passes <;> rfl
    rw [own]
    rcases List.mem_pair.1 kind with rfl | rfl <;> rfl
  have path : (s.transferMade cell x).path cell x = (s.transferMade cell x).joinSlot j cell x := by
    simp only [State.path, read, if_true, made.candidate, candidate]
  have passed := exec_transfer_passes (by rcases List.mem_pair.1 kind with rfl | rfl <;> decide) handed passes
  rw [path] at passed
  have joined := State.joinSlot_touches (s.transferMade cell x) j cell x
  have ended := State.beginRecords_touches ((s.transferMade cell x).joinSlot j cell x)
  have slot := made.slot j
  have last : ∀ i, ((s.transferMade cell x).joinSlot j cell x).beginRecords.slot i
      = if i = j then (s.slot j).joinedBy cell else s.slot i := fun i => by
    rw [ended.slot, State.joinSlot_slot, slot, made.slot]
  refine ⟨_, passed, State.takenUp_of_handed handed (ended.after (qs := [.staging, .engine, .meters, .ports]) rfl (joined.mono rfl)),
    fun i ne => by rw [last, if_neg ne], fun st => ?_, fun st => ?_, ended.after rfl (joined.after rfl (made.mono rfl))⟩
  · have own : ((s.transferMade cell x).slot j).state = .resident := by rw [slot, st]
    refine ⟨by rw [last, if_pos rfl, Slot.joinedBy, if_pos st], ?_, ?_, ?_⟩
    · rw [ended.same .engine (by decide), State.joinSlot_resident own, (State.meterStaged_touches ..).same .engine (by decide),
        ← made.same .engine (by decide)]
      rfl
    · rw [ended.staging, State.joinSlot_resident own, (State.meterStaged_touches ..).staging, ← made.staging]
      rfl
    · rw [ended.meter, State.joinSlot_resident own, State.meterStaged_meter, if_pos rfl, ← made.meter]
      rfl
  · have own : ((s.transferMade cell x).slot j).state ≠ .resident := by rw [slot, st]; decide
    have put : Touches [.staging] (s.transferMade cell x) ((s.transferMade cell x).joinSlot j cell x) := by
      rw [State.joinSlot_filling own]; exact State.setSlot_touches ..
    have quiet : (s.slot j).state ≠ .resident := by rw [st]; decide
    exact ⟨by rw [last, if_pos rfl, Slot.joinedBy, if_neg quiet], (ended.same .engine (by decide)).trans ((put.same .engine (by decide)).trans
      (made.same .engine (by decide))), ended.meters.trans (put.meters.trans made.meters)⟩

end Sys2Proof.Machine
end

section
namespace Sys2Proof.Machine

set_option Elab.async false

/-! ## Command tags (R71, R73) -/

section
variable {s t : State} {b c i j k : Nat} {ps : List Part}

theorem State.tagHolder_setTag (s : State) (b i : Nat) (holder : Option Nat) (c j : Nat) :
    (s.setTag b i holder).tagHolder c j = if c = b ∧ j = i then holder else s.tagHolder c j := by
  unfold State.setTag State.tagHolder
  rw [State.arbiter_setArbiter]
  by_cases e : c = b
  · subst e; rw [if_pos rfl, Table.get_set]; simp
  · rw [if_neg e, if_neg fun h => e h.1]

theorem State.tagHolder_setArbiter (s : State) (b : Nat) {a : Arbiter} (h : a.tags = (s.arbiter b).tags) (c j : Nat) :
    (s.setArbiter b a).tagHolder c j = s.tagHolder c j := by
  unfold State.tagHolder
  rw [State.arbiter_setArbiter]
  split
  · next e => rw [h, e]
  · rfl

theorem State.freeTag_eq_some : s.freeTag b = some i ↔ i < 4 ∧ s.tagHolder b i = none ∧ ∀ j, j < i → s.tagHolder b j ≠ none := by
  unfold State.freeTag
  rw [List.find?_range_eq_some]
  simp only [List.mem_range, Config.numTags, Option.isNone_iff_eq_none, Bool.not_eq_true', Option.isNone_eq_false_iff,
    ← Option.ne_none_iff_isSome]
  tauto

/-- The tag that an order holds is the lowest that names it. -/
theorem State.tagOf_eq_some : s.tagOf b c = some i ↔ i < 4 ∧ s.tagHolder b i = some c ∧ ∀ j, j < i → s.tagHolder b j ≠ some c := by
  unfold State.tagOf
  rw [List.find?_range_eq_some]
  simp only [List.mem_range, Config.numTags, beq_iff_eq, Bool.not_eq_true', beq_eq_false_iff_ne]
  tauto

theorem State.tagOf_eq_none : s.tagOf b c = none ↔ ∀ i, i < 4 → s.tagHolder b i ≠ some c := by
  unfold State.tagOf
  rw [List.find?_range_eq_none]
  simp only [Config.numTags, Bool.not_eq_true', beq_eq_false_iff_ne]

theorem State.tagOf_congr (h : ∀ j, t.tagHolder b j = some c ↔ s.tagHolder b j = some c) : t.tagOf b c = s.tagOf b c := by
  unfold State.tagOf
  refine congrArg (fun p => List.find? p _) (funext fun j => Bool.eq_iff_iff.2 ?_)
  rw [beq_iff_eq, beq_iff_eq, h j]

theorem Touches.tagOf (h : Touches ps s t) (b c : Nat) (w : Part.arbiters ∉ ps := by decide) : t.tagOf b c = s.tagOf b c :=
  State.tagOf_congr fun j => by rw [h.tagHolder b j w]

end

/-! ## The slot that a dispatch is given (R88) -/

section
variable {s t : State} {b c i j k : Nat} {x : Transfer}

theorem State.allocate_eq (s : State) (b : Nat) : s.allocate b =
    ((List.range 256).find? (fun k => (s.slot k).state == .free && (s.slot k).reservedFor == some b)).or
      (((List.range 256).find? (fun k => (s.slot k).state == .free && (s.slot k).reservedFor.isNone)).or
        (s.staging.residency.find? (fun k => (s.slot k).state == .resident && (s.slot k).deliveries == 0))) := by
  unfold State.allocate
  rw [Option.orElse_eq_orElse, Option.orElse_eq_or, Option.orElse_eq_or]

/-- A slot is FREE and reserved for the bay, FREE and not reserved, or RESIDENT with nothing to deliver. -/
def State.slotReserved (s : State) (b j : Nat) : Prop := j < 256 ∧ (s.slot j).state = .free ∧ (s.slot j).reservedFor = some b
def State.slotUnreserved (s : State) (j : Nat) : Prop := j < 256 ∧ (s.slot j).state = .free ∧ (s.slot j).reservedFor = none
def State.slotIdle (s : State) (j : Nat) : Prop := (s.slot j).state = .resident ∧ (s.slot j).deliveries = 0

theorem find?_range_lowest {n : Nat} {p : Nat → Bool} {P : Nat → Prop} (h : ∀ j, P j ↔ j < n ∧ p j = true) :
    (∀ k, (List.range n).find? p = some k ↔ P k ∧ ∀ j, j < k → ¬P j) ∧ ((List.range n).find? p = none ↔ ∀ j, ¬P j) := by
  refine ⟨fun k => ?_, ?_⟩
  · rw [List.find?_range_eq_some, List.mem_range, h]
    constructor
    · rintro ⟨pk, bound, low⟩
      exact ⟨⟨bound, pk⟩, fun j lt hj => by have := low j lt; rw [((h j).1 hj).2] at this; cases this⟩
    · rintro ⟨⟨bound, pk⟩, low⟩
      exact ⟨pk, bound, fun j lt => by rw [Bool.not_eq_true', ← Bool.not_eq_true]; exact fun pj => low j lt ((h j).2 ⟨Nat.lt_trans lt bound, pj⟩)⟩
  · rw [List.find?_range_eq_none]
    constructor
    · exact fun none j hj => by have := none j ((h j).1 hj).1; rw [((h j).1 hj).2] at this; cases this
    · exact fun none j bound => by rw [Bool.not_eq_true', ← Bool.not_eq_true]; exact fun pj => none j ((h j).2 ⟨bound, pj⟩)

theorem State.allocate_eq_some : s.allocate b = some k ↔
    (s.slotReserved b k ∧ ∀ j, j < k → ¬s.slotReserved b j)
    ∨ ((∀ j, ¬s.slotReserved b j) ∧ s.slotUnreserved k ∧ ∀ j, j < k → ¬s.slotUnreserved j)
    ∨ ((∀ j, ¬s.slotReserved b j) ∧ (∀ j, ¬s.slotUnreserved j) ∧ s.slotIdle k
        ∧ ∃ older newer, s.staging.residency = older ++ k :: newer ∧ ∀ j ∈ older, ¬s.slotIdle j) := by
  obtain ⟨reserved, unmarked⟩ := find?_range_lowest (n := 256) (P := s.slotReserved b)
    (p := fun k => (s.slot k).state == .free && (s.slot k).reservedFor == some b) (fun j => by simp [State.slotReserved])
  obtain ⟨unreserved, taken⟩ := find?_range_lowest (n := 256) (P := s.slotUnreserved)
    (p := fun k => (s.slot k).state == .free && (s.slot k).reservedFor.isNone) (fun j => by simp [State.slotUnreserved])
  have idle : s.staging.residency.find? (fun k => (s.slot k).state == .resident && (s.slot k).deliveries == 0) = some k ↔
      s.slotIdle k ∧ ∃ older newer, s.staging.residency = older ++ k :: newer ∧ ∀ j ∈ older, ¬s.slotIdle j := by
    rw [List.find?_eq_some_iff_append]
    simp only [State.slotIdle, Bool.and_eq_true, beq_iff_eq, Bool.not_eq_true', ← Bool.not_eq_true]
  rw [State.allocate_eq, Option.or_eq_some_iff, Option.or_eq_some_iff, reserved, unreserved, unmarked, taken, idle, and_or_left]

/-! ### What steps 1 and 2 of R71 leave -/

theorem State.giveSlot_slot (s : State) (k c : Nat) (x : Transfer) (j : Nat) : (s.giveSlot k c x).slot j = if j = k then
    { Slot.free with state := if x.kind.isRead then .filling else .draining, place := some { bay := x.bay, first := x.first, count := x.count },
                     lead := some c, phase := if x.kind.isRead then none else some .fetch } else s.slot j := State.slot_setSlot ..

theorem State.giveBoth_tagHolder (s : State) (c i k : Nat) (x : Transfer) (d j : Nat) :
    (s.giveBoth c i k x).tagHolder d j = if d = x.bay ∧ j = i then some c else s.tagHolder d j := by
  rw [State.giveBoth, (State.giveSlot_touches ..).tagHolder, State.tagHolder_setTag]

theorem State.giveBoth_slot_other (s : State) (c i : Nat) {k j : Nat} (x : Transfer) (ne : j ≠ k) : (s.giveBoth c i k x).slot j = s.slot j := by
  rw [State.giveBoth, State.giveSlot_slot, if_neg ne, (show Touches [.arbiters] s (s.setTag x.bay i (some c)) from State.setTag_touches ..).slot]

theorem State.giveBoth_slot (s : State) (c i k : Nat) (x : Transfer) : (s.giveBoth c i k x).slot k =
    { Slot.free with state := if x.kind.isRead then .filling else .draining, place := some { bay := x.bay, first := x.first, count := x.count },
                     lead := some c, phase := if x.kind.isRead then none else some .fetch } := by
  rw [State.giveBoth, State.giveSlot_slot, if_pos rfl]

/-- The tag of the order that was just given tag i: i, or a lower one that named its cell before. -/
theorem State.giveBoth_tagOf (s : State) (c k : Nat) (x : Transfer) (bound : i < 4) : ∃ n, (s.giveBoth c i k x).tagOf x.bay c = some n
    ∧ ((∀ j, s.tagHolder x.bay j ≠ some c) → n = i) := by
  cases own : (s.giveBoth c i k x).tagOf x.bay c with
  | none =>
    refine absurd ?_ (State.tagOf_eq_none.1 own i bound)
    rw [State.giveBoth_tagHolder, if_pos ⟨rfl, rfl⟩]
  | some n =>
    refine ⟨n, rfl, fun fresh => ?_⟩
    obtain ⟨-, held, -⟩ := State.tagOf_eq_some.1 own
    by_contra ne
    rw [State.giveBoth_tagHolder, if_neg fun h => ne h.2] at held
    exact fresh n held

end

/-! ## V, H and the rebase (R64, R65) -/

section
variable {s : State} {b c g h : Nat}

theorem State.rebase_fold_touches (s : State) (b : Nat) (gs : List Nat) :
    Touches [.fifos] s (gs.foldl (fun s g => s.setFifo b g (s.fifo b g).rebase) s) :=
  Touches.foldl (fun u g => State.setFifo_touches u b g _) (Touches.refl ..)

theorem State.rebase_arbiter (s : State) (b c : Nat) : (s.rebase b).arbiter c =
    if c = b ∧ 2147483648 ≤ (s.arbiter b).v then { s.arbiter b with v := (s.arbiter b).v - 1073741824 } else s.arbiter c := by
  unfold State.rebase
  split
  · next high =>
    rw [(State.rebase_fold_touches ..).arbiter, State.arbiter_setArbiter]
    by_cases e : c = b
    · rw [if_pos e, if_pos ⟨e, high⟩]; rfl
    · rw [if_neg e, if_neg fun h => e h.1]
  · next low => rw [if_neg fun h => low h.2]

theorem State.rebase_fifo (s : State) (b : Nat) (bound : h < 16) : (s.rebase b).fifo b h =
    if 2147483648 ≤ (s.arbiter b).v then (s.fifo b h).rebase else s.fifo b h := by
  unfold State.rebase
  split
  · next high =>
    have each := foldl_entry (get := fun u h => State.fifo u b h) (f := fun s g => s.setFifo b g (s.fifo b g).rebase) (g := Fifo.rebase)
      (fun u g h => by rw [State.fifo_setFifo]; simp only [fifoNumber, Nat.add_left_cancel_iff]) allGroups List.nodup_range
      (s.setArbiter b { s.arbiter b with v := rebased (s.arbiter b).v }) h
    rw [each, if_pos (show h ∈ allGroups from List.mem_range.2 bound)]
    exact congrArg Fifo.rebase ((State.setArbiter_touches ..).fifo b h)
  · rfl

theorem State.rebase_fifo_other (s : State) (ne : c ≠ b) (bound : h < 16) : (s.rebase b).fifo c h = s.fifo c h := by
  have each : ∀ (gs : List Nat) (u : State), (∀ g ∈ gs, g < 16) →
      (gs.foldl (fun s g => s.setFifo b g (s.fifo b g).rebase) u).fifo c h = u.fifo c h := by
    intro gs
    induction gs with
    | nil => exact fun _ _ => rfl
    | cons g gs ih =>
      intro u groups
      rw [List.foldl_cons, ih _ (fun g hg => groups g (List.mem_cons_of_mem _ hg)), State.fifo_setFifo, if_neg]
      exact fun e => ne ((fifoNumber_inj _ _ _ _ (groups g List.mem_cons_self) bound).1 e).1
  unfold State.rebase
  split
  · rw [each allGroups _ fun g hg => List.mem_range.1 hg, (State.setArbiter_touches ..).fifo]
  · rfl

theorem State.rebase_tagHolder (s : State) (b c j : Nat) : (s.rebase b).tagHolder c j = s.tagHolder c j := by
  simp only [State.tagHolder, State.rebase_arbiter]
  split
  · next e => rw [e.1]
  · rfl

end

end Sys2Proof.Machine
end

section
namespace Sys2Proof.Machine

set_option Elab.async false

/-! ## The FIFO moves on (R58, R71 step 6) -/

section
variable {s t u : State} {b c g h j k first count : Nat} {v w z : Slot} {x : Transfer} {left rest : List Nat}

theorem Slot.joined_refl (v : Slot) : v.joined v := ⟨[], 0, by rw [List.append_nil]; rfl⟩

theorem Slot.joined.trans (a : v.joined w) (b : w.joined z) : v.joined z := by
  obtain ⟨more, n, rfl⟩ := a
  obtain ⟨others, m, rfl⟩ := b
  exact ⟨more ++ others, n + m, by rw [List.append_assoc, Nat.add_assoc]⟩

theorem Slot.joinedBy_joined (v : Slot) (c : Nat) : v.joined (v.joinedBy c) := by
  unfold Slot.joinedBy
  split
  · exact ⟨[], 1, by rw [List.append_nil]⟩
  · exact ⟨[c], 0, rfl⟩

theorem Slot.joined.state (h : v.joined w) : w.state = v.state := by obtain ⟨more, n, rfl⟩ := h; rfl
theorem Slot.joined.place (h : v.joined w) : w.place = v.place := by obtain ⟨more, n, rfl⟩ := h; rfl
theorem Slot.joined.lead (h : v.joined w) : w.lead = v.lead := by obtain ⟨more, n, rfl⟩ := h; rfl
theorem Slot.joined.joiners (h : v.joined w) : v.joiners ⊆ w.joiners := by
  obtain ⟨more, n, rfl⟩ := h
  exact List.subset_append_left ..

/-- Order q was taken by a slot: it joined a FILLING slot, or its delivery was started. -/
def State.joinedOrder (t : State) (q : Nat) : Prop :=
  (∃ j, (t.slot j).state = .filling ∧ q ∈ (t.slot j).joiners) ∨ ∃ it ∈ t.engine.items, it.cell = q ∧ it.fetch = false

/-- The orders that left the FIFO of group g on bay b as it moved on from s to t joined slots, and left no other trace. -/
structure State.movedOn (s t : State) (b g : Nat) (left : List Nat) : Prop where
  slots : ∀ j, (s.slot j).joined (t.slot j)
  items : ∃ joins : List Item, (∀ it ∈ joins, it.fetch = false) ∧ t.engine.items = s.engine.items ++ joins
  orders : (s.fifo b g).orders = left ++ (t.fifo b g).orders
  taken : ∀ q ∈ left, t.joinedOrder q
  meters : ∀ h, (t.meter h).reads = (s.meter h).reads ∧ (t.meter h).writes = (s.meter h).writes ∧ (t.meter h).capped = (s.meter h).capped

theorem State.joinedOrder.mono {q : Nat} (slots : ∀ j, (s.slot j).joined (t.slot j)) (items : s.engine.items ⊆ t.engine.items)
    (h : s.joinedOrder q) : t.joinedOrder q := by
  rcases h with ⟨j, st, mem⟩ | ⟨it, mem, own⟩
  · exact .inl ⟨j, (slots j).state.trans st, (slots j).joiners mem⟩
  · exact .inr ⟨it, items mem, own⟩

theorem State.movedOn.trans {more : List Nat} (a : s.movedOn t b g left) (d : t.movedOn u b g more) : s.movedOn u b g (left ++ more) := by
  obtain ⟨joins, fetches, items⟩ := a.items
  obtain ⟨others, also, after⟩ := d.items
  refine ⟨fun j => (a.slots j).trans (d.slots j), ⟨joins ++ others, ?_, by rw [after, items, List.append_assoc]⟩,
    by rw [a.orders, d.orders, List.append_assoc], ?_, fun h => ?_⟩
  · exact fun it mem => (List.mem_append.1 mem).elim (fetches it) (also it)
  · exact fun q mem => (List.mem_append.1 mem).elim
      (fun mem => (a.taken q mem).mono d.slots (by rw [after]; exact List.subset_append_left ..)) (d.taken q)
  · obtain ⟨r, w, c⟩ := a.meters h
    obtain ⟨r', w', c'⟩ := d.meters h
    exact ⟨r'.trans r, w'.trans w, c'.trans c⟩

theorem State.movedOn_fifos (h : Touches [.fifos] s t) (same : (t.fifo b g).orders = (s.fifo b g).orders) : s.movedOn t b g [] :=
  ⟨fun j => by rw [h.slot]; exact Slot.joined_refl _, ⟨[], by simp, by rw [h.same .engine (by decide), List.append_nil]⟩, same.symm,
    by simp, fun n => by rw [h.meter]; exact ⟨rfl, rfl, rfl⟩⟩

theorem State.joinSlot_taken (s : State) (k c : Nat) (x : Transfer) (st : (s.slot k).state = .resident ∨ (s.slot k).state = .filling) :
    (s.joinSlot k c x).joinedOrder c := by
  rcases st with st | st
  · refine .inr ⟨{ cell := c, slot := k, fetch := false, led := false, channel := none }, ?_, rfl, rfl⟩
    rw [State.joinSlot_resident st, (State.meterStaged_touches ..).same .engine (by decide)]
    exact List.mem_append_right _ List.mem_cons_self
  · have quiet : (s.slot k).state ≠ .resident := by rw [st]; decide
    refine .inl ⟨k, ?_, ?_⟩ <;> rw [State.joinSlot_slot, if_pos rfl, Slot.joinedBy, if_neg quiet]
    · exact st
    · exact List.mem_append_right _ List.mem_cons_self

/-- One head of the FIFO joins a slot and leaves. -/
theorem State.movedOn_join (own : (s.fifo b g).orders = c :: rest)
    (st : (s.slot k).state = .resident ∨ (s.slot k).state = .filling) :
    s.movedOn ((s.setOrders b g rest).joinSlot k c x) b g [c] := by
  have put : Touches [.fifos] s (s.setOrders b g rest) := State.setFifo_touches ..
  have join := State.joinSlot_touches (s.setOrders b g rest) k c x
  have st' : ((s.setOrders b g rest).slot k).state = .resident ∨ ((s.setOrders b g rest).slot k).state = .filling := by rwa [put.slot]
  have orders : (((s.setOrders b g rest).joinSlot k c x).fifo b g).orders = rest := by
    rw [join.fifo, State.setOrders, State.fifo_setFifo_self]
  refine ⟨fun j => ?_, ?_, by rw [own, orders]; rfl, ?_, fun h => ?_⟩
  · rw [State.joinSlot_slot, put.slot, put.slot]
    split
    · next e => subst e; exact Slot.joinedBy_joined ..
    · exact Slot.joined_refl _
  · rw [← put.same .engine (by decide)]
    rcases st' with st | st
    · refine ⟨[{ cell := c, slot := k, fetch := false, led := false, channel := none }], by simp, ?_⟩
      rw [State.joinSlot_resident st, (State.meterStaged_touches ..).same .engine (by decide)]
      rfl
    · refine ⟨[], by simp, ?_⟩
      rw [State.joinSlot_filling (by rw [st]; decide), List.append_nil]
      rfl
  · intro q mem
    rw [List.mem_singleton.1 mem]
    exact State.joinSlot_taken _ _ _ _ st'
  · rw [← put.meter]
    rcases st' with st | st
    · rw [State.joinSlot_resident st, State.meterStaged_meter]
      split
      · next e => subst e; exact ⟨rfl, rfl, rfl⟩
      · exact ⟨rfl, rfl, rfl⟩
    · rw [State.joinSlot_filling (by rw [st]; decide)]
      exact ⟨rfl, rfl, rfl⟩

/-! ### How a new head settles -/

/-- The slot that the head in cell c joins, if it is a read. -/
def State.headJoins (s : State) (b : Nat) (x : Transfer) : Option Nat := if x.kind.isRead then s.candidate b x.first x.count else none

/-- The head of a FIFO after its cost and, in an open group, its tags (R58, R62, R63). -/
def State.costHead (s : State) (b g : Nat) (x : Transfer) : State :=
  (s.setFifo b g { s.fifo b g with cost := some (costOf (s.arbiter b) x.first x.count) }).tagHead b g

theorem State.settleHead_empty (fuel : Nat) (own : (s.fifo b g).orders = []) : s.settleHead fuel b g = s := by
  cases fuel with
  | zero => rfl
  | succ n => simp only [State.settleHead, own]

theorem State.settleHead_unmade (fuel : Nat) (own : (s.fifo b g).orders = c :: rest) (none : s.transfer? c = none) :
    s.settleHead fuel b g = s := by
  cases fuel with
  | zero => rfl
  | succ n => simp only [State.settleHead, own, none]

theorem State.settleHead_joins (fuel : Nat) (own : (s.fifo b g).orders = c :: rest) (made : s.transfer? c = some x)
    (joins : s.headJoins b x = some k) : s.settleHead (fuel + 1) b g = ((s.setOrders b g rest).joinSlot k c x).settleHead fuel b g := by
  unfold State.headJoins at joins
  simp only [State.settleHead, own, made, joins]

theorem State.settleHead_stays (fuel : Nat) (own : (s.fifo b g).orders = c :: rest) (made : s.transfer? c = some x)
    (stays : s.headJoins b x = none) : s.settleHead (fuel + 1) b g = s.costHead b g x := by
  unfold State.headJoins at stays
  simp only [State.settleHead, own, made, stays, State.costHead]

theorem State.headJoins_eq_some (h : s.headJoins b x = some k) :
    (s.slot k).state = .resident ∨ (s.slot k).state = .filling := by
  unfold State.headJoins at h
  split at h
  · obtain ⟨-, ⟨p, -, -, -, -, ⟨st, -⟩ | ⟨st, -⟩⟩, -⟩ := State.candidate_eq_some.1 h
    · exact .inl st
    · exact .inr st
  · cases h

theorem State.costHead_touches (s : State) (b g : Nat) (x : Transfer) : Touches [.fifos] s (s.costHead b g x) :=
  (State.tagHead_touches ..).after rfl (State.setFifo_touches ..)

theorem State.costHead_orders (s : State) (b g : Nat) (x : Transfer) : ((s.costHead b g x).fifo b g).orders = (s.fifo b g).orders := by
  rw [State.costHead, State.tagHead_orders, State.fifo_setFifo_self]

theorem State.settleHead_movedOn (fuel : Nat) (s : State) (b g : Nat) : ∃ left, s.movedOn (s.settleHead fuel b g) b g left := by
  induction fuel generalizing s with
  | zero => exact ⟨[], State.movedOn_fifos (Touches.refl ..) rfl⟩
  | succ n ih =>
    cases own : (s.fifo b g).orders with
    | nil => rw [State.settleHead_empty _ own]; exact ⟨[], State.movedOn_fifos (Touches.refl ..) rfl⟩
    | cons c rest =>
      cases made : s.transfer? c with
      | none => rw [State.settleHead_unmade _ own made]; exact ⟨[], State.movedOn_fifos (Touches.refl ..) rfl⟩
      | some x =>
        cases joins : s.headJoins b x with
        | none =>
          rw [State.settleHead_stays n own made joins]
          exact ⟨[], State.movedOn_fifos (State.costHead_touches ..) (State.costHead_orders ..)⟩
        | some k =>
          rw [State.settleHead_joins n own made joins]
          obtain ⟨left, moved⟩ := ih ((s.setOrders b g rest).joinSlot k c x)
          exact ⟨c :: left, (State.movedOn_join own (State.headJoins_eq_some joins)).trans moved⟩

end

end Sys2Proof.Machine
end

section
namespace Sys2Proof.Machine

set_option Elab.async false

/-! ## The new head, its cost and its tags (R58, R62, R63) -/

section
variable {s t : State} {b c g h j k q : Nat} {x y : Transfer} {p r : Place} {rest : List Nat} {ps : List Part}

theorem Touches.group (h : Touches ps s t) (g : Nat) (w : Part.groups ∉ ps := by decide) : t.group g = s.group g := by
  have : t.shares.groups = s.shares.groups := h.same .groups w
  simp only [State.group, this]

/-- A FIFO whose head has its cost and tags. -/
def Fifo.headed (orders : List Nat) (cost weight last v : Nat) : Fifo :=
  { orders := orders, cost := some cost, tags := some (tagsFor cost weight last v), lastFinish := (tagsFor cost weight last v).finish }

theorem State.costHead_fifo (opened : 1 ≤ (s.group g).weight) (untagged : (s.fifo b g).tags = none) : (s.costHead b g x).fifo b g =
    Fifo.headed (s.fifo b g).orders (costOf (s.arbiter b) x.first x.count) (s.group g).weight (s.fifo b g).lastFinish (s.arbiter b).v := by
  have group (q : Fifo) : (s.setFifo b g q).group g = s.group g := (State.setFifo_touches ..).group g
  have arbiter (q : Fifo) : (s.setFifo b g q).arbiter b = s.arbiter b := (State.setFifo_touches ..).arbiter b
  unfold State.costHead State.tagHead
  simp only [State.fifo_setFifo_self, untagged, group, arbiter, if_pos opened, Fifo.headed]

/-- What a head settles in: an empty FIFO or a head without cost and tags, in an open group. -/
def State.headSettles (s : State) (b g : Nat) : Prop := (s.fifo b g).tags = none ∧ 1 ≤ (s.group g).weight

/-- The head at which a FIFO comes to rest is costed and tagged; the joins before it change neither F nor V and H. -/
theorem State.settleHead_headed (fuel : Nat) (s : State) (ready : s.headSettles b g) (bound : (s.fifo b g).orders.length ≤ fuel)
    (head : ((s.settleHead fuel b g).fifo b g).orders.head? = some q) (made : s.transfer? q = some y) :
    (s.settleHead fuel b g).fifo b g = Fifo.headed ((s.settleHead fuel b g).fifo b g).orders
      (costOf (s.arbiter b) y.first y.count) (s.group g).weight (s.fifo b g).lastFinish (s.arbiter b).v := by
  obtain ⟨untagged, opened⟩ := ready
  induction fuel generalizing s with
  | zero =>
    rw [State.settleHead_empty _ (List.length_eq_zero_iff.1 (Nat.le_zero.1 bound)), List.length_eq_zero_iff.1 (Nat.le_zero.1 bound)] at head
    cases head
  | succ n ih =>
    cases own : (s.fifo b g).orders with
    | nil => rw [State.settleHead_empty _ own, own] at head; cases head
    | cons c rest =>
      have unjoined : s.transfer? c = none → False := fun absent => by
        rw [State.settleHead_unmade _ own absent, own] at head
        cases head
        rw [absent] at made
        cases made
      cases own' : s.transfer? c with
      | none => exact (unjoined own').elim
      | some x =>
        cases joins : s.headJoins b x with
        | none =>
          rw [State.settleHead_stays n own own' joins, State.costHead_orders, own] at head
          cases head
          rw [own'] at made
          cases made
          rw [State.settleHead_stays n own own' joins, State.costHead_fifo opened untagged]
          rfl
        | some k =>
          rw [State.settleHead_joins n own own' joins] at head ⊢
          have put : Touches [.fifos] s (s.setOrders b g rest) := State.setFifo_touches ..
          have passed : Touches [.fifos, .staging, .engine, .meters] s ((s.setOrders b g rest).joinSlot k c x) :=
            (State.joinSlot_touches ..).after rfl (put.mono rfl)
          have fifo : ((s.setOrders b g rest).joinSlot k c x).fifo b g = { s.fifo b g with orders := rest, cost := none, tags := none } := by
            rw [(State.joinSlot_touches ..).fifo, State.setOrders, State.fifo_setFifo_self]
          have next := ih ((s.setOrders b g rest).joinSlot k c x) (by rw [fifo]; rw [own] at bound; exact Nat.le_of_succ_le_succ bound)
            head (by rw [passed.transfer, made]) (by rw [fifo]) (by rw [passed.group]; exact opened)
          rwa [passed.arbiter, passed.group, fifo] at next

/-- A head that joins no slot stays. -/
theorem State.settleHead_first (fuel : Nat) (head : (s.fifo b g).orders.head? = some q) (made : s.transfer? q = some y)
    (stays : s.headJoins b y = none) : ((s.settleHead fuel b g).fifo b g).orders = (s.fifo b g).orders := by
  cases own : (s.fifo b g).orders with
  | nil => rw [own] at head; cases head
  | cons c rest =>
    rw [own] at head
    cases head
    cases fuel with
    | zero => exact own
    | succ n => rw [State.settleHead_stays n own made stays, State.costHead_orders, own]

/-! ### RESIDENT slots that the write of the dispatch outdates -/

theorem overlaps_comm (a m e n : Nat) : overlaps a m e n = overlaps e n a m := by
  unfold overlaps
  rw [Bool.and_comm]

/-- Slot k drains a write of bay b over blocks of the RESIDENT slot j. -/
def State.outdates (s : State) (b k j : Nat) : Prop :=
  (s.slot k).state = .draining ∧ (s.slot j).state = .resident
    ∧ ∃ p r, (s.slot k).place = some p ∧ (s.slot j).place = some r ∧ p.bay = b ∧ r.bay = b ∧ overlaps p.first p.count r.first r.count = true

theorem State.outdates.unjoined (late : s.outdates b k j) (joins : s.headJoins b x = some h) : j ≠ h := by
  obtain ⟨drains, resident, p, r, mine, yours, rfl, bay, meets⟩ := late
  rintro rfl
  unfold State.headJoins at joins
  split at joins
  · obtain ⟨-, ⟨r', place, -, -, -, ⟨-, current⟩ | ⟨fills, -⟩⟩, -⟩ := State.candidate_eq_some.1 joins
    · rw [yours] at place
      cases place
      have inTable := Table.mem_of_get_ne (d := Slot.free) (t := s.staging.slots) (n := k) fun e => by
        rw [show s.slot k = Slot.free from e] at drains; cases drains
      have apart := current _ inTable drains
      rw [show Table.get Slot.free s.staging.slots k = s.slot k from rfl] at apart
      simp [Slot.overlapsOn, mine, meets] at apart
    · rw [resident] at fills; cases fills
  · cases joins

theorem State.settleHead_outdated (fuel : Nat) (s : State) (late : s.outdates b k j) : (s.settleHead fuel b g).slot j = s.slot j := by
  induction fuel generalizing s with
  | zero => rfl
  | succ n ih =>
    cases own : (s.fifo b g).orders with
    | nil => rw [State.settleHead_empty _ own]
    | cons c rest =>
      cases made : s.transfer? c with
      | none => rw [State.settleHead_unmade _ own made]
      | some x =>
        cases joins : s.headJoins b x with
        | none => rw [State.settleHead_stays n own made joins, (State.costHead_touches ..).slot]
        | some i =>
          have put : Touches [.fifos] s (s.setOrders b g rest) := State.setFifo_touches ..
          have slot : ((s.setOrders b g rest).joinSlot i c x).slot j = s.slot j := by
            rw [State.joinSlot_slot, if_neg (late.unjoined joins), put.slot]
          have drain := (State.movedOn_join (x := x) own (State.headJoins_eq_some joins)).slots k
          obtain ⟨drains, resident, p, r, mine, yours, same, bay, meets⟩ := late
          rw [State.settleHead_joins n own made joins, ih, slot]
          exact ⟨drain.state.trans drains, by rw [slot, resident], p, r, drain.place.trans mine, by rw [slot, yours], same, bay, meets⟩

end

/-! ## The steps of R71 between the slot and the new head -/

section
variable {s : State} {b c d g h : Nat} {x : Transfer}

/-- Steps 3 and 4 of R71: the order leaves its FIFO, V and H move, and the tags are rebased if they must be. -/
def State.vacated (s : State) (g : Nat) (x : Transfer) (start : Nat) : State :=
  let s := s.setOrders x.bay g ((s.fifo x.bay g).orders.drop 1)
  (s.setArbiter x.bay ((s.arbiter x.bay).advance start x.first x.count)).rebase x.bay

/-- Step 5 of R71: the blocks are metered and the cap is applied. -/
def State.charged (s : State) (g : Nat) (x : Transfer) : State := (s.meterDisk g x.kind.isRead x.count).applyCap g

theorem State.leaveFifo_eq (s : State) (g : Nat) (x : Transfer) (start : Nat) :
    s.leaveFifo g x start = ((s.vacated g x start).charged g x).becomeHead x.bay g := rfl

theorem State.vacated_touches (s : State) (g : Nat) (x : Transfer) (start : Nat) :
    Touches [.fifos, .arbiters] s (s.vacated g x start) := by
  unfold State.vacated
  exact (State.rebase_touches ..).after rfl ((State.setArbiter_touches ..).after rfl ((State.setFifo_touches ..).mono rfl))

theorem State.charged_touches (s : State) (g : Nat) (x : Transfer) : Touches [.groups, .meters] s (s.charged g x) :=
  (State.applyCap_touches ..).after rfl ((State.meterDisk_touches ..).mono rfl)

theorem State.vacated_arbiter (s : State) (g : Nat) (x : Transfer) (start d : Nat) : (s.vacated g x start).arbiter d =
    if d = x.bay then { s.arbiter x.bay with
        v := if 2147483648 ≤ max (s.arbiter x.bay).v start then max (s.arbiter x.bay).v start - 1073741824
          else max (s.arbiter x.bay).v start,
        h := min 4294967295 (x.first + x.count) }
    else s.arbiter d := by
  have put (orders : List Nat) : Touches [.fifos] s (s.setOrders x.bay g orders) := State.setFifo_touches ..
  unfold State.vacated
  dsimp only
  rw [State.rebase_arbiter, State.arbiter_setArbiter, State.arbiter_setArbiter, if_pos rfl, (put _).arbiter, (put _).arbiter]
  by_cases e : d = x.bay
  · subst e
    simp only [true_and, if_true, Arbiter.advance, Config.maxBlock]
    split
    · rfl
    · rfl
  · rw [if_neg fun h => e h.1, if_neg e, if_neg e]

theorem State.vacated_tagHolder (s : State) (g : Nat) (x : Transfer) (start d j : Nat) :
    (s.vacated g x start).tagHolder d j = s.tagHolder d j := by
  simp only [State.tagHolder, State.vacated_arbiter]
  split
  · next e => rw [e]
  · rfl

theorem State.vacated_fifo (s : State) (g : Nat) (x : Transfer) (start : Nat) (bound : h < 16) :
    (s.vacated g x start).fifo x.bay h =
      (let q := if h = g then { s.fifo x.bay g with orders := (s.fifo x.bay g).orders.drop 1, cost := none, tags := none } else s.fifo x.bay h
       if 2147483648 ≤ max (s.arbiter x.bay).v start then q.rebase else q) := by
  have put (orders : List Nat) : Touches [.fifos] s (s.setOrders x.bay g orders) := State.setFifo_touches ..
  unfold State.vacated
  dsimp only
  rw [State.rebase_fifo _ _ bound, State.arbiter_setArbiter, if_pos rfl, (State.setArbiter_touches ..).fifo, (put _).arbiter,
    State.setOrders, State.fifo_setFifo]
  simp only [fifoNumber, Nat.add_left_cancel_iff, Arbiter.advance]

theorem State.vacated_fifo_other (s : State) (g : Nat) (x : Transfer) (start : Nat) (ne : d ≠ x.bay) (bound : h < 16) (low : g < 16) :
    (s.vacated g x start).fifo d h = s.fifo d h := by
  unfold State.vacated
  dsimp only
  rw [State.rebase_fifo_other _ ne bound, (State.setArbiter_touches ..).fifo, State.setOrders, State.fifo_setFifo, if_neg]
  exact fun e => ne ((fifoNumber_inj _ _ _ _ low bound).1 e).1

/-! ### Meters and caps -/

/-- The blocks of a dispatch in a group's record. -/
def GroupMeter.dispatched (m : GroupMeter) (x : Transfer) : GroupMeter :=
  if x.kind.isRead then { m with reads := m.reads.add x.count } else { m with writes := m.writes.add x.count }

theorem State.meterDisk_meter (s : State) (g : Nat) (x : Transfer) :
    (s.meterDisk g x.kind.isRead x.count).meter g = (s.meter g).dispatched x := by
  unfold State.meterDisk GroupMeter.dispatched
  split <;> rw [State.meter_setMeter, if_pos rfl]

/-- Group g is at or above its cap, as the meter record m counts. -/
def State.reachesCap (s : State) (g : Nat) (m : GroupMeter) : Prop :=
  1 ≤ (s.group g).cap ∧ (s.group g).cap ≤ m.reads.current + m.writes.current

theorem State.charged_capped (reached : s.reachesCap g ((s.meter g).dispatched x)) :
    (s.charged g x).group g = { s.group g with capReached := true }
      ∧ (s.charged g x).meter g = { (s.meter g).dispatched x with capped := true } := by
  obtain ⟨inForce, above⟩ := reached
  have blocks : (s.meterDisk g x.kind.isRead x.count).diskBlocks g =
      ((s.meter g).dispatched x).reads.current + ((s.meter g).dispatched x).writes.current := by rw [State.diskBlocks, State.meterDisk_meter]
  unfold State.charged State.applyCap
  rw [(State.meterDisk_touches ..).group, blocks, if_pos (by simp [inForce, above])]
  constructor
  · rw [(State.setMeter_touches ..).group, State.group_setGroup, if_pos rfl]
  · rw [State.meter_setMeter, if_pos rfl, State.meterDisk_meter]

theorem State.charged_uncapped (reached : ¬s.reachesCap g ((s.meter g).dispatched x)) :
    (s.charged g x).group g = s.group g ∧ (s.charged g x).meter g = (s.meter g).dispatched x := by
  have blocks : (s.meterDisk g x.kind.isRead x.count).diskBlocks g =
      ((s.meter g).dispatched x).reads.current + ((s.meter g).dispatched x).writes.current := by rw [State.diskBlocks, State.meterDisk_meter]
  unfold State.reachesCap at reached
  unfold State.charged State.applyCap
  rw [(State.meterDisk_touches ..).group, blocks, if_neg (by simpa using reached)]
  exact ⟨(State.meterDisk_touches ..).group _, State.meterDisk_meter ..⟩

theorem State.charged_group_other (s : State) (x : Transfer) (ne : h ≠ g) : (s.charged g x).group h = s.group h := by
  unfold State.charged State.applyCap
  split
  · rw [(State.setMeter_touches ..).group, State.group_setGroup, if_neg ne, (State.meterDisk_touches ..).group]
  · exact (State.meterDisk_touches ..).group _

/-- A dispatch changes a group's cap-reached flag and nothing else of its record. -/
theorem State.charged_weight (s : State) (g : Nat) (x : Transfer) : ((s.charged g x).group g).weight = (s.group g).weight := by
  by_cases reached : s.reachesCap g ((s.meter g).dispatched x)
  · rw [(State.charged_capped reached).1]
  · rw [(State.charged_uncapped reached).1]

end

end Sys2Proof.Machine
end

section
namespace Sys2Proof.Machine

set_option Elab.async false

/-! ## The tables of the slots stay in order -/

section
variable {s : State} {b c g k : Nat} {x : Transfer}

theorem State.setSlot_ordered (h : Table.ordered s.staging.slots) (k : Nat) (v : Slot) : Table.ordered (s.setSlot k v).staging.slots :=
  Table.ordered_set h

theorem State.joinSlot_ordered (h : Table.ordered s.staging.slots) (k c : Nat) (x : Transfer) :
    Table.ordered (s.joinSlot k c x).staging.slots := by
  unfold State.joinSlot
  dsimp only
  split
  · rw [(State.meterStaged_touches ..).staging]
    exact State.setSlot_ordered h ..
  · exact State.setSlot_ordered h ..

theorem State.settleHead_ordered (fuel : Nat) (s : State) (h : Table.ordered s.staging.slots) :
    Table.ordered (s.settleHead fuel b g).staging.slots := by
  induction fuel generalizing s with
  | zero => exact h
  | succ n ih =>
    cases own : (s.fifo b g).orders with
    | nil => rwa [State.settleHead_empty _ own]
    | cons c rest =>
      cases made : s.transfer? c with
      | none => rwa [State.settleHead_unmade _ own made]
      | some x =>
        cases joins : s.headJoins b x with
        | none => rwa [State.settleHead_stays n own made joins, (State.costHead_touches ..).staging]
        | some i =>
          rw [State.settleHead_joins n own made joins]
          have put : Touches [.fifos] s (s.setOrders b g rest) := State.setFifo_touches ..
          exact ih _ (State.joinSlot_ordered (by rwa [put.staging]) ..)

theorem State.giveBoth_ordered (h : Table.ordered s.staging.slots) (c i k : Nat) (x : Transfer) :
    Table.ordered (s.giveBoth c i k x).staging.slots := State.setSlot_ordered (s := s.leaveResidency k) h ..

end

/-! ## The snoop (R92, R93) -/

section
variable {s : State} {b c j k w first count : Nat} {v : Slot} {ks : List Nat}

/-- What a snoop by the write in cell w leaves of a FILLING slot that overlaps it. -/
def Slot.invalidatedBy (v : Slot) (w : Nat) : Slot :=
  if v.staleRetry then v
  else if v.refetch then { v with blocking := v.blocking ++ [w] }
  else if v.refetchCount < Config.maxRefetches then { v with refetch := true, blocking := [w] }
  else { v with staleRetry := true, blocking := [] }

theorem Slot.invalidatedBy_stale (h : v.staleRetry = true) : v.invalidatedBy w = v := if_pos h
theorem Slot.invalidatedBy_again (h : v.staleRetry = false) (r : v.refetch = true) :
    v.invalidatedBy w = { v with blocking := v.blocking ++ [w] } := by simp [Slot.invalidatedBy, h, r]
theorem Slot.invalidatedBy_first (h : v.staleRetry = false) (r : v.refetch = false) (few : v.refetchCount < 4) :
    v.invalidatedBy w = { v with refetch := true, blocking := [w] } := by simp [Slot.invalidatedBy, h, r, few]
theorem Slot.invalidatedBy_last (h : v.staleRetry = false) (r : v.refetch = false) (many : 4 ≤ v.refetchCount) :
    v.invalidatedBy w = { v with staleRetry := true, blocking := [] } := by
  simp [Slot.invalidatedBy, h, r, Nat.not_lt.2 many]

theorem Slot.invalidatedBy_joiners (v : Slot) (w : Nat) : (v.invalidatedBy w).state = v.state ∧ (v.invalidatedBy w).joiners = v.joiners := by
  unfold Slot.invalidatedBy
  split
  · exact ⟨rfl, rfl⟩
  · split
    · exact ⟨rfl, rfl⟩
    · split <;> exact ⟨rfl, rfl⟩

/-- A snoop looks at the same fields of a slot whatever reads have joined it. -/
theorem Slot.joined.invalidatedBy {z : Slot} (h : v.joined z) (w : Nat) : (v.invalidatedBy w).joined (z.invalidatedBy w) := by
  obtain ⟨more, n, rfl⟩ := h
  refine ⟨more, n, ?_⟩
  unfold Slot.invalidatedBy
  dsimp only
  split
  · rfl
  · split
    · rfl
    · split <;> rfl

theorem State.invalidate_slot (s : State) (k w m : Nat) : (s.invalidate k w).slot m =
    if m = k then (s.slot k).invalidatedBy w else s.slot m := by
  have put (v : Slot) : (s.setSlot k v).slot m = if m = k then v else s.slot m := State.slot_setSlot ..
  unfold State.invalidate Slot.invalidatedBy
  dsimp only
  split
  · split
    · next e => rw [e]
    · rfl
  · split
    · exact put _
    · split <;> exact put _

theorem State.offerSlots_slot_other (s : State) (out : j ∉ ks) : (s.offerSlots ks).slot j = s.slot j := by
  unfold State.offerSlots
  induction ks generalizing s with
  | nil => rfl
  | cons k ks ih =>
    obtain ⟨ne, out⟩ := List.ne_and_not_mem_of_not_mem_cons out
    rw [List.foldl_cons, ih _ out, State.offerSlot_slot_other _ ne]

theorem State.offerSlots_slot_free (s : State) (ks : List Nat) (h : (s.slot j).state = .free) : ((s.offerSlots ks).slot j).state = .free := by
  unfold State.offerSlots
  induction ks generalizing s with
  | nil => exact h
  | cons k ks ih =>
    refine ih _ ?_
    by_cases e : j = k
    · subst e; exact State.offerSlot_slot_free h
    · rw [State.offerSlot_slot_other _ e, h]

theorem State.offerSlots_slot_unavailable (s : State) (ks : List Nat) (h : (s.slot j).available = false) :
    (s.offerSlots ks).slot j = s.slot j := by
  unfold State.offerSlots
  induction ks generalizing s with
  | nil => rfl
  | cons k ks ih =>
    have same : (s.offerSlot k).slot j = s.slot j := by
      by_cases e : j = k
      · subst e; exact State.offerSlot_slot_unavailable h
      · exact State.offerSlot_slot_other _ e
    rw [List.foldl_cons, ih _ (by rw [same, h]), same]

/-- What is left of a RESIDENT slot that is discarded. -/
def Slot.dropped (v : Slot) : Slot := if v.deliveries = 0 then .free else { v with state := .stale }

theorem Slot.dropped_again (v : Slot) : v.dropped.dropped = v.dropped := by
  by_cases idle : v.deliveries = 0
  · simp only [Slot.dropped, idle, if_true]; rfl
  · simp only [Slot.dropped, idle, if_false]

theorem State.dropResidents_slot (s : State) (ks : List Nat) (j : Nat) :
    (ks.foldl (fun s k => s.dropResident k) s).slot j = if j ∈ ks then (s.slot j).dropped else s.slot j :=
  foldl_entry_again (get := State.slot) (g := Slot.dropped) (fun u k m => u.dropResident_slot k m) Slot.dropped_again ks s j

theorem State.discardResident_slot_other (s : State) (out : j ∉ ks) : (s.discardResident ks).slot j = s.slot j := by
  rw [State.discardResident, State.offerSlots_slot_other _ out, State.dropResidents_slot, if_neg out]

theorem State.discardResident_slot_free (mem : j ∈ ks) (idle : (s.slot j).deliveries = 0) : ((s.discardResident ks).slot j).state = .free := by
  refine State.offerSlots_slot_free _ ks ?_
  rw [State.dropResidents_slot, if_pos mem, Slot.dropped, if_pos idle]
  rfl

theorem State.discardResident_slot_stale (mem : j ∈ ks) (busy : (s.slot j).deliveries ≠ 0) :
    (s.discardResident ks).slot j = { s.slot j with state := .stale } := by
  have drop : (ks.foldl (fun s k => s.dropResident k) s).slot j = { s.slot j with state := .stale } := by
    rw [State.dropResidents_slot, if_pos mem, Slot.dropped, if_neg busy]
  rw [State.discardResident, State.offerSlots_slot_unavailable _ ks (by rw [drop]; rfl), drop]

/-- The slots of a state other than k that a snoop finds in a write's range. -/
def State.snooped (s : State) (k b first count : Nat) (st : SlotState) : List Nat :=
  (s.slotsWhere (fun v => v.state == st && v.overlapsOn b first count)).filter (fun j => j != k)

theorem State.snoop_eq (s : State) (k w b first count : Nat) : s.snoop k w b first count =
    ((s.snooped k b first count .filling).foldl (fun s j => s.invalidate j w) s).discardResident (s.snooped k b first count .resident) := rfl

theorem State.mem_snooped {st : SlotState} : j ∈ s.snooped k b first count st ↔
    j ≠ k ∧ (s.slot j).state = st ∧ (s.slot j).overlapsOn b first count = true := by
  have free : (Slot.free.state == st && Slot.free.overlapsOn b first count) = false := Bool.and_false _
  rw [State.snooped, List.mem_filter, State.mem_slotsWhere free]
  simp only [Bool.and_eq_true, beq_iff_eq, bne_iff_ne, ne_eq]
  exact and_comm

theorem State.snooped_nodup (h : Table.ordered s.staging.slots) (k b first count : Nat) (st : SlotState) :
    (s.snooped k b first count st).Nodup := ((Table.keys_nodup h).filter _).filter _

theorem State.invalidates_slot_other (s : State) (w : Nat) (out : j ∉ ks) : (ks.foldl (fun s j => s.invalidate j w) s).slot j = s.slot j := by
  induction ks generalizing s with
  | nil => rfl
  | cons k ks ih =>
    obtain ⟨ne, out⟩ := List.ne_and_not_mem_of_not_mem_cons out
    rw [List.foldl_cons, ih _ out, State.invalidate_slot, if_neg ne]

theorem State.invalidates_slot (s : State) (w : Nat) (once : ks.Nodup) (mem : j ∈ ks) :
    (ks.foldl (fun s j => s.invalidate j w) s).slot j = (s.slot j).invalidatedBy w := by
  rw [foldl_entry (get := State.slot) (g := fun v => v.invalidatedBy w) (fun u k m => u.invalidate_slot k w m) ks once s j, if_pos mem]

theorem State.invalidates_joiners (s : State) (w : Nat) (ks : List Nat) (j : Nat) :
    ((ks.foldl (fun s j => s.invalidate j w) s).slot j).state = (s.slot j).state
      ∧ ((ks.foldl (fun s j => s.invalidate j w) s).slot j).joiners = (s.slot j).joiners := by
  induction ks generalizing s with
  | nil => exact ⟨rfl, rfl⟩
  | cons k ks ih =>
    obtain ⟨state, joiners⟩ := ih (s.invalidate k w)
    rw [List.foldl_cons, state, joiners, State.invalidate_slot]
    split
    · next e => rw [e]; exact Slot.invalidatedBy_joiners ..
    · exact ⟨rfl, rfl⟩

/-- A snoop leaves the slots outside the write's range, and those that are neither FILLING nor RESIDENT. -/
theorem State.snoop_slot_other (s : State) (w : Nat)
    (h : j = k ∨ (s.slot j).overlapsOn b first count = false ∨ (s.slot j).state ∉ [.filling, .resident]) :
    (s.snoop k w b first count).slot j = s.slot j := by
  have out : ∀ st ∈ [SlotState.filling, .resident], j ∉ s.snooped k b first count st := fun st mem hit => by
    obtain ⟨ne, own, range⟩ := State.mem_snooped.1 hit
    rcases h with rfl | apart | other
    · exact ne rfl
    · rw [range] at apart; cases apart
    · rw [own] at other; exact other mem
  rw [State.snoop_eq, State.discardResident_slot_other _ (out _ (by decide)), State.invalidates_slot_other _ _ (out _ (by decide))]

theorem State.snoop_filling (ordered : Table.ordered s.staging.slots) (ne : j ≠ k) (fills : (s.slot j).state = .filling)
    (hit : (s.slot j).overlapsOn b first count = true) (w : Nat) :
    (s.snoop k w b first count).slot j = (s.slot j).invalidatedBy w := by
  have out : j ∉ s.snooped k b first count .resident := fun mem => by
    have := (State.mem_snooped.1 mem).2.1
    rw [fills] at this; cases this
  rw [State.snoop_eq, State.discardResident_slot_other _ out,
    State.invalidates_slot _ _ (State.snooped_nodup ordered ..) (State.mem_snooped.2 ⟨ne, fills, hit⟩)]

/-- A snooped RESIDENT slot is FREE, or STALE while it is being delivered from. -/
theorem State.snoop_resident (ne : j ≠ k) (resident : (s.slot j).state = .resident) (hit : (s.slot j).overlapsOn b first count = true)
    (w : Nat) : ((s.slot j).deliveries = 0 → ((s.snoop k w b first count).slot j).state = .free)
      ∧ ((s.slot j).deliveries ≠ 0 → (s.snoop k w b first count).slot j = { s.slot j with state := .stale }) := by
  have mem : j ∈ s.snooped k b first count .resident := State.mem_snooped.2 ⟨ne, resident, hit⟩
  have same : ((s.snooped k b first count .filling).foldl (fun s j => s.invalidate j w) s).slot j = s.slot j := by
    refine State.invalidates_slot_other _ _ fun fill => ?_
    have := (State.mem_snooped.1 fill).2.1
    rw [resident] at this; cases this
  rw [State.snoop_eq]
  exact ⟨fun idle => State.discardResident_slot_free mem (by rw [same, idle]),
    fun busy => by rw [State.discardResident_slot_stale mem (by rwa [same]), same]⟩

/-- The joiners of a fill stay through a snoop. -/
theorem State.snoop_joiners (s : State) (k w b first count : Nat) (fills : (s.slot j).state = .filling) :
    ((s.snoop k w b first count).slot j).state = .filling ∧ ((s.snoop k w b first count).slot j).joiners = (s.slot j).joiners := by
  have out : j ∉ s.snooped k b first count .resident := fun mem => by
    have := (State.mem_snooped.1 mem).2.1
    rw [fills] at this; cases this
  obtain ⟨state, joiners⟩ := s.invalidates_joiners w (s.snooped k b first count .filling) j
  rw [State.snoop_eq, State.discardResident_slot_other _ out]
  exact ⟨state.trans fills, joiners⟩

end

end Sys2Proof.Machine
end

section
namespace Sys2Proof.Machine

set_option Elab.async false

/-! ## The arbiter's choice (R70) -/

section
variable {s : State} {b g c : Nat} {tags : Tags}

theorem betterHead_either (x y : Nat × Nat × Tags) : betterHead x y = x ∨ betterHead x y = y := by
  unfold betterHead
  split
  · exact .inr rfl
  · exact .inl rfl

/-- The choice is an eligible head of a group of the bay. -/
theorem State.choice_eligible (h : s.choice b = some (g, c, tags)) : g < 16 ∧ s.eligibleHead b g = some (c, tags) := by
  have chosen : ∀ (xs : List (Nat × Nat × Tags)) (best : Option (Nat × Nat × Tags)) (z : Nat × Nat × Tags),
      xs.foldl (fun best x => match best with
        | none => some x
        | some y => some (betterHead y x)) best = some z → best = some z ∨ z ∈ xs := by
    intro xs
    induction xs with
    | nil => exact fun best z h => .inl h
    | cons x xs ih =>
      intro best z h
      rcases ih _ z h with found | mem
      · cases best with
        | none => cases found; exact .inr List.mem_cons_self
        | some y =>
          cases found
          rcases betterHead_either y x with e | e <;> rw [e]
          · exact .inl rfl
          · exact .inr List.mem_cons_self
      · exact .inr (List.mem_cons_of_mem _ mem)
  rcases chosen _ _ _ h with none | mem
  · cases none
  · obtain ⟨n, group, own⟩ := List.mem_filterMap.1 mem
    obtain ⟨head, found, own⟩ := Option.map_eq_some_iff.1 own
    cases own
    exact ⟨List.mem_range.1 group, found⟩

/-- What an eligible head tells of its bay and group. -/
theorem State.eligibleHead_some (h : s.eligibleHead b g = some (c, tags)) :
    (s.lines b).ready = true ∧ 1 ≤ (s.group g).weight ∧ (s.fifo b g).orders = c :: (s.fifo b g).orders.drop 1 := by
  unfold State.eligibleHead at h
  split at h
  · next serves =>
    unfold State.readyHead at h
    dsimp only at h
    split at h
    · next c' rest tags' orders tagged =>
      split at h
      · cases h
      · split at h
        · next ready =>
          cases h
          simp only [Bool.and_eq_true, decide_eq_true_eq] at ready
          obtain ⟨⟨⟨⟨opened, -⟩, -⟩, -⟩, -⟩ := ready
          exact ⟨(Bool.and_eq_true_iff.1 serves).2, opened, by rw [orders]; rfl⟩
        · cases h
    · cases h
  · cases h

end

/-! ## A dispatch, stage by stage (R71) -/

section
variable {s t : State} {b g c i j k h d q : Nat} {x y : Transfer} {tags : Tags}

/-- A dispatch before its FIFO moves on: steps 1 to 5 of R71. -/
def State.assigned (s : State) (g c i k : Nat) (x : Transfer) (tags : Tags) : State :=
  ((s.giveBoth c i k x).vacated g x tags.start).charged g x

/-- A dispatch before its work begins, but for the request for a spin-up: steps 1 to 6 of R71. -/
def State.moved (s : State) (g c i k : Nat) (x : Transfer) (tags : Tags) : State :=
  (s.assigned g c i k x tags).settleHead ((s.assigned g c i k x tags).fifo x.bay g).orders.length x.bay g

theorem State.dispatchHead_eq (tag : s.freeTag x.bay = some i) (slot : s.allocate x.bay = some k) :
    s.dispatchHead g c tags x = (((s.moved g c i k x tags).requestSpinUp x.bay).beginWork c k x) := by
  simp only [State.dispatchHead, tag, slot, State.leaveFifo_eq, State.becomeHead, State.moved, State.assigned]

theorem State.assigned_from (s : State) (g c i k : Nat) (x : Transfer) (tags : Tags) :
    Touches [.fifos, .arbiters, .groups, .meters] (s.giveBoth c i k x) (s.assigned g c i k x tags) :=
  (State.charged_touches ..).after rfl ((State.vacated_touches ..).mono rfl)

theorem State.assigned_touches (s : State) (g c i k : Nat) (x : Transfer) (tags : Tags) :
    Touches [.staging, .fifos, .arbiters, .groups, .meters] s (s.assigned g c i k x tags) :=
  (s.assigned_from g c i k x tags).after rfl ((State.giveBoth_touches ..).mono rfl)

theorem State.moved_from (s : State) (g c i k : Nat) (x : Transfer) (tags : Tags) :
    Touches [.fifos, .staging, .engine, .meters] (s.assigned g c i k x tags) (s.moved g c i k x tags) := State.settleHead_touches ..

theorem State.moved_touches (s : State) (g c i k : Nat) (x : Transfer) (tags : Tags) :
    Touches [.fifos, .staging, .engine, .meters, .arbiters, .groups] s (s.moved g c i k x tags) :=
  (s.moved_from g c i k x tags).after rfl ((s.assigned_touches g c i k x tags).mono rfl)

/-- What the tag of a dispatch does not change: V, H and the FIFOs are those before step 1. -/
theorem State.giveBoth_arbiter (s : State) (c i k : Nat) (x : Transfer) (d : Nat) : (s.giveBoth c i k x).arbiter d =
    if d = x.bay then { s.arbiter x.bay with tags := Table.set none (s.arbiter x.bay).tags i (some c) } else s.arbiter d := by
  rw [State.giveBoth, (State.giveSlot_touches ..).arbiter, State.setTag, State.arbiter_setArbiter]

theorem State.assigned_arbiter (s : State) (g c i k : Nat) (x : Transfer) (tags : Tags) (d : Nat) :
    (s.assigned g c i k x tags).arbiter d = if d = x.bay then { s.arbiter x.bay with
        tags := Table.set none (s.arbiter x.bay).tags i (some c),
        v := if 2147483648 ≤ max (s.arbiter x.bay).v tags.start then max (s.arbiter x.bay).v tags.start - 1073741824
          else max (s.arbiter x.bay).v tags.start,
        h := min 4294967295 (x.first + x.count) }
    else s.arbiter d := by
  rw [State.assigned, (State.charged_touches ..).arbiter, State.vacated_arbiter, State.giveBoth_arbiter, State.giveBoth_arbiter, if_pos rfl]
  by_cases e : d = x.bay
  · rw [if_pos e, if_pos e]
  · rw [if_neg e, if_neg e, if_neg e]

theorem State.moved_arbiter (s : State) (g c i k : Nat) (x : Transfer) (tags : Tags) (d : Nat) :
    (s.moved g c i k x tags).arbiter d = (s.assigned g c i k x tags).arbiter d := (s.moved_from ..).arbiter d

theorem State.assigned_tagHolder (s : State) (g c i k : Nat) (x : Transfer) (tags : Tags) (d j : Nat) :
    (s.assigned g c i k x tags).tagHolder d j = (s.giveBoth c i k x).tagHolder d j := by
  rw [State.assigned, (State.charged_touches ..).tagHolder, State.vacated_tagHolder]

/-- The FIFO of the bay and a group after steps 1 to 5 of R71. -/
theorem State.assigned_fifo (s : State) (g c i k : Nat) (x : Transfer) (tags : Tags) (bound : h < 16) :
    (s.assigned g c i k x tags).fifo x.bay h =
      (let q := if h = g then { s.fifo x.bay g with orders := (s.fifo x.bay g).orders.drop 1, cost := none, tags := none } else s.fifo x.bay h
       if 2147483648 ≤ max (s.arbiter x.bay).v tags.start then q.rebase else q) := by
  rw [State.assigned, (State.charged_touches ..).fifo, State.vacated_fifo _ _ _ _ bound, State.giveBoth_arbiter, if_pos rfl,
    (State.giveBoth_touches ..).fifo, (State.giveBoth_touches ..).fifo]

theorem State.assigned_own (s : State) (g c i k : Nat) (x : Transfer) (tags : Tags) (low : g < 16) :
    (s.assigned g c i k x tags).fifo x.bay g =
      { orders := (s.fifo x.bay g).orders.drop 1, cost := none, tags := none,
        lastFinish := if max (s.arbiter x.bay).v tags.start < 2147483648 then (s.fifo x.bay g).lastFinish
          else (s.fifo x.bay g).lastFinish - 1073741824 } := by
  rw [State.assigned_fifo _ _ _ _ _ _ _ low, if_pos rfl]
  by_cases high : 2147483648 ≤ max (s.arbiter x.bay).v tags.start
  · rw [if_pos high, if_neg (Nat.not_lt.2 high)]; rfl
  · rw [if_neg high, if_pos (Nat.not_le.1 high)]

theorem State.moved_fifo_group (s : State) (c i k : Nat) (x : Transfer) (tags : Tags) (low : g < 16) (bound : h < 16) (ne : h ≠ g) :
    (s.moved g c i k x tags).fifo x.bay h =
      if 2147483648 ≤ max (s.arbiter x.bay).v tags.start then (s.fifo x.bay h).rebase else s.fifo x.bay h := by
  rw [State.moved, State.settleHead_fifo_other _ _ _ _ _ _ fun e => ne ((fifoNumber_inj _ _ _ _ low bound).1 e).2,
    State.assigned_fifo _ _ _ _ _ _ _ bound, if_neg ne]

theorem State.moved_fifo_bay (s : State) (c i k : Nat) (x : Transfer) (tags : Tags) (low : g < 16) (bound : h < 16) (ne : d ≠ x.bay) :
    (s.moved g c i k x tags).fifo d h = s.fifo d h := by
  rw [State.moved, State.settleHead_fifo_other _ _ _ _ _ _ fun e => ne ((fifoNumber_inj _ _ _ _ low bound).1 e).1, State.assigned,
    (State.charged_touches ..).fifo, State.vacated_fifo_other _ _ _ _ ne bound low, (State.giveBoth_touches ..).fifo]

/-- Where the dispatched order was the last of its FIFO, the FIFO is empty. -/
theorem State.moved_fifo_last (s : State) (c i k : Nat) (x : Transfer) (tags : Tags) (low : g < 16) (last : (s.fifo x.bay g).orders = [c]) :
    (s.moved g c i k x tags).fifo x.bay g =
      { orders := [], cost := none, tags := none,
        lastFinish := if max (s.arbiter x.bay).v tags.start < 2147483648 then (s.fifo x.bay g).lastFinish
          else (s.fifo x.bay g).lastFinish - 1073741824 } := by
  have own := s.assigned_own g c i k x tags low
  rw [State.moved, State.settleHead_empty _ (by rw [own, last]; rfl), own, last]
  rfl

theorem State.moved_headed (s : State) (c i k : Nat) (x : Transfer) (tags : Tags) (low : g < 16) (opened : 1 ≤ (s.group g).weight)
    (head : ((s.moved g c i k x tags).fifo x.bay g).orders.head? = some q) (made : s.transfer? q = some y) :
    (s.moved g c i k x tags).fifo x.bay g = Fifo.headed ((s.moved g c i k x tags).fifo x.bay g).orders
      (costOf ((s.moved g c i k x tags).arbiter x.bay) y.first y.count) (s.group g).weight
      (if max (s.arbiter x.bay).v tags.start < 2147483648 then (s.fifo x.bay g).lastFinish else (s.fifo x.bay g).lastFinish - 1073741824)
      ((s.moved g c i k x tags).arbiter x.bay).v := by
  have own := s.assigned_own g c i k x tags low
  have weight : ((s.assigned g c i k x tags).group g).weight = (s.group g).weight := by
    rw [State.assigned, State.charged_weight, (State.vacated_touches ..).group, (State.giveBoth_touches ..).group]
  have headed := State.settleHead_headed (y := y) _ (s.assigned g c i k x tags) ⟨by rw [own], by rw [weight]; exact opened⟩ (Nat.le_refl _)
    head (by rw [(s.assigned_touches ..).transfer, made])
  rw [weight] at headed
  rw [State.moved_arbiter]
  exact headed.trans (congrArg (fun last => Fifo.headed _ _ _ last _) (congrArg Fifo.lastFinish own))

/-- A next head that can join no slot stays. -/
theorem State.moved_stays (s : State) (c i k : Nat) (x : Transfer) (tags : Tags) (low : g < 16)
    (head : ((s.fifo x.bay g).orders.drop 1).head? = some q) (made : s.transfer? q = some y)
    (stays : y.kind.isRead = true → (s.giveBoth c i k x).candidate x.bay y.first y.count = none) :
    ((s.moved g c i k x tags).fifo x.bay g).orders = (s.fifo x.bay g).orders.drop 1 := by
  have own := s.assigned_own g c i k x tags low
  have alone : (s.assigned g c i k x tags).headJoins x.bay y = none := by
    unfold State.headJoins
    split
    · next read => rw [(s.assigned_from ..).candidate, stays read]
    · rfl
  rw [State.moved, State.settleHead_first _ (by rw [own]; exact head) (by rw [(s.assigned_touches ..).transfer, made]) alone, own]

theorem State.moved_movedOn (s : State) (g c i k : Nat) (x : Transfer) (tags : Tags) :
    ∃ left, (s.assigned g c i k x tags).movedOn (s.moved g c i k x tags) x.bay g left := State.settleHead_movedOn ..

/-- The slot of the dispatch: FILLING or DRAINING, with what reads have joined since. -/
theorem State.moved_slot (s : State) (g c i k : Nat) (x : Transfer) (tags : Tags) :
    ((s.giveBoth c i k x).slot k).joined ((s.moved g c i k x tags).slot k) := by
  obtain ⟨left, moved⟩ := s.moved_movedOn g c i k x tags
  have own := moved.slots k
  rwa [(s.assigned_from ..).slot] at own

theorem State.moved_slot_other (s : State) (g c i : Nat) (x : Transfer) (tags : Tags) (ne : j ≠ k) :
    (s.slot j).joined ((s.moved g c i k x tags).slot j) := by
  obtain ⟨left, moved⟩ := s.moved_movedOn g c i k x tags
  have own := moved.slots j
  rwa [(s.assigned_from ..).slot, State.giveBoth_slot_other _ _ _ _ ne] at own

/-- No read joins a RESIDENT slot over blocks that the dispatched write changes. -/
theorem State.moved_slot_outdated (s : State) (g c i : Nat) (x : Transfer) (tags : Tags) (write : x.kind.isRead = false) (ne : j ≠ k)
    (resident : (s.slot j).state = .resident) (hit : (s.slot j).overlapsOn x.bay x.first x.count = true) :
    (s.moved g c i k x tags).slot j = s.slot j := by
  have other : (s.assigned g c i k x tags).slot j = s.slot j := by
    rw [(s.assigned_from ..).slot, State.giveBoth_slot_other _ _ _ _ ne]
  have own : (s.assigned g c i k x tags).slot k = _ := ((s.assigned_from g c i k x tags).slot k).trans (State.giveBoth_slot ..)
  rw [State.moved, State.settleHead_outdated (k := k) (j := j), other]
  cases place : (s.slot j).place with
  | none => simp [Slot.overlapsOn, place] at hit
  | some r =>
    simp only [Slot.overlapsOn, place, Bool.and_eq_true, beq_iff_eq] at hit
    obtain ⟨bay, meets⟩ := hit
    refine ⟨by rw [own]; simp [write], by rw [other, resident], { bay := x.bay, first := x.first, count := x.count }, r,
      by rw [own], by rw [other, place], rfl, bay, ?_⟩
    rw [overlaps_comm]
    exact meets

/-- The group's record and meters after a dispatch (R56, R152). -/
theorem State.moved_meter (s : State) (g c i k : Nat) (x : Transfer) (tags : Tags) :
    ((s.moved g c i k x tags).meter g).reads = ((s.meter g).dispatched x).reads
      ∧ ((s.moved g c i k x tags).meter g).writes = ((s.meter g).dispatched x).writes
      ∧ (s.reachesCap g ((s.meter g).dispatched x) → (s.moved g c i k x tags).group g = { s.group g with capReached := true }
          ∧ ((s.moved g c i k x tags).meter g).capped = true)
      ∧ (¬s.reachesCap g ((s.meter g).dispatched x) → (s.moved g c i k x tags).group g = s.group g
          ∧ ((s.moved g c i k x tags).meter g).capped = (s.meter g).capped) := by
  obtain ⟨left, moved⟩ := s.moved_movedOn g c i k x tags
  obtain ⟨reads, writes, capped⟩ := moved.meters g
  rw [reads, writes, capped, (s.moved_from g c i k x tags).group]
  have before : Touches [.arbiters, .staging, .fifos] s ((s.giveBoth c i k x).vacated g x tags.start) :=
    (State.vacated_touches ..).after rfl ((State.giveBoth_touches ..).mono rfl)
  have flag : ((s.meter g).dispatched x).capped = (s.meter g).capped := by unfold GroupMeter.dispatched; split <;> rfl
  have same : ((s.giveBoth c i k x).vacated g x tags.start).reachesCap g ((((s.giveBoth c i k x).vacated g x tags.start).meter g).dispatched x)
      ↔ s.reachesCap g ((s.meter g).dispatched x) := by unfold State.reachesCap; rw [before.group, before.meter]
  by_cases reached : s.reachesCap g ((s.meter g).dispatched x)
  · obtain ⟨group, meter⟩ := State.charged_capped (same.2 reached)
    rw [before.group] at group
    rw [before.meter] at meter
    unfold State.assigned
    rw [group, meter]
    exact ⟨rfl, rfl, fun _ => ⟨rfl, rfl⟩, fun no => absurd reached no⟩
  · obtain ⟨group, meter⟩ := State.charged_uncapped (mt same.1 reached)
    rw [before.group] at group
    rw [before.meter] at meter
    unfold State.assigned
    rw [group, meter]
    exact ⟨rfl, rfl, fun yes => absurd yes reached, fun _ => ⟨rfl, flag⟩⟩

theorem State.moved_group_other (s : State) (c i k : Nat) (x : Transfer) (tags : Tags) (ne : h ≠ g) :
    (s.moved g c i k x tags).group h = s.group h := by
  rw [(s.moved_from ..).group, State.assigned, State.charged_group_other _ _ ne, (State.vacated_touches ..).group,
    (State.giveBoth_touches ..).group]

/-! ### The work of the dispatch begins -/

/-- The whole dispatch of an order that has its tag and its slot. -/
def State.dispatched (s : State) (g c i k : Nat) (x : Transfer) (tags : Tags) : State :=
  (((s.moved g c i k x tags).requestSpinUp x.bay).beginWork c k x).beginRecords

theorem State.dispatched_from (s : State) (g c i k : Nat) (x : Transfer) (tags : Tags) :
    Touches [.staging, .engine, .records, .ports] (s.moved g c i k x tags) (s.dispatched g c i k x tags) :=
  (State.beginRecords_touches ..).after rfl ((State.beginWork_touches ..).after rfl ((State.requestSpinUp_touches ..).mono rfl))

/-- A read of the dispatch is sent; the slots and items are as the FIFO left them. -/
theorem State.dispatched_read (s : State) (g c i k : Nat) (x : Transfer) (tags : Tags) (read : x.kind.isRead = true) :
    Touches [.ports, .records] (s.moved g c i k x tags) (s.dispatched g c i k x tags) := by
  unfold State.dispatched State.beginWork
  rw [if_pos read]
  exact (State.beginRecords_touches ..).after rfl ((State.sendRead_touches ..).after rfl ((State.requestSpinUp_touches ..).mono rfl))

theorem State.dispatched_write (s : State) (g c i k : Nat) (x : Transfer) (tags : Tags) (write : x.kind.isRead = false) :
    (∀ j, (s.dispatched g c i k x tags).slot j = (((s.moved g c i k x tags).requestSpinUp x.bay).snoop k c x.bay x.first x.count).slot j)
      ∧ (s.dispatched g c i k x tags).engine.items =
        (s.moved g c i k x tags).engine.items ++ [{ cell := c, slot := k, fetch := true, led := false, channel := none }] := by
  have written : ∀ u : State, u.beginWork c k x =
      (u.snoop k c x.bay x.first x.count).startItem { cell := c, slot := k, fetch := true, led := false, channel := none } := fun u => by
    rw [State.beginWork, write, if_neg Bool.false_ne_true]
  unfold State.dispatched
  rw [written]
  refine ⟨fun j => ?_, ?_⟩
  · rw [(State.beginRecords_touches ..).slot, (State.startItem_touches ..).slot]
  · rw [(State.beginRecords_touches ..).same .engine (by decide)]
    exact congrArg (fun e : Engine => e.items ++ _)
      (((State.snoop_touches ..).same .engine (by decide)).trans ((State.requestSpinUp_touches ..).same .engine (by decide)))

/-- A slot with its place and lead, whose lead has a command tag, sends its read at once where the ready line is high. -/
theorem State.sendRead_sent {p : Place} {n : Nat} (place : (s.slot k).place = some p) (lead : (s.slot k).lead = some c)
    (tag : s.tagOf p.bay c = some n) (ready : (s.lines p.bay).ready = true) :
    ∃ d ∈ ((s.sendRead k).bay p.bay).outstanding, d.kind = .read ∧ d.first = p.first ∧ d.count = p.count ∧ d.tag = some n := by
  simp only [State.sendRead, place, lead, tag, State.send_bay, ready, Bool.true_eq_false, and_false, if_false]
  exact ⟨_, List.mem_append_right _ List.mem_cons_self, rfl, rfl, rfl, rfl⟩

theorem State.dispatched_sent (s : State) (g c k : Nat) (x : Transfer) (tags : Tags) (read : x.kind.isRead = true) (bound : i < 4)
    (ready : (s.lines x.bay).ready = true) :
    ∃ d ∈ ((s.dispatched g c i k x tags).bay x.bay).outstanding, d.kind = .read ∧ d.first = x.first ∧ d.count = x.count
      ∧ ((∀ j, s.tagHolder x.bay j ≠ some c) → d.tag = some i) := by
  obtain ⟨n, own, fresh⟩ := s.giveBoth_tagOf c k x bound
  have asked := State.requestSpinUp_touches (s.moved g c i k x tags) x.bay
  have slot := s.moved_slot g c i k x tags
  rw [State.giveBoth_slot] at slot
  have tag : ((s.moved g c i k x tags).requestSpinUp x.bay).tagOf x.bay c = some n := by
    rw [asked.tagOf, (s.moved_from ..).tagOf, ← own]
    exact State.tagOf_congr fun j => by rw [State.assigned_tagHolder]
  obtain ⟨d, sent, kind, first, count, tag⟩ := State.sendRead_sent (p := { bay := x.bay, first := x.first, count := x.count })
    (by rw [asked.slot, slot.place]) (by rw [asked.slot, slot.lead]) tag (by rw [asked.lines, (s.moved_touches ..).lines]; exact ready)
  refine ⟨d, ?_, kind, first, count, fun none => by rw [tag, fresh none]⟩
  rw [State.dispatched, (State.beginRecords_touches ..).bay, State.beginWork, if_pos read]
  exact sent

end

end Sys2Proof.Machine
end

section
namespace Sys2Proof.Machine

set_option Elab.async false

/-! ## What a dispatch comes to (R70, R72, R88, R90) -/

section
variable {s u : State} {b g c i j k : Nat} {x : Transfer} {tags : Tags} {ks : List Nat}

theorem State.working_iff (s : State) : s.working = true ↔ s.exchange.part ∈ [PartState.running, .stopping] := by
  unfold State.working
  cases s.exchange.part <;> decide

theorem exec_dispatch (b : Fin 24) (s : State) : exec (.dispatch b) s = .next (s.dispatch b).beginRecords := rfl

theorem State.dispatch_chosen (part : s.exchange.part ∈ [PartState.running, .stopping]) (out : b ∉ s.staging.slotWait)
    (choice : s.choice b = some (g, c, tags)) (made : s.transfer? c = some x) : s.dispatch b = s.dispatchHead g c tags x := by
  have waits : s.staging.slotWait.contains b = false := by simpa using out
  simp only [State.dispatch, s.working_iff.2 part, waits, choice, made, Bool.not_false, Bool.and_self, if_true]

theorem State.dispatch_unchosen (part : s.exchange.part ∈ [PartState.running, .stopping]) (out : b ∉ s.staging.slotWait)
    (choice : s.choice b = none) : s.dispatch b = s.returnSlots b := by
  have waits : s.staging.slotWait.contains b = false := by simpa using out
  simp only [State.dispatch, s.working_iff.2 part, waits, choice, Bool.not_false, Bool.and_self, if_true]

theorem State.dispatchHead_waits (tag : s.freeTag x.bay ≠ none) (slot : s.allocate x.bay = none) :
    s.dispatchHead g c tags x = s.waitForSlot x.bay := by
  unfold State.dispatchHead
  split
  · next none => exact absurd none tag
  · rw [slot]

/-- An available slot is offered to the bay that waits first (R89). -/
theorem State.offerSlot_given {rest : List Nat} (serving : s.serving = true) (ready : (s.slot k).available = true)
    (list : s.staging.slotWait = b :: rest) : (s.offerSlot k).slot k = { Slot.free with reservedFor := some b }
      ∧ (s.offerSlot k).staging.slotWait = rest ∧ k ∉ (s.offerSlot k).staging.residency := by
  unfold State.offerSlot
  simp only [list, serving, ready, Bool.and_self, if_true]
  refine ⟨?_, trivial, fun mem => ?_⟩
  · exact (State.slot_setSlot (s.leaveResidency k) k k { Slot.free with reservedFor := some b }).trans (if_pos rfl)
  · exact absurd (List.mem_filter.1 mem).2 (by simp)

theorem State.offerSlot_unwanted (list : s.staging.slotWait = []) : s.offerSlot k = s := by
  unfold State.offerSlot
  simp only [list]

theorem State.offerSlot_kept (h : s.serving = false ∨ (s.slot k).available = false) : s.offerSlot k = s := by
  unfold State.offerSlot
  split
  · rfl
  · dsimp only
    rw [if_neg]
    rcases h with h | h <;> simp [h]

theorem State.offerSlot_reserved (s : State) (k : Nat) (out : b ∉ s.staging.slotWait) (unreserved : (s.slot k).reservedFor ≠ some b) :
    ((s.offerSlot k).slot k).reservedFor ≠ some b := by
  cases list : s.staging.slotWait with
  | nil => rwa [State.offerSlot_unwanted list]
  | cons bay rest =>
    by_cases ready : s.serving = true ∧ (s.slot k).available = true
    · rw [(State.offerSlot_given ready.1 ready.2 list).1]
      rintro e
      cases e
      exact out (by rw [list]; exact List.mem_cons_self)
    · rwa [State.offerSlot_kept (by simpa [Decidable.imp_iff_not_or] using ready)]

/-- A returned slot is not reserved for the bay that returns it, which waits for none. -/
theorem State.returnSlot_reserved (s : State) (k : Nat) (out : b ∉ s.staging.slotWait) :
    ((s.returnSlot k).slot k).reservedFor ≠ some b := by
  refine State.offerSlot_reserved _ k out ?_
  rw [State.slot_setSlot, if_pos rfl]
  exact nofun

theorem State.returnSlot_slot_other (s : State) (ne : j ≠ k) : (s.returnSlot k).slot j = s.slot j := by
  rw [State.returnSlot, State.offerSlot_slot_other _ ne, State.slot_setSlot, if_neg ne]

theorem State.returnSlots_fold (s : State) (ks : List Nat) (out : b ∉ s.staging.slotWait)
    (all : ∀ j, (s.slot j).reservedFor = some b → j ∈ ks) (j : Nat) :
    ((ks.foldl (fun s k => s.returnSlot k) s).slot j).reservedFor ≠ some b := by
  induction ks generalizing s with
  | nil => exact fun own => List.not_mem_nil (all j own)
  | cons k ks ih =>
    refine ih (s.returnSlot k) (fun mem => out (State.offerSlot_slotWait (s.setSlot k { s.slot k with reservedFor := none }) k mem)) fun n own => ?_
    by_cases e : n = k
    · subst e; exact absurd own (s.returnSlot_reserved n out)
    · rw [State.returnSlot_slot_other _ e] at own
      exact (List.mem_cons.1 (all n own)).resolve_left e

/-- A bay without an eligible head keeps no reserved slot (R72, R90). -/
theorem State.returnSlots_reserved (s : State) (out : b ∉ s.staging.slotWait) (j : Nat) : ((s.returnSlots b).slot j).reservedFor ≠ some b :=
  s.returnSlots_fold _ out (fun _ own => (State.mem_slotsWhere (by rfl)).2 (by rw [own]; exact beq_self_eq_true _)) j

end

/-! ## A dispatch that has its tag and its slot, clause by clause -/

section
variable {s : State} {b g c i j k q : Nat} {x y : Transfer} {tags : Tags}

/-- What a dispatch starts from: its order is the head of an open group, its tag is one of the four and its bay's ready line is high. -/
structure State.dispatching (s : State) (g c i : Nat) (x : Transfer) : Prop where
  group : g < 16
  tag : i < 4
  ready : (s.lines x.bay).ready = true
  opened : 1 ≤ (s.group g).weight

theorem State.dispatching_of_choice (choice : s.choice b = some (g, c, tags)) (bay : x.bay = b) (tag : s.freeTag b = some i) :
    s.dispatching g c i x := by
  obtain ⟨low, eligible⟩ := State.choice_eligible choice
  obtain ⟨ready, opened, -⟩ := State.eligibleHead_some eligible
  exact ⟨low, (State.freeTag_eq_some.1 tag).1, by rw [bay]; exact ready, opened⟩

theorem State.dispatched_tagHolder (s : State) (g c i k : Nat) (x : Transfer) (tags : Tags) :
    (s.dispatched g c i k x tags).tagHolder x.bay i = some c := by
  rw [(s.dispatched_from ..).tagHolder, (s.moved_from ..).tagHolder, State.assigned_tagHolder, State.giveBoth_tagHolder, if_pos ⟨rfl, rfl⟩]

theorem State.dispatched_arbiter (s : State) (g c i k : Nat) (x : Transfer) (tags : Tags) (d : Nat) :
    (s.dispatched g c i k x tags).arbiter d = (s.assigned g c i k x tags).arbiter d := by
  rw [(s.dispatched_from ..).arbiter, State.moved_arbiter]

/-- The slot of the order is the one that was given to it, with what reads have joined since. -/
theorem State.dispatched_slot (s : State) (g c i k : Nat) (x : Transfer) (tags : Tags) :
    ((s.giveBoth c i k x).slot k).joined ((s.dispatched g c i k x tags).slot k) := by
  have joined := s.moved_slot g c i k x tags
  cases read : x.kind.isRead with
  | true => rwa [(s.dispatched_read g c i k x tags read).slot]
  | false =>
    obtain ⟨slots, -⟩ := s.dispatched_write g c i k x tags read
    rwa [slots, State.snoop_slot_other _ _ (.inl rfl), (State.requestSpinUp_touches ..).slot]

theorem State.dispatched_taken (s : State) (g c i k : Nat) (x : Transfer) (tags : Tags)
    (taken : (s.moved g c i k x tags).joinedOrder q) :
    (∃ j, q ∈ ((s.dispatched g c i k x tags).slot j).joiners) ∨ ∃ it ∈ (s.dispatched g c i k x tags).engine.items, it.cell = q ∧ it.fetch = false := by
  cases read : x.kind.isRead with
  | true =>
    have last := s.dispatched_read g c i k x tags read
    rw [last.same .engine (by decide)]
    simp only [last.slot]
    exact taken.imp_left fun ⟨j, _, mem⟩ => ⟨j, mem⟩
  | false =>
    obtain ⟨slots, items⟩ := s.dispatched_write g c i k x tags read
    rcases taken with ⟨j, fills, mem⟩ | ⟨it, mem, own⟩
    · refine .inl ⟨j, ?_⟩
      have asked := (State.requestSpinUp_touches (s.moved g c i k x tags) x.bay).slot j
      rw [slots, (State.snoop_joiners _ k c x.bay x.first x.count (by rw [asked, fills])).2, asked]
      exact mem
    · exact .inr ⟨it, by rw [items]; exact List.mem_append_left _ mem, own⟩

theorem State.dispatched_orders (s : State) (g c i k : Nat) (x : Transfer) (tags : Tags) (low : g < 16) :
    ∃ left, (s.fifo x.bay g).orders.drop 1 = left ++ ((s.dispatched g c i k x tags).fifo x.bay g).orders
      ∧ ∀ q ∈ left, (∃ j, q ∈ ((s.dispatched g c i k x tags).slot j).joiners)
          ∨ ∃ it ∈ (s.dispatched g c i k x tags).engine.items, it.cell = q ∧ it.fetch = false := by
  obtain ⟨left, moved⟩ := s.moved_movedOn g c i k x tags
  have orders := moved.orders
  rw [State.assigned_own _ _ _ _ _ _ _ low] at orders
  exact ⟨left, by rw [(s.dispatched_from ..).fifo]; exact orders, fun q mem => s.dispatched_taken g c i k x tags (moved.taken q mem)⟩

/-- The other slots of a write's dispatch: the snoop acts on what the FIFO left of them (R92, R93). -/
theorem State.dispatched_snoop (g c i : Nat) (tags : Tags) (write : x.kind.isRead = false) (ordered : s.tablesOrdered) (ne : j ≠ k) :
    (let t := s.dispatched g c i k x tags
     let hit := (s.slot j).overlapsOn x.bay x.first x.count
     (hit = true → (s.slot j).state = .filling → ((s.slot j).invalidatedBy c).joined (t.slot j))
      ∧ (hit = true → (s.slot j).state = .resident →
          ((s.slot j).deliveries = 0 → (t.slot j).state = .free)
          ∧ ((s.slot j).deliveries ≠ 0 → t.slot j = { s.slot j with state := .stale }))
      ∧ (hit = false ∨ (s.slot j).state ∉ [.filling, .resident] → (s.slot j).joined (t.slot j))) := by
  obtain ⟨slots, -⟩ := s.dispatched_write g c i k x tags write
  have joined := s.moved_slot_other g c i x tags ne
  have asked := State.requestSpinUp_touches (s.moved g c i k x tags) x.bay
  have same := asked.slot j
  have range : ((s.moved g c i k x tags).slot j).overlapsOn x.bay x.first x.count = (s.slot j).overlapsOn x.bay x.first x.count := by
    simp only [Slot.overlapsOn, joined.place]
  dsimp only
  rw [slots]
  refine ⟨fun hit fills => ?_, fun hit resident => ?_, fun apart => ?_⟩
  · obtain ⟨-, -, -, -, -, table, -⟩ := ordered
    rw [State.snoop_filling (s := (s.moved g c i k x tags).requestSpinUp x.bay) ?_ ne (by rw [same, joined.state, fills])
      (by rw [same, range, hit]), same]
    · exact joined.invalidatedBy c
    · rw [asked.staging]
      exact State.settleHead_ordered _ _ (by rw [(s.assigned_from ..).staging]; exact State.giveBoth_ordered table ..)
  · have kept := s.moved_slot_outdated g c i x tags write ne resident hit
    rw [← kept, ← same]
    exact State.snoop_resident ne (by rw [same, kept, resident]) (by rw [same, kept, hit]) c
  · rw [State.snoop_slot_other _ _ (.inr (by rw [same, range, joined.state]; exact apart)), same]
    exact joined

theorem State.dispatched_items (s : State) (g c i k : Nat) (x : Transfer) (tags : Tags) (write : x.kind.isRead = false) :
    ∃ joins : List Item, (∀ it ∈ joins, it.fetch = false) ∧ (s.dispatched g c i k x tags).engine.items =
      s.engine.items ++ joins ++ [{ cell := c, slot := k, fetch := true, led := false, channel := none }] := by
  obtain ⟨left, moved⟩ := s.moved_movedOn g c i k x tags
  obtain ⟨joins, deliveries, items⟩ := moved.items
  obtain ⟨-, own⟩ := s.dispatched_write g c i k x tags write
  exact ⟨joins, deliveries, by rw [own, items, (s.assigned_touches ..).same .engine (by decide)]⟩

theorem State.dispatched_meter (s : State) (g c i k : Nat) (x : Transfer) (tags : Tags) :
    (s.dispatched g c i k x tags).meter g = (s.moved g c i k x tags).meter g
      ∧ ∀ h, (s.dispatched g c i k x tags).group h = (s.moved g c i k x tags).group h :=
  ⟨(s.dispatched_from ..).meter g, fun h => (s.dispatched_from ..).group h⟩

end

/-- Settles O48, stage by stage of the dispatch. -/
theorem dispatchesTakeATagAndASlot : Obligations.DispatchesTakeATagAndASlot := by
  refine ⟨fun s b i => State.freeTag_eq_some, fun s b k => State.allocate_eq_some, ?_, ?_, ?_⟩
  · intro s b g c i k x tags part out choice made bay tag slot
    obtain ⟨low, bound, ready, opened⟩ := State.dispatching_of_choice choice bay tag
    refine ⟨s.dispatched g c i k x tags, ?_, ?_⟩
    · rw [exec_dispatch, State.dispatch_chosen part out choice made, State.dispatchHead_eq (by rw [bay, tag]) (by rw [bay, slot])]
      rfl
    have last := s.dispatched_from g c i k x tags
    have own := s.dispatched_slot g c i k x tags
    rw [State.giveBoth_slot] at own
    have fifo := fun d h => last.fifo d h
    have arbiter := s.dispatched_arbiter g c i k x tags
    obtain ⟨meter, group⟩ := s.dispatched_meter g c i k x tags
    obtain ⟨reads, writes, reached, unreached⟩ := s.moved_meter g c i k x tags
    rw [← meter, ← group] at reached unreached
    rw [← meter] at reads writes
    rw [← bay]
    refine ⟨s.dispatched_tagHolder .., own.lead, own.place, own.state, ⟨fun below => ⟨?_, fun h hb ne => ?_⟩, fun above => ⟨?_, fun h hb ne => ?_⟩,
      fun single => ?_⟩, ?_, fun d h ne hb => ?_, fun d ne => ?_, s.dispatched_orders g c i k x tags low, fun q y head made stays => ?_,
      fun q y head made => ?_, fun read => ⟨?_, s.dispatched_sent g c k x tags read bound ready, fun j ne => ?_⟩,
      fun write => ⟨?_, s.dispatched_items g c i k x tags write, fun ordered j ne => ?_⟩, ⟨fun yes => ?_, fun no => ?_⟩, fun h ne => ?_⟩
    · rw [arbiter, State.assigned_arbiter, if_pos rfl, if_neg (Nat.not_le.2 below)]
    · rw [fifo, State.moved_fifo_group _ _ _ _ _ _ low hb ne, if_neg (Nat.not_le.2 below)]
    · rw [arbiter, State.assigned_arbiter, if_pos rfl, if_pos above]
    · rw [fifo, State.moved_fifo_group _ _ _ _ _ _ low hb ne, if_pos above]
      rfl
    · rw [fifo, State.moved_fifo_last _ _ _ _ _ _ low single]
    · rw [arbiter, State.assigned_arbiter, if_pos rfl]
    · rw [fifo, State.moved_fifo_bay _ _ _ _ _ _ low hb ne]
    · rw [arbiter, State.assigned_arbiter, if_neg ne]
    · rw [fifo, State.moved_stays _ _ _ _ _ _ low head made stays]
    · rw [fifo] at head ⊢
      rw [last.arbiter]
      exact State.moved_headed s c i k x tags low opened head made
    · rw [reads, GroupMeter.dispatched, if_pos read]
      rfl
    · rw [(s.dispatched_read g c i k x tags read).slot]
      exact s.moved_slot_other g c i x tags ne
    · rw [writes, GroupMeter.dispatched, write, if_neg Bool.false_ne_true]
      rfl
    · obtain ⟨fills, resident, apart⟩ := State.dispatched_snoop g c i tags write ordered ne
      refine ⟨fun hit filling => ?_, resident, apart⟩
      have joined := fills hit filling
      exact ⟨fun stale => by rwa [Slot.invalidatedBy_stale stale] at joined,
        fun fresh due => by rwa [Slot.invalidatedBy_again fresh due] at joined,
        fun fresh idle few => by rwa [Slot.invalidatedBy_first fresh idle few] at joined,
        fun fresh idle many => by rwa [Slot.invalidatedBy_last fresh idle many] at joined⟩
    · rw [reads, writes] at yes
      exact reached yes
    · rw [reads, writes] at no
      exact unreached no
    · rw [group, State.moved_group_other _ _ _ _ _ _ ne]
  · intro s b g c x tags part out choice made bay tag slot
    refine ⟨_, by rw [exec_dispatch, State.dispatch_chosen part out choice made, State.dispatchHead_waits (by rwa [bay]) (by rwa [bay])], ?_,
      (State.beginRecords_touches ..).after rfl ((State.waitForSlot_touches ..).mono rfl)⟩
    rw [(State.beginRecords_touches ..).staging, State.waitForSlot, bay]
  · intro s b part out choice
    refine ⟨_, by rw [exec_dispatch, State.dispatch_unchosen part out choice], fun k => ?_,
      (State.beginRecords_touches ..).after rfl ((State.returnSlots_touches ..).mono rfl)⟩
    rw [(State.beginRecords_touches ..).slot]
    exact s.returnSlots_reserved out k

end Sys2Proof.Machine
end

section
namespace Sys2Proof.Machine

set_option Elab.async false

/-! ## Commands that stay sent (R122) -/

section
variable {s t u : State} {b c j k n : Nat} {d : Command} {v w x : Bay}

/-- Every command that is outstanding, or waits for the ready line, is so in both records. -/
def Bay.keepsCommands (v w : Bay) : Prop := v.outstanding ⊆ w.outstanding ∧ v.sendList ⊆ w.sendList

theorem Bay.keepsCommands_of (out : w.outstanding = v.outstanding) (list : w.sendList = v.sendList) : v.keepsCommands w :=
  ⟨by rw [out]; exact List.Subset.refl _, by rw [list]; exact List.Subset.refl _⟩

theorem Bay.keepsCommands_refl (v : Bay) : v.keepsCommands v := Bay.keepsCommands_of rfl rfl

theorem Bay.keepsCommands.trans (h : v.keepsCommands w) (k : w.keepsCommands x) : v.keepsCommands x :=
  ⟨List.Subset.trans h.1 k.1, List.Subset.trans h.2 k.2⟩

theorem Bay.asked_keepsCommands (v : Bay) : v.keepsCommands v.asked := by
  unfold Bay.asked
  split
  · exact ⟨List.subset_append_left .., List.Subset.refl _⟩
  · exact Bay.keepsCommands_of rfl rfl
  · exact v.keepsCommands_refl

/-- The commands of every bay stay as an event goes on. -/
def State.keepsCommands (s t : State) : Prop := ∀ b, (s.bay b).keepsCommands (t.bay b)

theorem State.keepsCommands.trans (h : s.keepsCommands t) (k : t.keepsCommands u) : s.keepsCommands u := fun b => (h b).trans (k b)

theorem Touches.keepsCommands {ps : List Part} (h : Touches ps s t) (w : Part.records ∉ ps := by decide) : s.keepsCommands t := fun b => by
  rw [h.bay b w]; exact Bay.keepsCommands_refl _

theorem State.send_keepsCommands (s : State) (b : Nat) (d : Command) : s.keepsCommands (s.send b d) := fun c => by
  by_cases e : c = b
  · subst e
    rw [State.send_bay]
    split
    · exact ⟨List.Subset.refl _, List.subset_append_left ..⟩
    · exact ⟨List.subset_append_left .., List.Subset.refl _⟩
  · rw [State.send_bay_other _ _ e]; exact Bay.keepsCommands_refl _

theorem State.requestSpinUp_keepsCommands (s : State) (b : Nat) : s.keepsCommands (s.requestSpinUp b) := fun c => by
  rcases s.requestSpinUp_bay b c with e | e <;> rw [e]
  · exact Bay.keepsCommands_refl _
  · exact Bay.asked_keepsCommands _

theorem State.completionTest_keepsCommands (s : State) (b : Nat) : s.keepsCommands (s.completionTest b) := by
  unfold State.completionTest
  split
  · exact s.send_keepsCommands _ _
  · exact fun _ => Bay.keepsCommands_refl _

theorem State.workEnded_keepsCommands (s : State) (b : Nat) : s.keepsCommands (s.workEnded b) :=
  ((s.requestSpinUp_keepsCommands b).trans (State.completionTest_keepsCommands _ _)).trans (State.beginRecords_touches ..).keepsCommands

/-- A command that waits for the ready line is outstanding once it is sent, or in the send list. -/
theorem State.send_sent (s : State) (b : Nat) (waits : d.kind.waitsForReady = true) :
    ((s.lines b).ready = true → { d with timer := 0, number := (s.bay b).sends } ∈ ((s.send b d).bay b).outstanding)
      ∧ ((s.lines b).ready = false → d ∈ ((s.send b d).bay b).sendList) := by
  rw [State.send_bay]
  refine ⟨fun high => ?_, fun low => ?_⟩
  · rw [if_neg fun h => by rw [high] at h; cases h.2]
    exact List.mem_append_right _ List.mem_cons_self
  · rw [if_pos ⟨waits, low⟩]
    exact List.mem_append_right _ List.mem_cons_self

end

/-! ## Fills that are read again (R94, R95) -/

section
variable {s t u : State} {b c j k n lead : Nat} {p : Place} {v : Slot} {tags : Nat → Nat → Option Nat} {ks : List Nat}

/-- The place of a slot and the command tag of its lead, by a table of the tags that orders hold. -/
def Slot.sendTag (v : Slot) (tags : Nat → Nat → Option Nat) : Option (Place × Nat) :=
  match v.place, v.lead with
  | some p, some c => (tags p.bay c).map (fun n => (p, n))
  | _, _ => none

theorem Slot.sendTag_eq_some (place : v.place = some p) (own : v.lead = some lead) (tag : tags p.bay lead = some n) :
    v.sendTag tags = some (p, n) := by
  simp only [Slot.sendTag, place, own, tag, Option.map_some]

/-- A fill that is read again. -/
def Slot.reissued (v : Slot) : Slot := { v with refetch := false, refetchCount := v.refetchCount + 1, readEnded := false }

/-- The disk read of a place is sent on a tag. -/
def State.sendFill (s : State) (e : Place × Nat) : State := s.send e.1.bay (.transfer .read (some e.2) e.1)

theorem State.sendRead_eq (s : State) (k : Nat) : s.sendRead k =
    match (s.slot k).sendTag s.tagOf with | some e => s.sendFill e | none => s := by
  unfold State.sendRead Slot.sendTag
  dsimp only
  cases (s.slot k).place with
  | none => rfl
  | some p =>
    cases (s.slot k).lead with
    | none => rfl
    | some c =>
      dsimp only
      cases s.tagOf p.bay c <;> rfl

theorem State.leadHasTag_eq (s : State) (k : Nat) : s.leadHasTag k = ((s.slot k).sendTag s.tagOf).isSome := by
  unfold State.leadHasTag Slot.sendTag
  cases (s.slot k).place with
  | none => rfl
  | some p =>
    cases (s.slot k).lead with
    | none => rfl
    | some c => exact (Option.isSome_map ..).symm

theorem State.reissue_eq (s : State) (k : Nat) : s.reissue k =
    match (s.slot k).sendTag s.tagOf with | some e => (s.setSlot k (s.slot k).reissued).sendFill e | none => s := by
  have put : Touches [.staging] s (s.setSlot k (s.slot k).reissued) := State.setSlot_touches ..
  have tag : ((s.setSlot k (s.slot k).reissued).slot k).sendTag (s.setSlot k (s.slot k).reissued).tagOf = (s.slot k).sendTag s.tagOf := by
    rw [State.slot_setSlot, if_pos rfl, show (s.setSlot k (s.slot k).reissued).tagOf = s.tagOf from funext₂ fun b c => put.tagOf b c]
    rfl
  have reads := (s.setSlot k (s.slot k).reissued).sendRead_eq k
  rw [tag] at reads
  unfold State.reissue
  dsimp only
  rw [State.leadHasTag_eq]
  cases own : (s.slot k).sendTag s.tagOf with
  | none => rfl
  | some e => rw [own] at reads; exact reads

theorem State.sendFill_touches (s : State) (e : Place × Nat) : Touches [.records] s (s.sendFill e) := State.send_touches ..

/-- A read that was sent for a place on a tag is outstanding, or waits for the ready line. -/
theorem State.sendFill_sent (s : State) (p : Place) (n : Nat) :
    ∃ d, d.kind = .read ∧ d.first = p.first ∧ d.count = p.count ∧ d.tag = some n
      ∧ if (s.lines p.bay).ready = true then d ∈ ((s.sendFill (p, n)).bay p.bay).outstanding else d ∈ ((s.sendFill (p, n)).bay p.bay).sendList := by
  obtain ⟨high, low⟩ := s.send_sent (d := .transfer .read (some n) p) p.bay rfl
  by_cases ready : (s.lines p.bay).ready = true
  · exact ⟨_, rfl, rfl, rfl, rfl, by rw [if_pos ready]; exact high ready⟩
  · exact ⟨_, rfl, rfl, rfl, rfl, by rw [if_neg ready]; exact low (Bool.not_eq_true _ ▸ ready)⟩

/-- A fill that no write blocks any more is due to be read again. -/
def Slot.due (v : Slot) : Bool := v.blocking.isEmpty && v.refetch && v.readEnded

/-- A FILLING slot that the write in cell c blocks no longer. -/
def Slot.spare (v : Slot) (c : Nat) : Slot := { v with blocking := v.blocking.filter (fun w => w != c) }

/-- A FILLING slot after the end of the drain of the write in cell c (R94, R95). -/
def Slot.unblockedBy (tags : Nat → Nat → Option Nat) (c : Nat) (v : Slot) : Slot :=
  if (v.spare c).due = true ∧ (v.sendTag tags).isSome = true then (v.spare c).reissued else v.spare c

theorem Slot.spare_again (v : Slot) (c : Nat) : (v.spare c).spare c = v.spare c := by
  simp only [Slot.spare, List.filter_filter, Bool.and_self]

theorem Slot.unblockedBy_again (tags : Nat → Nat → Option Nat) (c : Nat) (v : Slot) :
    (v.unblockedBy tags c).unblockedBy tags c = v.unblockedBy tags c := by
  by_cases due : (v.spare c).due = true ∧ (v.sendTag tags).isSome = true
  · have once : v.unblockedBy tags c = (v.spare c).reissued := if_pos due
    have again : (v.spare c).reissued.spare c = (v.spare c).reissued := by
      rw [show (v.spare c).reissued.spare c = ((v.spare c).spare c).reissued from rfl, Slot.spare_again]
    rw [once, Slot.unblockedBy, again, if_neg]
    exact fun h => by simp [Slot.due, Slot.reissued] at h
  · have once : v.unblockedBy tags c = v.spare c := if_neg due
    rw [once, Slot.unblockedBy, Slot.spare_again]
    exact if_neg due

theorem State.unblockSlot_eq (s : State) (c k : Nat) : s.unblockSlot c k =
    (let u := s.setSlot k ((s.slot k).spare c)
     if ((s.slot k).spare c).due = true then u.reissue k else u) := rfl

theorem State.unblockSlot_tagOf (s : State) (c k : Nat) : (s.unblockSlot c k).tagOf = s.tagOf :=
  funext₂ fun b l => (State.unblockSlot_touches ..).tagOf b l

theorem State.unblockSlot_self (s : State) (c k : Nat) :
    (s.unblockSlot c k).slot k = (s.slot k).unblockedBy s.tagOf c
      ∧ (∀ e, ((s.slot k).spare c).due = true → (s.slot k).sendTag s.tagOf = some e →
          ∃ u : State, s.unblockSlot c k = u.sendFill e ∧ Touches [.staging] s u)
      ∧ s.keepsCommands (s.unblockSlot c k) := by
  have put : Touches [.staging] s (s.setSlot k ((s.slot k).spare c)) := State.setSlot_touches ..
  have own : (s.setSlot k ((s.slot k).spare c)).slot k = (s.slot k).spare c := (State.slot_setSlot ..).trans (if_pos rfl)
  have tag : ((s.setSlot k ((s.slot k).spare c)).slot k).sendTag (s.setSlot k ((s.slot k).spare c)).tagOf = (s.slot k).sendTag s.tagOf := by
    rw [own, show (s.setSlot k ((s.slot k).spare c)).tagOf = s.tagOf from funext₂ fun b l => put.tagOf b l]
    rfl
  have again := (s.setSlot k ((s.slot k).spare c)).reissue_eq k
  rw [tag] at again
  rw [State.unblockSlot_eq, Slot.unblockedBy]
  by_cases due : ((s.slot k).spare c).due = true
  · dsimp only
    rw [if_pos due, again]
    cases found : (s.slot k).sendTag s.tagOf with
    | none =>
      rw [if_neg (by simp)]
      exact ⟨own, nofun, put.keepsCommands⟩
    | some e =>
      have second : Touches [.staging] s ((s.setSlot k ((s.slot k).spare c)).setSlot k ((s.setSlot k ((s.slot k).spare c)).slot k).reissued) :=
        (State.setSlot_touches ..).after rfl put
      rw [if_pos ⟨due, rfl⟩]
      refine ⟨?_, fun e' _ h => ⟨_, by cases h; rfl, second⟩, second.keepsCommands.trans (State.send_keepsCommands _ _ _)⟩
      dsimp only
      rw [(State.sendFill_touches ..).slot, State.slot_setSlot, if_pos rfl, own]
  · dsimp only
    rw [if_neg due, if_neg fun h => due h.1]
    exact ⟨own, fun e h => absurd h due, put.keepsCommands⟩

/-- The slots and commands of an event that ends the drain of the write in cell c. -/
theorem State.unblocks_slot (c : Nat) (ks : List Nat) (s : State) (j : Nat) :
    (ks.foldl (fun s k => s.unblockSlot c k) s).slot j = if j ∈ ks then (s.slot j).unblockedBy s.tagOf c else s.slot j := by
  induction ks generalizing s with
  | nil => rfl
  | cons k ks ih =>
    rw [List.foldl_cons, ih, State.unblockSlot_tagOf]
    by_cases e : j = k
    · subst e
      rw [(s.unblockSlot_self c j).1, Slot.unblockedBy_again, if_pos List.mem_cons_self]
      exact ite_self _
    · rw [State.unblockSlot_slot_other _ _ e]
      simp only [List.mem_cons, e, false_or]

theorem State.unblocks_keepsCommands (c : Nat) (ks : List Nat) (s : State) : s.keepsCommands (ks.foldl (fun s k => s.unblockSlot c k) s) := by
  induction ks generalizing s with
  | nil => exact fun _ => Bay.keepsCommands_refl _
  | cons k ks ih => exact (s.unblockSlot_self c k).2.2.trans (ih _)

/-- The read of a slot that is read again is sent, or waits for the ready line. -/
theorem State.unblocks_sent (c : Nat) (ks : List Nat) (s : State) (mem : j ∈ ks) (due : ((s.slot j).spare c).due = true)
    (tag : (s.slot j).sendTag s.tagOf = some (p, n)) :
    ∃ d ∈ ((ks.foldl (fun s k => s.unblockSlot c k) s).bay p.bay).outstanding ++ ((ks.foldl (fun s k => s.unblockSlot c k) s).bay p.bay).sendList,
      d.kind = .read ∧ d.first = p.first ∧ d.count = p.count ∧ d.tag = some n := by
  induction ks generalizing s with
  | nil => cases mem
  | cons k ks ih =>
    by_cases e : j = k
    · subst e
      obtain ⟨u, sent, -⟩ := (s.unblockSlot_self c j).2.1 (p, n) due tag
      obtain ⟨d, kind, first, count, tag, place⟩ := u.sendFill_sent p n
      obtain ⟨out, list⟩ := State.unblocks_keepsCommands c ks (s.unblockSlot c j) p.bay
      rw [sent] at out list
      refine ⟨d, ?_, kind, first, count, tag⟩
      rw [List.foldl_cons, sent]
      split at place
      · exact List.mem_append_left _ (out place)
      · exact List.mem_append_right _ (list place)
    · have same := State.unblockSlot_slot_other s c e
      refine ih (s.unblockSlot c k) ((List.mem_cons.1 mem).resolve_left e) (by rw [same, due]) ?_
      rw [same, State.unblockSlot_tagOf, tag]

theorem State.unblock_staging (s : State) (c : Nat) : ∃ slots, (s.unblock c).staging = { s.staging with slots := slots } := by
  have each : ∀ (ks : List Nat) (u : State), ∃ slots, (ks.foldl (fun s k => s.unblockSlot c k) u).staging = { u.staging with slots := slots } := by
    intro ks
    induction ks with
    | nil => exact fun u => ⟨u.staging.slots, rfl⟩
    | cons k ks ih =>
      intro u
      obtain ⟨slots, rest⟩ := ih (u.unblockSlot c k)
      have own : ∃ slots, (u.unblockSlot c k).staging = { u.staging with slots := slots } := by
        rw [State.unblockSlot_eq]
        dsimp only
        split
        · rw [State.reissue_eq]
          split
          · exact ⟨_, (State.sendFill_touches ..).staging⟩
          · exact ⟨_, rfl⟩
        · exact ⟨_, rfl⟩
      obtain ⟨before, own⟩ := own
      exact ⟨slots, by rw [List.foldl_cons, rest, own]⟩
  exact each _ s

theorem State.unblock_keepsCommands (s : State) (c : Nat) : s.keepsCommands (s.unblock c) := State.unblocks_keepsCommands _ _ _

/-- The slots that the write in cell c blocks. -/
theorem State.mem_blockedBy : j ∈ s.slotsWhere (fun v => v.state == .filling && v.blocking.contains c) ↔
    (s.slot j).state = .filling ∧ c ∈ (s.slot j).blocking := by
  rw [State.mem_slotsWhere rfl]
  simp

/-- The end of the drain of the write in cell c, in an event that left the FILLING slots and the tags of other orders as they were until
then and touches none of what it leaves afterwards. -/
theorem State.unblocked_of (slots : ∀ j, (s.slot j).state = .filling → u.slot j = s.slot j)
    (tags : ∀ b l, l ≠ c → u.tagOf b l = s.tagOf b l) (after : ∀ j, (s.slot j).state = .filling → t.slot j = (u.unblock c).slot j)
    (kept : (u.unblock c).keepsCommands t) : s.unblocked t c := by
  intro j fills blocked
  have same := slots j fills
  have mem : j ∈ u.slotsWhere (fun v => v.state == .filling && v.blocking.contains c) :=
    State.mem_blockedBy.2 ⟨by rw [same, fills], by rw [same]; exact blocked⟩
  have own : t.slot j = (s.slot j).unblockedBy u.tagOf c := by
    rw [after j fills, State.unblock, State.unblocks_slot, if_pos mem, same]
  refine ⟨fun waits => ?_, fun left refetch ended p lead place hasLead other tagged => ?_⟩
  · rw [own, Slot.unblockedBy, if_neg]
    · rfl
    · rintro ⟨due, -⟩
      simp only [Slot.due, Slot.spare, Bool.and_eq_true, List.isEmpty_iff] at due
      obtain ⟨⟨left, refetch⟩, ended⟩ := due
      rcases waits with more | off | running
      · exact more left
      · rw [refetch] at off; cases off
      · rw [ended] at running; cases running
  · have due : ((s.slot j).spare c).due = true := by simp [Slot.due, Slot.spare, left, refetch, ended]
    obtain ⟨n, tag⟩ := Option.ne_none_iff_exists'.1 tagged
    have sendTag : (s.slot j).sendTag u.tagOf = some (p, n) := Slot.sendTag_eq_some place hasLead (by rw [tags _ _ other, tag])
    refine ⟨?_, ?_⟩
    · rw [own, Slot.unblockedBy, if_pos ⟨due, by rw [sendTag]; rfl⟩, Slot.reissued, Slot.spare, left]
    · obtain ⟨d, sent, kind, first, count, on⟩ := State.unblocks_sent c _ u mem (by rw [same]; exact due) (by rw [same]; exact sendTag)
      obtain ⟨out, list⟩ := kept p.bay
      refine ⟨d, ?_, kind, first, count, by rw [on, tag]⟩
      exact List.mem_append.2 ((List.mem_append.1 sent).imp (fun m => out m) (fun m => list m))

end

/-! ## Offers (R89) -/

section
variable {s t u : State} {b c j k : Nat} {v : Slot}

theorem State.offered.of_staging (h : s.offered t k) (same : u.staging = t.staging) : s.offered u k := by
  unfold State.offered State.slot at *
  rwa [same]

theorem State.offeredResident.of_staging (h : s.offeredResident t k v) (same : u.staging = t.staging) : s.offeredResident u k v := by
  refine ⟨fun none => ?_, fun some => (h.2 some).of_staging same⟩
  obtain ⟨slot, list⟩ := h.1 none
  exact ⟨by rw [State.slot, same]; exact slot, by rw [same, list]⟩

/-- A slot that became FREE in an event is offered. -/
theorem State.offered_of (serving : u.serving = true) (free : u.slot k = .free) (list : u.staging.slotWait = s.staging.slotWait)
    (left : k ∉ u.staging.residency) : s.offered (u.offerSlot k) k := by
  unfold State.offered
  rw [← list]
  cases waits : u.staging.slotWait with
  | nil =>
    rw [State.offerSlot_unwanted waits, free, waits]
    exact ⟨rfl, rfl, left⟩
  | cons b rest => exact State.offerSlot_given serving (by rw [free]; rfl) waits

/-- A slot that became RESIDENT with nothing to deliver in an event is offered. -/
theorem State.offeredResident_of (serving : u.serving = true) (own : u.slot k = v) (resident : v.state = .resident) (idle : v.deliveries = 0)
    (list : u.staging.slotWait = s.staging.slotWait) : s.offeredResident (u.offerSlot k) k v := by
  refine ⟨fun none => ?_, fun some => ?_⟩
  · have waits := list.trans none
    rw [State.offerSlot_unwanted waits]
    exact ⟨own, waits⟩
  · obtain ⟨b, rest, waits⟩ := List.exists_cons_of_ne_nil (list ▸ some)
    obtain ⟨slot, after, out⟩ := State.offerSlot_given (k := k) serving (by rw [own]; simp [Slot.available, resident, idle]) waits
    exact ⟨by rw [slot, ← list, waits]; rfl, by rw [after, ← list, waits]; rfl, out⟩

/-- A drain that ends with its slot FREE: the slot is offered, and the write in its cell blocks no fill any more. -/
theorem State.endDrain_offered (k c : Nat) (serving : u.serving = true) (list : u.staging.slotWait = s.staging.slotWait) :
    s.offered (u.endDrain k c) k := by
  obtain ⟨slots, staging⟩ := (u.freeSlot k).unblock_staging c
  have free : (u.freeSlot k).slot k = .free := (State.freeSlot_slot ..).trans (if_pos rfl)
  refine State.offered_of (u := (u.freeSlot k).unblock c) ?_ ?_ ?_ ?_
  · rw [(State.unblock_touches ..).serving, (State.freeSlot_touches ..).serving, serving]
  · rw [State.unblock_slot_other (by rw [free]; decide), free]
  · rw [staging]; exact list
  · rw [staging]
    exact fun mem => absurd (List.mem_filter.1 mem).2 (by simp)

theorem State.endDrain_unblocked (drains : (s.slot k).state ≠ .filling) (slots : ∀ j, u.slot j = s.slot j)
    (tags : ∀ b l, l ≠ c → u.tagOf b l = s.tagOf b l) (staging : t.staging = (u.endDrain k c).staging)
    (kept : (u.endDrain k c).keepsCommands t) : s.unblocked t c := by
  have other : ∀ j, (s.slot j).state = .filling → j ≠ k := fun j fills e => drains (e ▸ fills)
  refine State.unblocked_of (u := u.freeSlot k) (fun j fills => ?_) (fun b l ne => ?_) (fun j fills => ?_) ?_
  · rw [State.freeSlot_slot, if_neg (other j fills), slots]
  · rw [(State.freeSlot_touches ..).tagOf, tags b l ne]
  · rw [State.slot_of_slots (congrArg Staging.slots staging), State.endDrain_slot_other _ (other j fills)]
  · exact ((State.offerSlot_touches ..).keepsCommands).trans kept

end

/-! ## Released command tags (R73) -/

section
variable {s : State} {b c i l : Nat}

/-- The release of a tag leaves the tags of other orders. -/
theorem State.setTag_tagOf (held : s.tagHolder b i = some c) (ne : l ≠ c) (d : Nat) : (s.setTag b i none).tagOf d l = s.tagOf d l := by
  refine State.tagOf_congr fun j => ?_
  rw [State.tagHolder_setTag]
  split
  · next e =>
    obtain ⟨rfl, rfl⟩ := e
    rw [held]
    exact ⟨nofun, fun e => absurd (Option.some.inj e).symm ne⟩
  · rfl

theorem State.setTag_tagHolder (s : State) (b i : Nat) : (s.setTag b i none).tagHolder b i = none := by
  rw [State.tagHolder_setTag, if_pos ⟨rfl, rfl⟩]

theorem State.releaseTag_tagOf (s : State) (b c : Nat) (ne : l ≠ c) (d : Nat) : (s.releaseTag b c).tagOf d l = s.tagOf d l := by
  unfold State.releaseTag
  split
  · rfl
  · next i own => exact State.setTag_tagOf (State.tagOf_eq_some.1 own).2.1 ne d

theorem State.releaseTag_tagHolder (own : s.tagOf b c = some i) : (s.releaseTag b c).tagHolder b i = none := by
  simp only [State.releaseTag, own, State.setTag_tagHolder]

end

end Sys2Proof.Machine
end

section
namespace Sys2Proof.Machine

set_option Elab.async false

/-! ## The end of an event that ended work of a bay (R68, R135, R142) -/

section
variable {s u : State} {b c : Nat}

/-- A request for a spin-up changes no more of the Exchange Port than whether a Bay Summary rewrite is held. -/
theorem State.requestSpinUp_ports (s : State) (b : Nat) : ∃ held, (s.requestSpinUp b).exchange =
    { s.exchange with summaryPort := { s.exchange.summaryPort with held := held } }
      ∧ (held = true ↔ s.exchange.summaryPort.held = true ∨ (s.asksSpinUp b ∧ (s.bay b).state = .spunDown))
      ∧ (s.requestSpinUp b).capture = s.capture := by
  by_cases asks : s.asksSpinUp b
  · obtain ⟨⟨r, held, form, own⟩, -⟩ := State.requestSpinUp_asked asks
    exact ⟨held, by rw [form]; rfl, by rw [own, and_iff_right asks], by rw [form]; rfl⟩
  · exact ⟨s.exchange.summaryPort.held, by rw [State.requestSpinUp_none asks], (or_iff_left fun h => asks h.1).symm,
      by rw [State.requestSpinUp_none asks]⟩

theorem State.workEnded_summaryAsked (port : u.exchange.summaryPort = { s.exchange.summaryPort with held := true })
    (seq : u.exchange.summarySeq = s.exchange.summarySeq) (base : u.exchange.base = s.exchange.base) (b : Nat) :
    s.summaryAsked (u.workEnded b) := by
  obtain ⟨held, exchange, own, -⟩ := u.requestSpinUp_ports b
  have tested : Touches [.records] (u.requestSpinUp b) ((u.requestSpinUp b).completionTest b) := State.completionTest_touches ..
  have ports := tested.same .ports (by decide)
  refine State.summaryAsked_of_request (ports.2.1.trans ?_) (ports.2.2.1.trans ?_) (tested.base.trans ?_)
  · rw [exchange, own.2 (.inl (by rw [port])), port]
  · rw [exchange, ← seq]
  · rw [exchange, ← base]

theorem State.workEnded_summaryNotAsked (port : u.exchange.summaryPort = s.exchange.summaryPort)
    (seq : u.exchange.summarySeq = s.exchange.summarySeq) (b : Nat) (up : (u.bay b).state ≠ .spunDown) :
    s.summaryNotAsked (u.workEnded b) := by
  obtain ⟨held, exchange, own, -⟩ := u.requestSpinUp_ports b
  have ports := (State.completionTest_touches (u.requestSpinUp b) b).same .ports (by decide)
  refine State.summaryNotAsked_of_same (ports.2.1.trans ?_) (ports.2.2.1.trans ?_)
  · have same : held = u.exchange.summaryPort.held :=
      Bool.eq_iff_iff.2 (own.trans (or_iff_left fun h => up h.2))
    rw [exchange, same, port]
  · rw [exchange, ← seq]

/-- Neither a request for a spin-up nor a completion test counts a media error. -/
theorem State.workEnded_mediaErrors (u : State) (b : Nat) : ((u.workEnded b).bay b).mediaErrors = (u.bay b).mediaErrors := by
  have asked : ((u.requestSpinUp b).bay b).mediaErrors = (u.bay b).mediaErrors := by
    rcases u.requestSpinUp_bay b b with e | e <;> rw [e]
    unfold Bay.asked
    split <;> rfl
  rw [State.workEnded, (State.beginRecords_touches ..).bay, State.completionTest]
  split
  · rw [State.send_bay]
    split <;> exact asked
  · exact asked

end

/-! ## The slot that a report names (R123) -/

section
variable {s t : State} {b i n j k c : Nat} {st : SlotState} {ps : List Part} {d : Command} {tag : Fin 4}

theorem State.slotOf_eq_some (h : s.slotOf b i st = some k) :
    ∃ c, s.tagHolder b i = some c ∧ (s.slot k).state = st ∧ (s.slot k).lead = some c ∧ ∃ p, (s.slot k).place = some p ∧ p.bay = b := by
  unfold State.slotOf at h
  split at h
  · cases h
  · next c held =>
    have mem := List.mem_of_mem_head? h
    rw [State.mem_slotsWhere (by simp [Slot.free, Slot.onBay])] at mem
    simp only [Bool.and_eq_true, beq_iff_eq] at mem
    obtain ⟨⟨own, on⟩, lead⟩ := mem
    refine ⟨c, held, own, lead, ?_⟩
    unfold Slot.onBay at on
    split at on
    · cases on
    · next p place => exact ⟨p, place, beq_iff_eq.1 on⟩

theorem Touches.slotOf (h : Touches ps s t) (b i : Nat) (st : SlotState) (w : Part.staging ∉ ps := by decide)
    (w' : Part.arbiters ∉ ps := by decide) : t.slotOf b i st = s.slotOf b i st := by
  simp only [State.slotOf, State.slotsWhere, State.slot, h.tagHolder b i w', h.staging w]

theorem State.outstanding_of (found : s.command b (some tag) n = some d) : s.outstanding b (some tag) n d.kind = true := by
  rw [State.outstanding, found]
  exact beq_self_eq_true _

/-- An order that holds one of the four tags has a tag. -/
theorem State.tagOf_of_holder (held : s.tagHolder b i = some c) (bound : i < 4) : ∃ m, s.tagOf b c = some m := by
  cases own : s.tagOf b c with
  | none => exact absurd held (State.tagOf_eq_none.1 own i bound)
  | some m => exact ⟨m, rfl⟩

end

/-! ## Fills (R86, R95, R96) -/

section
variable {s u : State} {b c g i j k n data : Nat} {p : Place} {x : Transfer} {js : List Nat}

theorem State.diskReadEnd_fill {tag : Fin 4} {d : Command} (serving : s.serving = true) (found : s.command b (some tag) n = some d)
    (kind : d.kind = .read) (slot : s.slotOf b tag .filling = some k) :
    s.diskReadEnd b tag n data = ((s.endCommand b (some tag) n).fillEnds k b tag data).workEnded b := by
  have ended := s.endCommand_touches b (some tag) n
  have report : s.outstanding b (some tag) n .read = true := kind ▸ State.outstanding_of found
  simp only [State.diskReadEnd, report, ended.serving, serving, ended.slotOf, slot, if_true]

/-- A counter after several additions, each of which saturates: what their sum adds to it. -/
theorem Counter.add_add (v : Counter) (m n : Nat) : (v.add m).add n = v.add (m + n) := by
  simp only [Counter.add, Counter.mk.injEq, and_true]
  omega

/-- The staged blocks of the deliveries of some transfers (R153). -/
def Counter.stagedBy (v : Counter) (xs : List Transfer) : Counter := if xs = [] then v else v.add (xs.map (fun x => x.count)).sum

theorem Counter.stagedBy_cons (v : Counter) (x : Transfer) (xs : List Transfer) : v.stagedBy (x :: xs) = (v.add x.count).stagedBy xs := by
  unfold Counter.stagedBy
  rw [if_neg (List.cons_ne_nil x xs)]
  split
  · next e => subst e; rfl
  · rw [Counter.add_add]; rfl

theorem State.deliverJoiner_items (s : State) (k c : Nat) : (s.deliverJoiner k c).engine.items =
    s.engine.items ++ [{ cell := c, slot := k, fetch := false, led := false, channel := none }] := by
  unfold State.deliverJoiner
  dsimp only
  split
  · rw [(State.meterStaged_touches ..).same .engine (by decide)]; rfl
  · rfl

theorem State.deliverJoiner_staged (s : State) (k c g : Nat) : ((s.deliverJoiner k c).meter g).staged =
    (s.meter g).staged.stagedBy (((s.transfer? c).toList).filter (fun x => x.group == g)) := by
  have started : Touches [.engine] s (s.startItem { cell := c, slot := k, fetch := false, led := false, channel := none }) :=
    State.startItem_touches ..
  unfold State.deliverJoiner
  dsimp only
  rw [started.transfer]
  cases s.transfer? c with
  | none => exact congrArg GroupMeter.staged (started.meter g)
  | some x =>
    dsimp only [Option.toList]
    rw [State.meterStaged_meter, started.meter, started.meter]
    by_cases e : x.group = g
    · rw [if_pos e.symm, List.filter_cons_of_pos (by simp [e]), List.filter_nil, Counter.stagedBy_cons, e]
      rfl
    · rw [if_neg (Ne.symm e), List.filter_cons_of_neg (by simp [e]), List.filter_nil]
      rfl

theorem Counter.stagedBy_append (v : Counter) (xs ys : List Transfer) : v.stagedBy (xs ++ ys) = (v.stagedBy xs).stagedBy ys := by
  induction xs generalizing v with
  | nil => rfl
  | cons x xs ih => rw [List.cons_append, Counter.stagedBy_cons, ih, Counter.stagedBy_cons]

/-- The joiners' deliveries start in their order, and each counts its blocks as staged. -/
theorem State.deliverJoiners (k : Nat) (js : List Nat) (s : State) :
    Touches [.engine, .meters] s (js.foldl (fun s c => s.deliverJoiner k c) s)
      ∧ (js.foldl (fun s c => s.deliverJoiner k c) s).engine.items =
        s.engine.items ++ js.map (fun j => { cell := j, slot := k, fetch := false, led := false, channel := none })
      ∧ ∀ g, ((js.foldl (fun s c => s.deliverJoiner k c) s).meter g).staged =
        (s.meter g).staged.stagedBy ((js.filterMap s.transfer?).filter (fun x => x.group == g)) := by
  induction js generalizing s with
  | nil => exact ⟨Touches.refl .., (List.append_nil _).symm, fun g => rfl⟩
  | cons c js ih =>
    obtain ⟨touched, items, staged⟩ := ih (s.deliverJoiner k c)
    have one := s.deliverJoiner_touches k c
    refine ⟨touched.after rfl one, ?_, fun g => ?_⟩
    · rw [List.foldl_cons, items, State.deliverJoiner_items, List.append_assoc]
      rfl
    · rw [List.foldl_cons, staged, State.deliverJoiner_staged, ← Counter.stagedBy_append, ← List.filter_append,
        show (s.deliverJoiner k c).transfer? = s.transfer? from funext fun d => one.transfer d]
      congr 2
      rw [List.filterMap_cons]
      cases s.transfer? c <;> rfl

/-- A fill that ends good, seen in its slot, the residency list, the deliveries and the meters. -/
theorem State.fillGood_ends (place : (s.slot k).place = some p) (lead : (s.slot k).lead = some c) (b i data : Nat) :
    (s.fillGood k b i data).slot k = { Slot.free with
          state := .resident, place := some p, deliveries := 1 + (s.slot k).joiners.length, data := some (data % 2 ^ (8 * 4096 * p.count)) }
      ∧ (s.fillGood k b i data).staging.residency = s.staging.residency.filter (fun j => j != k) ++ [k]
      ∧ (s.fillGood k b i data).tagHolder b i = none
      ∧ (s.fillGood k b i data).engine.items = s.engine.items ++ { cell := c, slot := k, fetch := false, led := true, channel := none }
          :: (s.slot k).joiners.map (fun j => { cell := j, slot := k, fetch := false, led := false, channel := none })
      ∧ ∀ g, ((s.fillGood k b i data).meter g).staged =
          (s.meter g).staged.stagedBy (((s.slot k).joiners.filterMap s.transfer?).filter (fun x => x.group == g)) := by
  let v : Slot := { Slot.free with state := .resident, place := some p, deliveries := 1 + (s.slot k).joiners.length,
                                   data := some (data % 2 ^ (8 * 4096 * p.count)) }
  let u : State := ((s.setSlot k v).touch k).startItem { cell := c, slot := k, fetch := false, led := true, channel := none }
  have before : Touches [.staging, .engine] s u :=
    (State.startItem_touches ..).after rfl ((State.touch_touches ..).after rfl ((State.setSlot_touches ..).mono rfl))
  have whole : s.fillGood k b i data = (((s.slot k).joiners.foldl (fun s c => s.deliverJoiner k c) u).setTag b i none) := by
    simp only [State.fillGood, place, lead, Option.map_some, Option.getD_some, cutData, Config.blockBytes, u, v]
  obtain ⟨joined, items, staged⟩ := State.deliverJoiners k (s.slot k).joiners u
  have last : Touches [.arbiters] _ (((s.slot k).joiners.foldl (fun s c => s.deliverJoiner k c) u).setTag b i none) := State.setTag_touches ..
  have slot : u.slot k = v := (State.slot_setSlot s k k v).trans (if_pos rfl)
  rw [whole]
  refine ⟨?_, ?_, State.setTag_tagHolder .., ?_, fun g => ?_⟩
  · rw [last.slot, joined.slot, slot]
  · rw [last.staging, joined.staging]
    rfl
  · rw [last.same .engine (by decide), items]
    exact List.append_assoc ..
  · rw [last.meter, staged, before.meter, show u.transfer? = s.transfer? from funext fun d => before.transfer d]

/-- A fill that ends without data: its orders are answered, and its slot is offered. -/
theorem State.fillFails_ends (serving : s.serving = true) (lead : (s.slot k).lead = some c) (b i : Nat) (r : Result) (detail : Nat) :
    s.offered (s.fillFails k b i r detail) k
      ∧ (s.fillFails k b i r detail).tagHolder b i = none
      ∧ s.answered (s.fillFails k b i r detail) ((c :: (s.slot k).joiners).map (fun j => plain j r detail)) := by
  have orders : (s.slot k).orders = c :: (s.slot k).joiners := by rw [Slot.orders, lead]; rfl
  have replied := State.replyAll_touches s (s.slot k).orders r detail
  have freed : Touches [.staging, .arbiters] (s.replyAll (s.slot k).orders r detail)
      (((s.replyAll (s.slot k).orders r detail).freeSlot k).setTag b i none) :=
    (State.setTag_touches ..).after rfl ((State.freeSlot_touches ..).mono rfl)
  have offer : Touches [.staging] _ (s.fillFails k b i r detail) := State.offerSlot_touches ..
  have part : Touches [.staging, .arbiters] (s.replyAll (s.slot k).orders r detail) (s.fillFails k b i r detail) := offer.after rfl freed
  refine ⟨State.offered_of ?_ ?_ ?_ ?_, ?_, ?_⟩
  · rw [freed.serving, replied.serving, serving]
  · rw [(State.setTag_touches ..).slot, State.freeSlot_slot, if_pos rfl]
  · rw [(State.setTag_touches ..).staging]
    show (s.replyAll (s.slot k).orders r detail).staging.slotWait = _
    rw [replied.staging]
  · rw [(State.setTag_touches ..).staging]
    exact fun mem => absurd (List.mem_filter.1 mem).2 (by simp)
  · rw [offer.tagHolder, State.setTag_tagHolder]
  · have all := (s.replyAll_answered (s.slot k).orders r detail).trans part.answered_nil replied.serving
    rwa [List.append_nil, orders] at all

end

end Sys2Proof.Machine
end

section
namespace Sys2Proof.Machine

set_option Elab.async false

/-! ## A fill that is due to be read again (R95) -/

section
variable {s : State} {b c i j k n : Nat} {p : Place}

theorem State.fillAgain_blocked (blocked : (s.slot k).blocking ≠ []) :
    s.fillAgain k = s.setSlot k { s.slot k with readEnded := true } :=
  if_neg (by rwa [List.isEmpty_iff])

theorem State.fillAgain_reissued (place : (s.slot k).place = some p) (lead : (s.slot k).lead = some c) (tag : s.tagOf p.bay c = some n)
    (left : (s.slot k).blocking = []) :
    ∃ u, s.fillAgain k = u.sendFill (p, n) ∧ Touches [.staging] s u ∧ s.otherSlots u k
      ∧ u.slot k = { s.slot k with refetch := false, refetchCount := (s.slot k).refetchCount + 1, readEnded := false } := by
  have put : Touches [.staging] s (s.setSlot k { s.slot k with readEnded := true }) := State.setSlot_touches ..
  have own : (s.setSlot k { s.slot k with readEnded := true }).slot k = { s.slot k with readEnded := true } :=
    (State.slot_setSlot ..).trans (if_pos rfl)
  have again := (s.setSlot k { s.slot k with readEnded := true }).reissue_eq k
  rw [Slot.sendTag_eq_some (p := p) (n := n) (by rw [own, place]) (by rw [own, lead]) (by rw [put.tagOf, tag])] at again
  have waits : s.fillAgain k = (s.setSlot k { s.slot k with readEnded := true }).reissue k := if_pos (by rw [left]; rfl)
  refine ⟨_, waits.trans again, (State.setSlot_touches ..).after rfl put, fun j ne => ?_, ?_⟩
  · rw [State.slot_setSlot, if_neg ne, State.slot_setSlot, if_neg ne]
  · rw [State.slot_setSlot, if_pos rfl, own]
    rfl

end

/-! ## Media errors (R47, R97, R126) -/

section
variable {s t u : State} {b c i j k n firstBad : Nat} {p : Place} {x : Transfer}

/-- A command that is sent counts no media error of any bay. -/
theorem State.sendFill_mediaErrors (s : State) (e : Place × Nat) (b : Nat) : ((s.sendFill e).bay b).mediaErrors = (s.bay b).mediaErrors := by
  by_cases own : b = e.1.bay
  · subst own
    rw [State.sendFill, State.send_bay]
    split <;> rfl
  · rw [State.sendFill, State.send_bay_other _ _ own]

theorem State.unblock_mediaErrors (s : State) (c b : Nat) : ((s.unblock c).bay b).mediaErrors = (s.bay b).mediaErrors := by
  have one : ∀ (u : State) k, ((u.unblockSlot c k).bay b).mediaErrors = (u.bay b).mediaErrors := fun u k => by
    rw [State.unblockSlot_eq]
    dsimp only
    split
    · rw [State.reissue_eq]
      split
      · exact State.sendFill_mediaErrors ..
      · rfl
    · rfl
  have each : ∀ (ks : List Nat) (u : State), ((ks.foldl (fun s k => s.unblockSlot c k) u).bay b).mediaErrors = (u.bay b).mediaErrors := by
    intro ks
    induction ks with
    | nil => exact fun u => rfl
    | cons k ks ih => exact fun u => (ih _).trans (one u k)
  exact each _ s

/-- The count of media errors, seen in the bay record and the request for a Bay Summary rewrite. -/
theorem State.countMediaError_ends (s : State) (b : Nat) :
    ((s.countMediaError b).bay b).mediaErrors = min 65535 ((s.bay b).mediaErrors + 1)
      ∧ ((s.countMediaError b).bay b).state = (s.bay b).state
      ∧ (s.countMediaError b).exchange.summarySeq = s.exchange.summarySeq
      ∧ ((s.bay b).mediaErrors < 65535 → (s.countMediaError b).exchange.summaryPort = { s.exchange.summaryPort with held := true })
      ∧ ((s.bay b).mediaErrors = 65535 → (s.countMediaError b).exchange.summaryPort = s.exchange.summaryPort) := by
  unfold State.countMediaError
  split
  · next full => exact ⟨by rw [full]; rfl, rfl, rfl, fun few => absurd full (Nat.ne_of_lt few), fun _ => rfl⟩
  · next few =>
    have own (v : Bay) : (s.putBay b v).bay b = v := (State.bay_setBay s b b v).trans (if_pos rfl)
    exact ⟨by rw [own], by rw [own], rfl, fun _ => rfl, fun full => absurd full few⟩

theorem State.mediaError_transfer {tag : Fin 4} {d : Command} (serving : s.serving = true) (found : s.command b (some tag) n = some d)
    (kind : d.kind.isTransfer = true) : s.mediaError b (some tag) n firstBad = s.mediaOn b tag n d.kind firstBad := by
  simp only [State.mediaError, found, kind, serving, if_true]

/-- A media error on a control command is taken as a link error (R123). -/
theorem State.mediaError_control {tag : Option (Fin 4)} {d : Command} (found : s.command b tag n = some d) (kind : d.kind.isTransfer = false) :
    s.mediaError b tag n firstBad = s.linkError b tag n := by
  unfold State.mediaError
  rw [found]
  cases tag with
  | none => rfl
  | some i => dsimp only; rw [kind, if_neg Bool.false_ne_true]

/-- The state in which the slot of a media error is found. -/
def State.mediaCounted (s : State) (b : Nat) (tag : Fin 4) (n : Nat) : State := (s.endCommand b (some tag) n).countMediaError b

theorem State.mediaCounted_touches (s : State) (b : Nat) (tag : Fin 4) (n : Nat) : Touches [.records, .ports] s (s.mediaCounted b tag n) :=
  (State.countMediaError_touches ..).after rfl ((State.endCommand_touches ..).mono rfl)

theorem State.mediaOn_read {tag : Fin 4} (slot : s.slotOf b tag .filling = some k) : s.mediaOn b tag n .read firstBad =
    ((s.mediaCounted b tag n).fillFails k b tag .mediaError firstBad).workEnded b := by
  have own : ((s.endCommand b (some tag) n).countMediaError b).slotOf b tag .filling = some k :=
    ((s.mediaCounted_touches b tag n).slotOf ..).trans slot
  simp only [State.mediaOn, if_true, own, State.mediaCounted]

theorem State.mediaOn_write {tag : Fin 4} (slot : s.slotOf b tag .draining = some k) : s.mediaOn b tag n .write firstBad =
    ((s.mediaCounted b tag n).drainFails k b tag firstBad).workEnded b := by
  have own : ((s.endCommand b (some tag) n).countMediaError b).slotOf b tag .draining = some k :=
    ((s.mediaCounted_touches b tag n).slotOf ..).trans slot
  simp only [State.mediaOn, reduceCtorEq, if_false, own, State.mediaCounted]

/-- A media error is counted once in an event whose work at the slot counts none. -/
theorem State.mediaEnded_errors (tag : Fin 4) (bay : (u.bay b).mediaErrors = ((s.mediaCounted b tag n).bay b).mediaErrors) :
    ((u.workEnded b).bay b).mediaErrors = min 65535 ((s.bay b).mediaErrors + 1) := by
  have own : (s.endCommand b (some tag) n).bay b = (s.bay b).endCommand (some tag.val) n := (State.endCommand_bay ..).trans (if_pos rfl)
  have errors := ((s.endCommand b (some tag) n).countMediaError_ends b).1
  rw [own] at errors
  rw [State.workEnded_mediaErrors, bay]
  exact errors

/-- Where the count of media errors changes, a Bay Summary rewrite is asked for. -/
theorem State.mediaEnded_asked (tag : Fin 4) {ps : List Part} (work : Touches ps (s.mediaCounted b tag n) u) (ports : Part.ports ∉ ps)
    (base : Part.base ∉ ps) (few : (s.bay b).mediaErrors < 65535) : s.summaryAsked (u.workEnded b) := by
  have ended := s.endCommand_touches b (some tag) n
  have own : (s.endCommand b (some tag) n).bay b = (s.bay b).endCommand (some tag.val) n := (State.endCommand_bay ..).trans (if_pos rfl)
  obtain ⟨-, -, seq, asked, -⟩ := (s.endCommand b (some tag) n).countMediaError_ends b
  rw [own] at asked
  obtain ⟨-, port, number, -⟩ := work.same .ports ports
  obtain ⟨-, before, first, -⟩ := ended.same .ports (by decide)
  refine State.workEnded_summaryAsked ?_ (number.trans (seq.trans first)) ?_ b
  · rw [← before]
    exact port.trans (asked few)
  · exact (work.base base).trans (s.mediaCounted_touches b tag n).base

/-- Where the count is at its limit, an ONLINE bay asks for none. -/
theorem State.mediaEnded_quiet (tag : Fin 4) {ps : List Part} (work : Touches ps (s.mediaCounted b tag n) u) (ports : Part.ports ∉ ps)
    (records : Part.records ∉ ps) (full : (s.bay b).mediaErrors = 65535) (online : (s.bay b).state = .online) :
    s.summaryNotAsked (u.workEnded b) := by
  have ended := s.endCommand_touches b (some tag) n
  have own : (s.endCommand b (some tag) n).bay b = (s.bay b).endCommand (some tag.val) n := (State.endCommand_bay ..).trans (if_pos rfl)
  obtain ⟨-, state, seq, -, quiet⟩ := (s.endCommand b (some tag) n).countMediaError_ends b
  rw [own] at state quiet
  obtain ⟨-, port, number, -⟩ := work.same .ports ports
  obtain ⟨-, before, first, -⟩ := ended.same .ports (by decide)
  refine State.workEnded_summaryNotAsked ?_ (number.trans (seq.trans first)) b ?_
  · rw [← before]
    exact port.trans (quiet full)
  · rw [work.bay b records, show ((s.mediaCounted b tag n).bay b).state = (s.bay b).state from state, online]
    decide

end

/-! ## Drains (R42, R47, R91, R113) -/

section
variable {s t u : State} {b c i j k n firstBad : Nat} {p : Place} {x : Transfer}

theorem State.diskWriteEnd_drain {tag : Fin 4} {d : Command} (serving : s.serving = true) (found : s.command b (some tag) n = some d)
    (kind : d.kind = .write) (slot : s.slotOf b tag .draining = some k) :
    s.diskWriteEnd b tag n = ((s.endCommand b (some tag) n).drainGood k b tag).workEnded b := by
  have ended := s.endCommand_touches b (some tag) n
  have report : s.outstanding b (some tag) n .write = true := kind ▸ State.outstanding_of found
  simp only [State.diskWriteEnd, report, ended.serving, serving, ended.slotOf, slot, if_true]

/-- The answer of a write whose disk write ended good. -/
def Transfer.writeAnswer (x : Transfer) (c : Nat) : AnswerWrite :=
  if x.residue = 0 then reported c .ok (x.reserved.getD 0) x.count .disk else reported c .okTruncated x.residue x.count .disk

theorem State.answerWrite_answered (made : s.transfer? c = some x) : s.answered (s.answerWrite c) [x.writeAnswer c] := by
  unfold State.answerWrite Transfer.writeAnswer
  simp only [made]
  split <;> exact State.answerWith_answered ..

theorem State.answerMediaWrite_answered (made : s.transfer? c = some x) : s.answered (s.answerMediaWrite c firstBad)
    [reported c .mediaError firstBad (min (firstBad - x.first) x.count) (sourceOf true (min (firstBad - x.first) x.count))] := by
  unfold State.answerMediaWrite
  simp only [made]
  exact State.answerWith_answered ..

/-- The drain of slot k has ended good: the slot is RESIDENT, the tag is released and the write is answered. -/
def State.drained (s : State) (k b i c : Nat) : State :=
  (((s.setSlot k { Slot.free with state := .resident, place := (s.slot k).place, data := (s.slot k).data }).touch k).setTag b i none).answerWrite c

theorem State.drainGood_eq (lead : (s.slot k).lead = some c) (b i : Nat) :
    s.drainGood k b i = ((s.drained k b i c).unblock c).offerSlot k := by
  simp only [State.drainGood, lead, State.drained]

theorem State.drained_ends (k b i c : Nat) : Touches [.staging, .arbiters, .answers] s (s.drained k b i c)
    ∧ (∀ j, (s.drained k b i c).slot j = if j = k then
        { Slot.free with state := .resident, place := (s.slot k).place, data := (s.slot k).data } else s.slot j)
    ∧ (s.drained k b i c).staging.slotWait = s.staging.slotWait
    ∧ (s.drained k b i c).tagHolder b i = none
    ∧ (∀ l, s.tagHolder b i = some c → l ≠ c → ∀ d, (s.drained k b i c).tagOf d l = s.tagOf d l)
    ∧ (∀ x, s.transfer? c = some x → s.answered (s.drained k b i c) [x.writeAnswer c]) := by
  obtain ⟨v, hv⟩ : ∃ v, v = { Slot.free with state := .resident, place := (s.slot k).place, data := (s.slot k).data } := ⟨_, rfl⟩
  have put : Touches [.staging] s ((s.setSlot k v).touch k) := (State.touch_touches ..).after rfl (State.setSlot_touches ..)
  have tag : Touches [.arbiters] ((s.setSlot k v).touch k) (((s.setSlot k v).touch k).setTag b i none) := State.setTag_touches ..
  have both : Touches [.staging, .arbiters] s (((s.setSlot k v).touch k).setTag b i none) := tag.after rfl (put.mono rfl)
  have answer := State.answerWrite_touches (((s.setSlot k v).touch k).setTag b i none) c
  rw [State.drained, ← hv]
  refine ⟨answer.after rfl (both.mono rfl), fun j => ?_, ?_, ?_, fun l held ne d => ?_, fun x made => ?_⟩
  · rw [answer.slot, tag.slot]
    exact State.slot_setSlot ..
  · rw [answer.staging, tag.staging]
    rfl
  · rw [answer.tagHolder, State.setTag_tagHolder]
  · rw [answer.tagOf, State.setTag_tagOf (by rw [put.tagHolder, held]) ne, put.tagOf]
  · exact both.answered_nil.trans (State.answerWrite_answered (by rw [both.transfer, made])) both.serving

theorem State.drainGood_ends (serving : s.serving = true) (drains : (s.slot k).state = .draining) (lead : (s.slot k).lead = some c)
    (held : s.tagHolder b i = some c) (made : s.transfer? c = some x) :
    (s.drainGood k b i).tagHolder b i = none
      ∧ s.answered (s.drainGood k b i) [x.writeAnswer c]
      ∧ s.offeredResident (s.drainGood k b i) k { Slot.free with state := .resident, place := (s.slot k).place, data := (s.slot k).data }
      ∧ ∀ t, t.staging = (s.drainGood k b i).staging → (s.drainGood k b i).keepsCommands t → s.unblocked t c := by
  obtain ⟨touched, slots, list, none, tags, answer⟩ := s.drained_ends k b i c
  have free : ((s.drained k b i c).unblock c).slot k = _ := (State.unblock_slot_other (by rw [slots, if_pos rfl]; exact nofun)).trans
    ((slots k).trans (if_pos rfl))
  obtain ⟨table, staging⟩ := (s.drained k b i c).unblock_staging c
  have unblocks := State.unblock_touches (s.drained k b i c) c
  have rest : Touches [.staging, .records] (s.drained k b i c) (s.drainGood k b i) := by
    rw [State.drainGood_eq lead]
    exact (State.offerSlot_touches ..).after rfl unblocks
  have other : ∀ j, (s.slot j).state = .filling → j ≠ k := fun j fills e => by rw [e, drains] at fills; cases fills
  refine ⟨by rw [rest.tagHolder, none], ?_, ?_, fun t same kept => ?_⟩
  · have all := (answer x made).trans rest.answered_nil touched.serving
    rwa [List.append_nil] at all
  · rw [State.drainGood_eq lead]
    exact State.offeredResident_of (by rw [unblocks.serving, touched.serving, serving]) free rfl rfl (by rw [staging]; exact list)
  · refine State.unblocked_of (u := s.drained k b i c) (fun j fills => by rw [slots, if_neg (other j fills)])
      (fun d l ne => tags l held ne d) (fun j fills => ?_) ?_
    · rw [State.slot_of_slots (congrArg Staging.slots same), State.drainGood_eq lead, State.offerSlot_slot_other _ (other j fills)]
    · rw [State.drainGood_eq lead] at kept
      exact (State.offerSlot_touches ..).keepsCommands.trans kept

theorem State.drainFails_eq (lead : (s.slot k).lead = some c) (b i firstBad : Nat) :
    s.drainFails k b i firstBad = ((s.answerMediaWrite c firstBad).setTag b i none).endDrain k c := by
  simp only [State.drainFails, lead]

theorem State.drainFails_mediaErrors (lead : (s.slot k).lead = some c) (b i firstBad d : Nat) :
    ((s.drainFails k b i firstBad).bay d).mediaErrors = (s.bay d).mediaErrors := by
  have before : Touches [.answers, .arbiters, .staging] s (((s.answerMediaWrite c firstBad).setTag b i none).freeSlot k) :=
    (State.freeSlot_touches ..).after rfl ((State.setTag_touches ..).after rfl ((State.answerMediaWrite_touches ..).mono rfl))
  rw [State.drainFails_eq lead, State.endDrain, (State.offerSlot_touches ..).bay, State.unblock_mediaErrors, before.bay]

theorem State.drainFails_ends (serving : s.serving = true) (drains : (s.slot k).state = .draining) (lead : (s.slot k).lead = some c)
    (held : s.tagHolder b i = some c) (made : s.transfer? c = some x) (firstBad : Nat) :
    (s.drainFails k b i firstBad).tagHolder b i = none
      ∧ s.answered (s.drainFails k b i firstBad)
          [reported c .mediaError firstBad (min (firstBad - x.first) x.count) (sourceOf true (min (firstBad - x.first) x.count))]
      ∧ s.offered (s.drainFails k b i firstBad) k
      ∧ ∀ t, t.staging = (s.drainFails k b i firstBad).staging → (s.drainFails k b i firstBad).keepsCommands t → s.unblocked t c := by
  have answer := State.answerMediaWrite_touches s c firstBad
  have tag : Touches [.arbiters] _ ((s.answerMediaWrite c firstBad).setTag b i none) := State.setTag_touches ..
  have both : Touches [.answers, .arbiters] s ((s.answerMediaWrite c firstBad).setTag b i none) := tag.after rfl (answer.mono rfl)
  have drain := State.endDrain_touches ((s.answerMediaWrite c firstBad).setTag b i none) k c
  rw [State.drainFails_eq lead]
  refine ⟨by rw [drain.tagHolder, State.setTag_tagHolder], ?_, ?_, fun t same kept => ?_⟩
  · have rest : Touches [.arbiters, .staging, .records] (s.answerMediaWrite c firstBad)
        (((s.answerMediaWrite c firstBad).setTag b i none).endDrain k c) := drain.after rfl (tag.mono rfl)
    have all := (State.answerMediaWrite_answered (firstBad := firstBad) made).trans rest.answered_nil answer.serving
    rwa [List.append_nil] at all
  · exact State.endDrain_offered k c (by rw [both.serving, serving]) (by rw [both.staging])
  · refine State.endDrain_unblocked (by rw [drains]; decide) (fun j => both.slot j) (fun d l ne => ?_) same kept
    rw [State.setTag_tagOf (by rw [answer.tagHolder, held]) ne, answer.tagOf]

end

end Sys2Proof.Machine
end

section
namespace Sys2Proof.Machine

set_option Elab.async false

/-! ## Reports of disk transfers, as commands (R123) -/

section

theorem exec_diskReadEnd (s : State) (b : Fin 24) (i : Fin 4) (n data : Nat) :
    exec (.diskReadEnd b ⟨i, n⟩ data) s = .next (s.diskReadEnd b i n data) := rfl
theorem exec_diskWriteEnd (s : State) (b : Fin 24) (i : Fin 4) (n : Nat) :
    exec (.diskWriteEnd b ⟨i, n⟩) s = .next (s.diskWriteEnd b i n) := rfl
theorem exec_mediaError (s : State) (b : Fin 24) (tag : Option (Fin 4)) (n : Nat) (firstBad : Word) :
    exec (.mediaError b ⟨tag, n⟩ firstBad) s = .next (s.mediaError b tag n firstBad.toNat) := rfl

end

/-! ## The reports of a read -/

section
variable {s u : State} {i k c : Nat} {p : Place}

/-- A fill that is due to be read again, at the end of its disk read. -/
theorem State.fillAgain_ends (touched : Touches [.records] s u) (place : (s.slot k).place = some p) (lead : (s.slot k).lead = some c)
    (held : s.tagHolder p.bay i = some c) (bound : i < 4) :
    (let t := (u.fillAgain k).workEnded p.bay
     s.otherSlots t k
      ∧ ((s.slot k).blocking ≠ [] → t.slot k = { s.slot k with readEnded := true })
      ∧ ((s.slot k).blocking = [] →
          t.slot k = { s.slot k with refetch := false, refetchCount := (s.slot k).refetchCount + 1, readEnded := false }
            ∧ ∃ e ∈ (if (s.lines p.bay).ready then (t.bay p.bay).outstanding else (t.bay p.bay).sendList),
                e.kind = .read ∧ e.first = p.first ∧ e.count = p.count ∧ e.tag = s.tagOf p.bay c)) := by
  have last := State.workEnded_touches (u.fillAgain k) p.bay
  have slot := touched.slot k
  dsimp only
  rw [last.slot]
  by_cases left : (s.slot k).blocking = []
  · obtain ⟨m, tag⟩ := State.tagOf_of_holder held bound
    obtain ⟨w, whole, put, others, own⟩ := State.fillAgain_reissued (s := u) (k := k) (p := p) (c := c) (n := m) (by rw [slot, place])
      (by rw [slot, lead]) (by rw [touched.tagOf, tag]) (by rw [slot, left])
    have sent := State.sendFill_touches w (p, m)
    refine ⟨fun j ne => ?_, fun more => absurd left more, fun _ => ⟨?_, ?_⟩⟩
    · rw [last.slot, whole, sent.slot, others j ne, touched.slot]
    · rw [whole, sent.slot, own, slot]
    · obtain ⟨e, kind, first, count, on, waits⟩ := w.sendFill_sent p m
      obtain ⟨out, list⟩ := (u.fillAgain k).workEnded_keepsCommands p.bay p.bay
      rw [whole] at out list ⊢
      rw [put.lines, touched.lines] at waits
      refine ⟨e, ?_, kind, first, count, by rw [on, tag]⟩
      split at waits
      · next ready => rw [if_pos ready]; exact out waits
      · next low => rw [if_neg low]; exact list waits
  · have whole := State.fillAgain_blocked (s := u) (k := k) (by rw [slot]; exact left)
    refine ⟨fun j ne => ?_, fun _ => ?_, fun none => absurd none left⟩
    · rw [last.slot, whole, State.slot_setSlot, if_neg ne, touched.slot]
    · rw [whole, State.slot_setSlot, if_pos rfl, slot]

end

section
variable {s t u : State} {b i k n c : Nat} {v : Slot} {p : Place} {x : Transfer} {d : Command} {tag : Fin 4} {ps : List Part}

theorem State.offered.since (h : u.offered t k) (same : u.staging = s.staging) : s.offered t k := by
  unfold State.offered at *
  rwa [← same]

theorem State.offeredResident.since (h : u.offeredResident t k v) (same : u.staging = s.staging) : s.offeredResident t k v :=
  ⟨fun none => h.1 (by rw [same]; exact none), fun some => (h.2 (by rw [same]; exact some)).since same⟩

theorem State.unblocked.since (h : u.unblocked t c) (touched : Touches ps s u) (staging : Part.staging ∉ ps) (arbiters : Part.arbiters ∉ ps) :
    s.unblocked t c := by
  have slot := fun j => touched.slot j staging
  have tag : u.tagOf = s.tagOf := funext₂ fun b l => touched.tagOf b l arbiters
  unfold State.unblocked at *
  simpa only [slot, tag] using h

/-- The answers of an event whose parts before and after decide none. -/
theorem State.answered.within {qs rs : List Part} {as : List AnswerWrite} {w : State} (before : Touches qs s u) (h : u.answered t as)
    (after : Touches rs t w) (serving : t.serving = u.serving) (first : Part.answers ∉ qs ∧ Part.part ∉ qs) (last : Part.answers ∉ rs) :
    s.answered w as := by
  have all := ((before.answered_nil first.1).trans h (before.serving first.2)).trans (after.answered_nil last)
    (serving.trans (before.serving first.2))
  rwa [List.nil_append, List.append_nil] at all

end

section
variable {s : State} {b : Fin 24} {i : Fin 4} {n data k c : Nat} {p : Place} {x : Transfer} {d : Command}

/-- A disk read that ends good fills its slot (R86). -/
theorem State.diskReadEnd_good (serving : s.serving = true) (found : s.command b (some i) n = some d) (kind : d.kind = .read)
    (slot : s.slotOf b i .filling = some k) (place : (s.slot k).place = some p) (lead : (s.slot k).lead = some c)
    (fresh : (s.slot k).staleRetry = false) (due : (s.slot k).refetch = false) (data : Nat) :
    (let t := s.diskReadEnd b i n data
     t.slot k = { Slot.free with state := .resident, place := some p, deliveries := 1 + (s.slot k).joiners.length,
                                 data := some (data % 2 ^ (8 * 4096 * p.count)) }
      ∧ t.staging.residency = s.staging.residency.filter (fun j => j != k) ++ [k] ∧ t.tagHolder b i = none
      ∧ t.engine.items = s.engine.items ++ { cell := c, slot := k, fetch := false, led := true, channel := none }
          :: (s.slot k).joiners.map (fun j => { cell := j, slot := k, fetch := false, led := false, channel := none })
      ∧ (∀ g, (t.meter g).staged =
          (s.meter g).staged.stagedBy (((s.slot k).joiners.filterMap s.transfer?).filter (fun x => x.group == g)))
      ∧ s.answered t []) := by
  have ended := s.endCommand_touches b (some i) n
  have last := fun u : State => u.workEnded_touches b
  have whole : (s.endCommand b (some i) n).fillEnds k b i data = (s.endCommand b (some i) n).fillGood k b i data := by
    simp only [State.fillEnds, ended.slot, fresh, due, Bool.false_eq_true, if_false]
  obtain ⟨own, residency, none, items, staged⟩ := State.fillGood_ends (s := s.endCommand b (some i) n) (k := k) (p := p) (c := c)
    (by rw [ended.slot, place]) (by rw [ended.slot, lead]) b i data
  have touched := State.fillGood_touches (s.endCommand b (some i) n) k b i data
  rw [ended.slot] at own items staged
  rw [State.diskReadEnd_fill (data := data) serving found kind slot, whole]
  refine ⟨by rw [(last _).slot, own], ?_, by rw [(last _).tagHolder, none], ?_, fun g => ?_, ?_⟩
  · rw [(last _).staging, residency, ended.staging]
  · rw [(last _).same .engine (by decide), items, ended.same .engine (by decide)]
  · rw [(last _).meter, staged, ended.meter, show (s.endCommand b (some i) n).transfer? = s.transfer? from funext fun d => ended.transfer d]
  · exact State.answered.within ended touched.answered_nil (last _) touched.serving (by decide) (by decide)

/-- A disk read of a fill that is marked STALE_RETRY (R96). -/
theorem State.diskReadEnd_stale (serving : s.serving = true) (found : s.command b (some i) n = some d) (kind : d.kind = .read)
    (slot : s.slotOf b i .filling = some k) (lead : (s.slot k).lead = some c) (stale : (s.slot k).staleRetry = true) (data : Nat) :
    s.offered (s.diskReadEnd b i n data) k ∧ (s.diskReadEnd b i n data).tagHolder b i = none
      ∧ s.answered (s.diskReadEnd b i n data) ((c :: (s.slot k).joiners).map (fun j => plain j .staleRetry k)) := by
  have ended := s.endCommand_touches b (some i) n
  have whole : (s.endCommand b (some i) n).fillEnds k b i data = (s.endCommand b (some i) n).fillFails k b i .staleRetry k := by
    simp only [State.fillEnds, ended.slot, stale, if_true]
  obtain ⟨offered, none, answered⟩ := State.fillFails_ends (s := s.endCommand b (some i) n) (k := k) (c := c) (by rw [ended.serving, serving])
    (by rw [ended.slot, lead]) b i .staleRetry k
  rw [ended.slot] at answered
  rw [State.diskReadEnd_fill (data := data) serving found kind slot, whole]
  have last := State.workEnded_touches ((s.endCommand b (some i) n).fillFails k b i .staleRetry k) b
  exact ⟨(offered.of_staging last.staging).since ended.staging, by rw [last.tagHolder, none],
    State.answered.within ended answered last (State.fillFails_touches ..).serving (by decide) (by decide)⟩

/-- A disk read that ends with a media error (R97, R126). -/
theorem State.mediaError_read (serving : s.serving = true) (found : s.command b (some i) n = some d) (kind : d.kind = .read)
    (slot : s.slotOf b i .filling = some k) (lead : (s.slot k).lead = some c) (firstBad : Nat) :
    (let t := s.mediaError b (some i) n firstBad
     s.offered t k ∧ t.tagHolder b i = none ∧ (t.bay b).mediaErrors = min 65535 ((s.bay b).mediaErrors + 1)
      ∧ ((s.bay b).mediaErrors < 65535 → s.summaryAsked t)
      ∧ ((s.bay b).mediaErrors = 65535 → (s.bay b).state = .online → s.summaryNotAsked t)
      ∧ s.answered t ((c :: (s.slot k).joiners).map (fun j => plain j .mediaError firstBad))) := by
  have counted := s.mediaCounted_touches b i n
  obtain ⟨offered, none, answered⟩ := State.fillFails_ends (s := s.mediaCounted b i n) (k := k) (c := c) (by rw [counted.serving, serving])
    (by rw [counted.slot, lead]) b i .mediaError firstBad
  have touched := State.fillFails_touches (s.mediaCounted b i n) k b i .mediaError firstBad
  rw [counted.slot] at answered
  rw [State.mediaError_transfer serving found (by rw [kind]; rfl), kind, State.mediaOn_read slot]
  generalize (s.mediaCounted b i n).fillFails k b i .mediaError firstBad = u at *
  have last := u.workEnded_touches b
  exact ⟨(offered.of_staging last.staging).since counted.staging, by rw [last.tagHolder, none],
    State.mediaEnded_errors i (by rw [touched.bay]), fun few => State.mediaEnded_asked i touched (by decide) (by decide) few,
    fun full online => State.mediaEnded_quiet i touched (by decide) (by decide) full online,
    State.answered.within counted answered last touched.serving (by decide) (by decide)⟩

/-- A disk write that ends good (R91, R113). -/
theorem State.diskWriteEnd_good (serving : s.serving = true) (found : s.command b (some i) n = some d) (kind : d.kind = .write)
    (slot : s.slotOf b i .draining = some k) (lead : (s.slot k).lead = some c) (made : s.transfer? c = some x) :
    (let t := s.diskWriteEnd b i n
     t.tagHolder b i = none ∧ s.unblocked t c
      ∧ s.offeredResident t k { Slot.free with state := .resident, place := (s.slot k).place, data := (s.slot k).data }
      ∧ s.answered t [x.writeAnswer c]) := by
  obtain ⟨c', held, drains, lead', -⟩ := State.slotOf_eq_some slot
  cases lead.symm.trans lead'
  have ended := s.endCommand_touches b (some i) n
  obtain ⟨none, answered, offered, unblocked⟩ := State.drainGood_ends (s := s.endCommand b (some i) n) (k := k) (c := c) (x := x) (b := b) (i := i)
    (by rw [ended.serving, serving]) (by rw [ended.slot, drains]) (by rw [ended.slot, lead]) (by rw [ended.tagHolder, held])
    (by rw [ended.transfer, made])
  have touched := State.drainGood_touches (s.endCommand b (some i) n) k b i
  rw [ended.slot] at offered
  rw [State.diskWriteEnd_drain serving found kind slot]
  have last := State.workEnded_touches ((s.endCommand b (some i) n).drainGood k b i) b
  exact ⟨by rw [last.tagHolder, none],
    (unblocked _ last.staging (State.workEnded_keepsCommands _ _)).since ended (by decide) (by decide),
    (offered.of_staging last.staging).since ended.staging,
    State.answered.within ended answered last touched.serving (by decide) (by decide)⟩

/-- A disk write that ends with a media error (R47, R91, R126). -/
theorem State.mediaError_write (serving : s.serving = true) (found : s.command b (some i) n = some d) (kind : d.kind = .write)
    (slot : s.slotOf b i .draining = some k) (lead : (s.slot k).lead = some c) (made : s.transfer? c = some x) (firstBad : Nat) :
    (let t := s.mediaError b (some i) n firstBad
     s.offered t k ∧ t.tagHolder b i = none ∧ (t.bay b).mediaErrors = min 65535 ((s.bay b).mediaErrors + 1) ∧ s.unblocked t c
      ∧ s.answered t
        [reported c .mediaError firstBad (min (firstBad - x.first) x.count) (sourceOf true (min (firstBad - x.first) x.count))]) := by
  obtain ⟨c', held, drains, lead', -⟩ := State.slotOf_eq_some slot
  cases lead.symm.trans lead'
  have counted := s.mediaCounted_touches b i n
  obtain ⟨none, answered, offered, unblocked⟩ := State.drainFails_ends (s := s.mediaCounted b i n) (k := k) (c := c) (x := x) (b := b) (i := i)
    (by rw [counted.serving, serving]) (by rw [counted.slot, drains]) (by rw [counted.slot, lead]) (by rw [counted.tagHolder, held])
    (by rw [counted.transfer, made]) firstBad
  have touched := State.drainFails_touches (s.mediaCounted b i n) k b i firstBad
  rw [State.mediaError_transfer serving found (by rw [kind]; rfl), kind, State.mediaOn_write slot]
  have last := State.workEnded_touches ((s.mediaCounted b i n).drainFails k b i firstBad) b
  exact ⟨(offered.of_staging last.staging).since counted.staging, by rw [last.tagHolder, none],
    State.mediaEnded_errors i (State.drainFails_mediaErrors (by rw [counted.slot, lead]) b i firstBad b),
    (unblocked _ last.staging (State.workEnded_keepsCommands _ _)).since counted (by decide) (by decide),
    State.answered.within counted answered last touched.serving (by decide) (by decide)⟩

/-- A disk read of a fill that is due to be read again (R95). -/
theorem State.diskReadEnd_again (serving : s.serving = true) (found : s.command b (some i) n = some d) (kind : d.kind = .read)
    (slot : s.slotOf b i .filling = some k) (fresh : (s.slot k).staleRetry = false) (due : (s.slot k).refetch = true) (data : Nat) :
    s.diskReadEnd b i n data = ((s.endCommand b (some i) n).fillAgain k).workEnded b := by
  have ended := s.endCommand_touches b (some i) n
  rw [State.diskReadEnd_fill serving found kind slot]
  simp only [State.fillEnds, ended.slot, fresh, due, Bool.false_eq_true, if_false, if_true]

end

/-- Settles O51: every report finds the slot of its tag, whose lead holds it, and ends a fill or a drain there. -/
theorem diskTransfersEnd : Obligations.DiskTransfersEnd := by
  refine ⟨?_, ?_, ?_⟩
  · intro s b i n data k c p d part found kind slot place lead
    have serving := s.serving_iff.2 part
    refine ⟨fun fresh due => ⟨_, exec_diskReadEnd .., State.diskReadEnd_good serving found kind slot place lead fresh due data⟩,
      fun fresh due => ⟨_, exec_diskReadEnd .., ?_⟩,
      fun stale => ⟨_, exec_diskReadEnd .., State.diskReadEnd_stale serving found kind slot lead stale data⟩,
      fun firstBad => ⟨_, exec_mediaError .., State.mediaError_read serving found kind slot lead firstBad.toNat⟩⟩
    obtain ⟨c', held, -, lead', p', place', bay⟩ := State.slotOf_eq_some slot
    cases lead.symm.trans lead'
    cases place.symm.trans place'
    have ended := s.endCommand_touches b (some i) n
    have all : Touches [.records, .ports, .staging] s (((s.endCommand b (some i) n).fillAgain k).workEnded b) :=
      (State.workEnded_touches ..).after rfl ((State.fillAgain_touches ..).after rfl (ended.mono rfl))
    obtain ⟨others, blocked, reissued⟩ := State.fillAgain_ends ended place lead (by rw [bay]; exact held) i.isLt
    rw [State.diskReadEnd_again serving found kind slot fresh due]
    rw [bay] at others blocked reissued
    exact ⟨by rw [all.tagHolder, held], all.same .engine (by decide), all.meters, all.answered_nil, others, by rw [all.arbiter],
      by rw [all.arbiter], blocked, reissued⟩
  · intro s b tag n d firstBad found kind
    refine ⟨_, exec_mediaError .., ?_⟩
    rw [exec_linkError, State.mediaError_control found]
    rcases List.mem_cons.1 kind with e | kind
    · rw [e]; rfl
    · rcases List.mem_pair.1 kind with e | e <;> rw [e] <;> rfl
  · intro s b i n k c x d part found kind slot lead made
    have serving := s.serving_iff.2 part
    exact ⟨⟨_, exec_diskWriteEnd .., State.diskWriteEnd_good serving found kind slot lead made⟩,
      fun firstBad => ⟨_, exec_mediaError .., State.mediaError_write serving found kind slot lead made firstBad.toNat⟩⟩

end Sys2Proof.Machine
end

section
namespace Sys2Proof.Machine

set_option Elab.async false

/-! ## Numbers as bytes (R33) -/

section
variable {i n w count : Nat}

/-- The byte of a number at a place above its lowest. -/
def byteAt (n i : Nat) : Byte := BitVec.ofNat 8 (n >>> (8 * i))

/-- Cutting a number off beyond a byte leaves the byte. -/
theorem byteAt_cut (h : 8 * (i + 1) ≤ w) : byteAt (n % 2 ^ w) i = byteAt n i := by
  refine BitVec.eq_of_getLsbD_eq fun j low => ?_
  simp only [byteAt, BitVec.getLsbD_ofNat, Nat.testBit_shiftRight, Nat.testBit_mod_two_pow, low, decide_true, Bool.true_and,
    show 8 * i + j < w by omega]

theorem byteAt_shift (n m i : Nat) : byteAt (n >>> (8 * m)) i = byteAt n (m + i) := by
  unfold byteAt
  rw [← Nat.shiftRight_add, Nat.mul_add]

theorem leBytes_getElem? (h : i < w) : (leBytes w n)[i]? = some (byteAt n i) := by
  induction w generalizing i n with
  | zero => cases h
  | succ w ih =>
    cases i with
    | zero => rfl
    | succ i =>
      rw [leBytes, List.getElem?_cons_succ, ih (Nat.lt_of_succ_lt_succ h), Nat.add_comm i 1, ← byteAt_shift, Nat.shiftRight_eq_div_pow]

theorem pieces_length (count n : Nat) : (pieces count n).length = 512 * count := by
  induction count generalizing n with
  | zero => rfl
  | succ k ih => rw [pieces, List.length_append, ih, leBytes_length]; omega

theorem pieces_getElem? (h : i < 512 * count) : (pieces count n)[i]? = some (byteAt n i) := by
  induction count generalizing i n with
  | zero => omega
  | succ k ih =>
    rw [pieces]
    by_cases low : i < 512
    · rw [List.getElem?_append_left (by rwa [leBytes_length]), leBytes_getElem? low, byteAt_cut (by omega)]
    · rw [List.getElem?_append_right (by rw [leBytes_length]; omega), leBytes_length, ih (by omega),
        show (4096 : Nat) = 8 * 512 from rfl, byteAt_shift, Nat.add_sub_cancel' (by omega)]

end

/-! ## Addresses of buffers (R33, R46) -/

section
variable {segs rest : List (Nat × Nat)} {a len j m z : Nat}

theorem bufferAddress_cons : bufferAddress ((a, len) :: rest) j = if j < len then some (a + j) else bufferAddress rest (j - len) := rfl

theorem bufferAddress_leading : bufferAddress (leadingSegments segs m) j = if j < m then bufferAddress segs j else none := by
  induction segs generalizing j m with
  | nil => exact (ite_self _).symm
  | cons e rest ih =>
    obtain ⟨a, len⟩ := e
    rw [leadingSegments, bufferAddress_cons, bufferAddress_cons, ih]
    by_cases inside : j < m
    · rw [if_pos inside]
      by_cases here : j < len
      · rw [if_pos (by omega), if_pos here]
      · rw [if_neg (by omega), if_neg here, if_pos (by omega), Nat.min_eq_left (by omega)]
    · rw [if_neg inside, if_neg (by omega), if_neg (by omega)]

theorem bufferAddress_trailing : bufferAddress (trailingSegments segs m) j = bufferAddress segs (m + j) := by
  induction segs generalizing j m with
  | nil => rfl
  | cons e rest ih =>
    obtain ⟨a, len⟩ := e
    rw [trailingSegments, bufferAddress_cons, bufferAddress_cons, ih]
    by_cases here : m + j < len
    · rw [if_pos (by omega), if_pos here, Nat.min_eq_right (by omega), Nat.add_assoc]
    · rw [if_neg (by omega), if_neg here]
      congr 1
      omega

/-- The bytes of the block behind some whole blocks. -/
theorem bufferAddress_nextBlock {blocks : Nat} : bufferAddress (nextBlock segs blocks) j =
    if j < 4096 then bufferAddress segs (4096 * blocks + j) else none := by
  rw [nextBlock, bufferAddress_leading, bufferAddress_trailing, Nat.mul_comm blocks]

theorem bufferAddress_take (n : Nat) (h : bufferAddress (segs.take n) j = some z) : bufferAddress segs j = some z := by
  induction segs generalizing j n with
  | nil => rwa [List.take_nil] at h
  | cons e rest ih =>
    obtain ⟨a, len⟩ := e
    cases n with
    | zero => cases h
    | succ n =>
      rw [List.take_succ_cons, bufferAddress_cons] at h
      rw [bufferAddress_cons]
      split at h
      · next here => rwa [if_pos here]
      · next later => rw [if_neg later]; exact ih n h

/-- A buffer has no byte behind its segments. -/
theorem bufferAddress_end (h : (segs.map Prod.snd).sum ≤ j) : bufferAddress segs j = none := by
  induction segs generalizing j with
  | nil => rfl
  | cons e rest ih =>
    obtain ⟨a, len⟩ := e
    rw [List.map_cons, List.sum_cons] at h
    dsimp only at h
    rw [bufferAddress_cons, if_neg (by omega), ih (by omega)]

/-- Every segment lies in the address space and holds whole pieces of 512 bytes. -/
def segmentsFit (segs : List (Nat × Nat)) : Prop := ∀ e ∈ segs, e.1 + e.2 ≤ 18446744073709551616 ∧ 512 ∣ e.2

theorem segmentsFit_leading (h : segmentsFit segs) (whole : 512 ∣ m) : segmentsFit (leadingSegments segs m) := by
  induction segs generalizing m with
  | nil => exact fun _ mem => (List.not_mem_nil mem).elim
  | cons e rest ih =>
    obtain ⟨a, len⟩ := e
    obtain ⟨first, rest⟩ := List.forall_mem_cons.1 h
    obtain ⟨fits, pieces⟩ := first
    dsimp only at fits pieces
    refine List.forall_mem_cons.2 ⟨⟨?_, ?_⟩, ih rest (Nat.dvd_sub whole pieces)⟩
    · dsimp only; omega
    · dsimp only
      rcases Nat.le_total len m with le | le
      · rwa [Nat.min_eq_left le]
      · rwa [Nat.min_eq_right le]

theorem segmentsFit_trailing (h : segmentsFit segs) (whole : 512 ∣ m) : segmentsFit (trailingSegments segs m) := by
  induction segs generalizing m with
  | nil => exact fun _ mem => (List.not_mem_nil mem).elim
  | cons e rest ih =>
    obtain ⟨a, len⟩ := e
    obtain ⟨first, rest⟩ := List.forall_mem_cons.1 h
    obtain ⟨fits, pieces⟩ := first
    dsimp only at fits pieces
    refine List.forall_mem_cons.2 ⟨⟨?_, ?_⟩, ih rest (Nat.dvd_sub whole pieces)⟩
    · dsimp only; omega
    · dsimp only
      rcases Nat.le_total len m with le | le
      · rw [Nat.min_eq_left le, Nat.sub_self]; exact Nat.dvd_zero _
      · rw [Nat.min_eq_right le]; exact Nat.dvd_sub pieces whole

theorem segmentsFit_nextBlock {blocks : Nat} (h : segmentsFit segs) : segmentsFit (nextBlock segs blocks) :=
  segmentsFit_leading (segmentsFit_trailing h (Dvd.intro_left (blocks * 8) (by simp only [Config.blockBytes]; omega))) (by decide)

theorem segmentsFit_take (h : segmentsFit segs) (n : Nat) : segmentsFit (segs.take n) := fun e mem => h e (List.mem_of_mem_take mem)

end

/-! ## Bytes written into segments (R33) -/

section
variable {s : State} {segs rest : List (Nat × Nat)} {a d i j n z : Nat} {data : Option Nat}

/-- A run written or erased below 2^64, seen at one address. -/
theorem State.poke_read (s : State) (bs : List Byte) (z : Nat) (fits : a + bs.length ≤ 18446744073709551616) :
    Memory.read (s.poke a bs).hostMem z = if a ≤ z ∧ z < a + bs.length then bs[z - a]? else Memory.read s.hostMem z := by
  have space : Config.addressSpace = 18446744073709551616 := rfl
  rw [State.poke_hostMem, Memory.read_writeBytes _ _ _ _ (by rw [space]; omega), space]
  by_cases empty : bs.length = 0
  · rw [if_neg (by omega), if_neg (by omega)]
  · rw [Nat.mod_eq_of_lt (by omega)]

theorem State.smudge_read (s : State) (n z : Nat) (fits : a + n ≤ 18446744073709551616) :
    Memory.read (s.smudge a n).hostMem z = if a ≤ z ∧ z < a + n then none else Memory.read s.hostMem z := by
  have space : Config.addressSpace = 18446744073709551616 := rfl
  rw [State.smudge_hostMem, Memory.eraseBytes, Memory.read_eraseRun, Memory.read_eraseRun, Memory.room, space]
  by_cases empty : n = 0
  · rw [if_neg (by omega), if_neg (by omega), if_neg (by omega)]
  · rw [Nat.mod_eq_of_lt (by omega), Nat.min_eq_left (by omega), if_neg (by omega)]

/-- One segment takes its bytes, or is smudged. -/
def State.fillSegment (s : State) (a n : Nat) (data : Option Nat) : State :=
  match data with
  | some d => s.poke a (pieces (n / 512) d)
  | none => s.smudge a n

theorem State.scatter_cons (s : State) (a n : Nat) (rest : List (Nat × Nat)) (data : Option Nat) :
    s.scatter ((a, n) :: rest) data = (s.fillSegment a n data).scatter rest (data.map (fun d => d >>> (8 * n))) := by
  cases data <;> rfl

theorem State.fillSegment_read (s : State) (z : Nat) (fits : a + n ≤ 18446744073709551616) (whole : 512 ∣ n) (data : Option Nat) :
    Memory.read (s.fillSegment a n data).hostMem z =
      if a ≤ z ∧ z < a + n then data.map (fun d => byteAt d (z - a)) else Memory.read s.hostMem z := by
  cases data with
  | none => exact s.smudge_read n z fits
  | some d =>
    have length : (pieces (n / 512) d).length = n := by rw [pieces_length, Nat.mul_div_cancel' whole]
    rw [State.fillSegment, State.poke_read _ _ _ (by rwa [length]), length]
    split
    · next inside =>
      rw [pieces_getElem? (by rw [Nat.mul_div_cancel' whole]; omega)]
      rfl
    · rfl

/-- Outside the segments nothing is written. -/
theorem State.scatter_outside (s : State) (fit : segmentsFit segs) (data : Option Nat) (out : ∀ j, bufferAddress segs j ≠ some z) :
    Memory.read (s.scatter segs data).hostMem z = Memory.read s.hostMem z := by
  induction segs generalizing s data with
  | nil => rfl
  | cons e rest ih =>
    obtain ⟨a, n⟩ := e
    obtain ⟨⟨fits, whole⟩, fit⟩ := List.forall_mem_cons.1 fit
    rw [State.scatter_cons, ih _ fit, State.fillSegment_read _ _ fits whole, if_neg]
    · intro inside
      refine out (z - a) ?_
      rw [bufferAddress_cons, if_pos (by omega), Nat.add_sub_cancel' inside.1]
    · intro j own
      refine out (n + j) ?_
      rw [bufferAddress_cons, if_neg (by omega), Nat.add_sub_cancel_left, own]

/-- In a segment the last of the bytes for an address stands; where the bytes are not known, nothing is known of the address. -/
theorem State.scatter_inside (s : State) (fit : segmentsFit segs) (data : Option Nat) (own : bufferAddress segs j = some z)
    (last : ∀ i, j < i → bufferAddress segs i ≠ some z) :
    Memory.read (s.scatter segs data).hostMem z = data.map (fun d => byteAt d j) := by
  induction segs generalizing s data j with
  | nil => cases own
  | cons e rest ih =>
    obtain ⟨a, n⟩ := e
    obtain ⟨⟨fits, whole⟩, fit⟩ := List.forall_mem_cons.1 fit
    have later : ∀ i, j < n + i → bufferAddress rest i ≠ some z := fun i lt found => by
      refine last (n + i) lt ?_
      rw [bufferAddress_cons, if_neg (by omega), Nat.add_sub_cancel_left, found]
    rw [State.scatter_cons]
    rw [bufferAddress_cons] at own
    split at own
    · next here =>
      cases own
      rw [State.scatter_outside _ fit _ (fun i => later i (by omega)), State.fillSegment_read _ _ fits whole, if_pos (by dsimp only; omega),
        Nat.add_sub_cancel_left]
    · next behind =>
      rw [ih _ fit _ own (fun i lt => later i (by omega))]
      cases data with
      | none => rfl
      | some d => exact congrArg some ((byteAt_shift ..).trans (by rw [Nat.add_sub_cancel' (by omega)]))

/-- Of every address in smudged segments nothing is known. -/
theorem State.scatter_smudged (s : State) (fit : segmentsFit segs) (own : bufferAddress segs j = some z) :
    Memory.read (s.scatter segs none).hostMem z = none := by
  induction segs generalizing s j with
  | nil => cases own
  | cons e rest ih =>
    obtain ⟨a, n⟩ := e
    obtain ⟨⟨fits, whole⟩, fit⟩ := List.forall_mem_cons.1 fit
    rw [State.scatter_cons]
    by_cases again : ∃ i, bufferAddress rest i = some z
    · obtain ⟨i, found⟩ := again
      exact ih _ fit found
    · have out : ∀ i, bufferAddress rest i ≠ some z := fun i found => again ⟨i, found⟩
      rw [bufferAddress_cons] at own
      split at own
      · next here =>
        cases own
        rw [State.scatter_outside _ fit _ out, State.fillSegment_read _ _ fits whole, if_pos (by dsimp only; omega)]
        rfl
      · exact absurd own (out _)

end

end Sys2Proof.Machine
end

section
namespace Sys2Proof.Machine

set_option Elab.async false

/-! ## What a delivery leaves in host memory (R33, R41, R46, R48) -/

section
variable {s t u v : State} {o : HeldOrder} {c : Copy} {k cell d first blocks segments m z : Nat} {x : Transfer} {p : Place}

theorem OrderKind.read_not_append {k : OrderKind} (read : k.isRead = true) : k ≠ .appendWrite := by
  rintro rfl
  cases read

/-- The buffer of a held order that makes a transfer: at most six segments, which fit, and as long as its blocks. -/
theorem State.ordersChecked.buffer (h : s.ordersChecked) (own : s.order? cell = some o) (made : o.transfer = some x) :
    segmentsFit (Copy.segments o.copy) ∧ (Copy.segments o.copy).length ≤ 6
      ∧ ((Copy.segments o.copy).map Prod.snd).sum = Copy.count o.copy * 4096 := by
  have passed := (h o (List.mem_of_find?_eq_some own) x made).1
  rw [Copy.transferFailure, firstFailure, Option.map_eq_none_iff, List.find?_eq_none] at passed
  have segments := passed (5, (Copy.segments o.copy).all segmentOk) (by simp)
  have sum := passed (6, ((Copy.segments o.copy).map Prod.snd).sum == Copy.count o.copy * Config.blockBytes) (by simp)
  simp only [Bool.not_eq_true', Bool.not_eq_false, List.all_eq_true, beq_iff_eq] at segments sum
  refine ⟨fun e mem => ?_, ?_, sum⟩
  · have ok := segments e mem
    simp only [segmentOk, Bool.and_eq_true, beq_iff_eq, decide_eq_true_eq] at ok
    obtain ⟨⟨whole, -⟩, fits⟩ := ok
    exact ⟨fits, Nat.dvd_of_mod_eq_zero whole⟩
  · rw [Copy.segments, List.length_map, List.length_range]
    exact Nat.min_le_right ..

/-- What a delivery does with the buffer of its order, as the bytes of its slot are known or not. -/
def State.copyBlocks (s : State) (segs : List (Nat × Nat)) (data : Option Nat) (stop : Option Stop) : State :=
  match stop with
  | none => s.scatter segs data
  | some e => (s.scatter (leadingSegments segs (e.blocks * 4096)) data).scatter (nextBlock (segs.take e.segments) e.blocks) none

theorem State.deliverBytes_eq (own : s.order? cell = some o) (made : o.transfer = some x) (k : Nat) (stop : Option Stop) :
    s.deliverBytes k cell stop = s.copyBlocks (Copy.segments o.copy) ((s.slot k).bytesFor x) stop := by
  cases stop with
  | none => simp only [State.deliverBytes, State.copyBlocks, own, made]
  | some e => simp only [State.deliverBytes, State.copyBlocks, own, made, Config.blockBytes]

theorem State.deliverBytes_none (h : s.transfer? cell = none) (k : Nat) (stop : Option Stop) : s.deliverBytes k cell stop = s := by
  unfold State.deliverBytes
  unfold State.transfer? at h
  split
  · rfl
  · next o own =>
    rw [own] at h
    dsimp only [Option.bind] at h
    rw [h]

/-- A delivery writes nothing outside the buffer of its order. -/
theorem State.copyBlocks_outside (s : State) {segs : List (Nat × Nat)} (fit : segmentsFit segs) (data : Option Nat) (stop : Option Stop)
    (out : ∀ j, bufferAddress segs j ≠ some z) : Memory.read (s.copyBlocks segs data stop).hostMem z = Memory.read s.hostMem z := by
  cases stop with
  | none => exact s.scatter_outside fit data out
  | some e =>
    have whole : 512 ∣ e.blocks * 4096 := Dvd.intro_left (e.blocks * 8) (by omega)
    rw [State.copyBlocks, State.scatter_outside _ (segmentsFit_nextBlock (segmentsFit_take fit _)),
      State.scatter_outside _ (segmentsFit_leading fit whole)]
    · intro j
      rw [bufferAddress_leading]
      split
      · exact out j
      · exact nofun
    · intro j
      rw [bufferAddress_nextBlock]
      split
      · exact fun found => out _ (bufferAddress_take _ found)
      · exact nofun

/-- A byte of a read's range, out of the slot that holds it (R43). -/
theorem Slot.bytesFor_byte {v : Slot} (place : v.place = some p) (data : v.data = some d) :
    ∃ n, v.bytesFor x = some n ∧ ∀ j, j < 4096 * x.count → byteAt n j = stagedByte d p.first x j := by
  refine ⟨cutData (d >>> (8 * Config.blockBytes * (x.first - p.first))) x.count, by simp only [Slot.bytesFor, place, data], fun j low => ?_⟩
  rw [cutData, byteAt_cut (by simp only [Config.blockBytes]; omega)]
  unfold byteAt stagedByte
  rw [← Nat.shiftRight_add, Config.blockBytes, Nat.mul_add, Nat.mul_assoc]

/-- A delivery that was stopped after some whole blocks. -/
theorem State.copyBlocks_stopped (s : State) (c : Copy) (n : Nat) (fit : segmentsFit (Copy.segments c)) (le : blocks ≤ x.count)
    (bytes : ∀ j, j < 4096 * x.count → byteAt n j = stagedByte d first x j) (segments : Nat) :
    s.deliveredWithin (s.copyBlocks (Copy.segments c) (some n) (some { blocks := blocks, segments := segments })) c x d first blocks segments := by
  have whole : 512 ∣ blocks * 4096 := Dvd.intro_left (blocks * 8) (by omega)
  have next : segmentsFit (nextBlock ((Copy.segments c).take segments) blocks) := segmentsFit_nextBlock (segmentsFit_take fit _)
  have lead : segmentsFit (leadingSegments (Copy.segments c) (blocks * 4096)) := segmentsFit_leading fit whole
  have begun : ∀ z, (∀ i, ¬(4096 * blocks ≤ i ∧ i < 4096 * (blocks + 1) ∧ bufferAddress ((Copy.segments c).take segments) i = some z)) →
      ∀ j, bufferAddress (nextBlock ((Copy.segments c).take segments) blocks) j ≠ some z := fun z none j => by
    rw [bufferAddress_nextBlock]
    split
    · exact fun found => none (4096 * blocks + j) ⟨by omega, by omega, found⟩
    · exact nofun
  refine ⟨fun i z own copied none => ?_, fun j z low own last none => ?_, fun j z own => ?_⟩
  · rw [State.copyBlocks, State.scatter_outside _ next _ (begun z none), State.scatter_outside _ lead]
    intro j
    rw [bufferAddress_leading]
    split
    · exact copied j (by omega)
    · exact nofun
  · rw [State.copyBlocks, State.scatter_outside _ next _ (begun z none), State.scatter_inside (j := j) _ lead]
    · exact congrArg some (bytes j (by omega))
    · rw [bufferAddress_leading, if_pos (by omega), own]
    · intro i lt
      rw [bufferAddress_leading]
      split
      · exact last i lt (by omega)
      · exact nofun
  · obtain ⟨low, high, found⟩ := own
    rw [State.copyBlocks, State.scatter_smudged (j := j - 4096 * blocks) _ next]
    rw [bufferAddress_nextBlock, if_pos (by omega), Nat.add_sub_cancel' low, found]

/-- A delivery that copied its whole range. -/
theorem State.copyBlocks_whole (s : State) (c : Copy) (n : Nat) (fit : segmentsFit (Copy.segments c))
    (length : ((Copy.segments c).map Prod.snd).sum = x.count * 4096)
    (bytes : ∀ j, j < 4096 * x.count → byteAt n j = stagedByte d first x j) (segments : Nat) :
    s.deliveredWithin (s.copyBlocks (Copy.segments c) (some n) none) c x d first x.count segments := by
  have behind : ∀ j z, bufferAddress (Copy.segments c) j = some z → j < 4096 * x.count := fun j z own => by
    by_contra high
    rw [bufferAddress_end (by rw [length]; omega)] at own
    cases own
  refine ⟨fun i z own copied none => absurd own (copied i (behind i z own)), fun j z low own last none => ?_, fun j z own => ?_⟩
  · rw [State.copyBlocks, State.scatter_inside _ fit _ own fun i lt found => last i lt (behind i z found) found]
    exact congrArg some (bytes j low)
  · obtain ⟨low, high, found⟩ := own
    exact absurd (behind j z (bufferAddress_take _ found)) (Nat.not_lt.2 low)

/-- What a delivery leaves in its buffer depends on the bytes at the addresses of the buffer alone. -/
theorem State.deliveredWithin.congr (h : s.deliveredWithin t c x d first blocks segments)
    (before : ∀ i z, bufferAddress (Copy.segments c) i = some z → Memory.read s.hostMem z = Memory.read u.hostMem z)
    (after : ∀ i z, bufferAddress (Copy.segments c) i = some z → Memory.read v.hostMem z = Memory.read t.hostMem z) :
    u.deliveredWithin v c x d first blocks segments := by
  obtain ⟨kept, copied, smudged⟩ := h
  refine ⟨fun i z own out none => ?_, fun j z low own last none => ?_, fun j z own => ?_⟩
  · rw [after i z own, kept i z own out none, before i z own]
  · rw [after j z own, copied j z low own last none]
  · rw [after j z (bufferAddress_take _ own.2.2), smudged j z own]

end

/-! ## The end of a delivery (R87) -/

section
variable {s u : State} {ch k cell d : Nat} {it : Item} {x : Transfer} {r : DeliveryResult} {o : HeldOrder} {p : Place}

/-- The whole blocks that count and the segments that were begun, as the end of a delivery reports them. -/
def deliveredBlocks (r : DeliveryResult) (count : Nat) : Nat :=
  match r with
  | .complete => count
  | .bufferError _ n => min n count

def begunSegments (r : DeliveryResult) : Nat :=
  match r with
  | .complete => 6
  | .bufferError segment _ => segment.val + 1

/-- A delivery as it stands when its channel is free again: its bytes are in the buffer. -/
def State.deliveredOn (s : State) (ch : Nat) (r : DeliveryResult) (it : Item) : State :=
  (s.deliverBytes it.slot it.cell (stoppedAt r (s.countOf it.cell))).endItem ch

theorem State.deliveredOn_touches (s : State) (ch : Nat) (r : DeliveryResult) (it : Item) : Touches [.engine, .hostMem] s (s.deliveredOn ch r it) :=
  (State.endItem_touches ..).after rfl ((State.deliverBytes_touches ..).mono rfl)

theorem State.deliveryEnd_eq (own : s.itemOn ch = some it) (delivery : it.fetch = false) : s.deliveryEnd ch r =
    if (s.deliveredOn ch r it).serving then (((s.deliveredOn ch r it).answerDelivery it r).lowerDeliveries it.slot).offerSlot it.slot
    else (s.deliveredOn ch r it).lowerDeliveries it.slot := by
  unfold State.deliveryEnd
  rw [own]
  exact if_neg (by rw [delivery]; exact Bool.false_ne_true)

theorem State.countOf_eq (made : s.transfer? cell = some x) : s.countOf cell = x.count := by
  rw [State.countOf, made]; rfl

theorem State.deliveredOn_delivered (own : s.order? it.cell = some o) (made : o.transfer = some x) (checked : s.ordersChecked)
    (read : x.kind.isRead = true) (place : (s.slot it.slot).place = some p) (data : (s.slot it.slot).data = some d) (ch : Nat) (r : DeliveryResult) :
    s.delivered (s.deliveredOn ch r it) o.copy x d p.first (deliveredBlocks r x.count) (begunSegments r) := by
  obtain ⟨fit, few, length⟩ := checked.buffer own made
  obtain ⟨n, bytes, each⟩ := Slot.bytesFor_byte (x := x) place data
  have count : x.count = Copy.count o.copy :=
    (checked o (List.mem_of_find?_eq_some own) x made).2 (OrderKind.read_not_append read)
  have made' : s.transfer? it.cell = some x := by rw [State.transfer?, own]; exact made
  have memory : (s.deliveredOn ch r it).hostMem =
      (s.copyBlocks (Copy.segments o.copy) (some n) (stoppedAt r x.count)).hostMem := by
    rw [State.deliveredOn, (State.endItem_touches ..).hostMem, State.deliverBytes_eq own made, bytes, State.countOf_eq made']
  have within : s.deliveredWithin (s.copyBlocks (Copy.segments o.copy) (some n) (stoppedAt r x.count)) o.copy x d p.first (deliveredBlocks r x.count) (begunSegments r) := by
    cases r with
    | complete => exact s.copyBlocks_whole o.copy n fit (by rw [length, count]) each 6
    | bufferError segment m => exact s.copyBlocks_stopped o.copy n fit (Nat.min_le_right ..) each _
  refine ⟨within.congr (fun _ _ _ => rfl) (fun _ z _ => by rw [memory]), fun z out => ?_⟩
  rw [memory, s.copyBlocks_outside fit _ _ out]

/-- The answer that the end of a delivery decides (R40, R41, R48). -/
def deliveryAnswer (r : DeliveryResult) (it : Item) (count : Nat) : AnswerWrite :=
  match r with
  | .complete => reported it.cell .ok 0 count (sourceOf it.led count)
  | .bufferError segment n => reported it.cell .bufferFault segment (min n count) (sourceOf it.led (min n count))

theorem State.answerDelivery_answered (made : s.transfer? it.cell = some x) (r : DeliveryResult) :
    s.answered (s.answerDelivery it r) [deliveryAnswer r it x.count] := by
  unfold State.answerDelivery deliveryAnswer
  rw [State.countOf_eq made]
  cases r <;> exact State.answerWith_answered ..

/-- What is left of a slot when a delivery from it ends. -/
theorem State.lowerDeliveries_slot (s : State) (k : Nat) :
    (1 < (s.slot k).deliveries → (s.lowerDeliveries k).slot k = { s.slot k with deliveries := (s.slot k).deliveries - 1 })
      ∧ ((s.slot k).deliveries ≤ 1 → (s.slot k).state = .stale → (s.lowerDeliveries k).slot k = .free ∧ k ∉ (s.lowerDeliveries k).staging.residency)
      ∧ ((s.slot k).deliveries ≤ 1 → (s.slot k).state = .resident → (s.lowerDeliveries k).slot k = { s.slot k with deliveries := 0 })
      ∧ (s.lowerDeliveries k).staging.slotWait = s.staging.slotWait ∧ s.otherSlots (s.lowerDeliveries k) k
      ∧ (s.lowerDeliveries k).exchange = s.exchange := by
  unfold State.lowerDeliveries
  dsimp only
  split
  · next last =>
    obtain ⟨stale, few⟩ := last
    refine ⟨fun more => absurd few (Nat.not_le.2 more), fun _ _ => ⟨(State.freeSlot_slot ..).trans (if_pos rfl), fun mem => ?_⟩,
      fun _ resident => absurd (stale.symm.trans resident) (by decide), rfl, fun j ne => (State.freeSlot_slot ..).trans (if_neg ne), rfl⟩
    exact absurd (List.mem_filter.1 mem).2 (by simp)
  · next other =>
    have own (v : Slot) : (s.setSlot k v).slot k = v := (State.slot_setSlot ..).trans (if_pos rfl)
    refine ⟨fun _ => own _, fun few stale => absurd ⟨stale, few⟩ other, fun few _ => ?_, rfl, fun j ne => (State.slot_setSlot ..).trans (if_neg ne),
      rfl⟩
    rw [own, show (s.slot k).deliveries - 1 = 0 by omega]

theorem State.scatter_exchange (s : State) (segs : List (Nat × Nat)) (data : Option Nat) : (s.scatter segs data).exchange = s.exchange := by
  induction segs generalizing s data with
  | nil => rfl
  | cons e rest ih =>
    rw [State.scatter_cons, ih]
    cases data <;> rfl

theorem State.deliveredOn_exchange (s : State) (ch : Nat) (r : DeliveryResult) (it : Item) : (s.deliveredOn ch r it).exchange = s.exchange := by
  show (s.deliverBytes it.slot it.cell (stoppedAt r (s.countOf it.cell))).exchange = s.exchange
  unfold State.deliverBytes
  repeat' split
  · rfl
  · rfl
  · exact State.scatter_exchange ..
  · exact (State.scatter_exchange ..).trans (State.scatter_exchange ..)

/-- The slot of a delivery that ended, and the Slot Wait list. -/
def State.loweredSlot (s t : State) (k : Nat) (serves : Prop) : Prop :=
  (1 < (s.slot k).deliveries → t.slot k = { s.slot k with deliveries := (s.slot k).deliveries - 1 })
    ∧ ((s.slot k).deliveries ≤ 1 → (s.slot k).state = .stale → (serves → s.offered t k) ∧ (¬serves → t.slot k = .free))
    ∧ ((s.slot k).deliveries ≤ 1 → (s.slot k).state = .resident →
        (serves → s.offeredResident t k { s.slot k with deliveries := 0 }) ∧ (¬serves → t.slot k = { s.slot k with deliveries := 0 }))
    ∧ (1 < (s.slot k).deliveries ∨ ¬serves → t.staging.slotWait = s.staging.slotWait)
    ∧ s.otherSlots t k

theorem State.loweredSlot_unserved {serves : Prop} (no : ¬serves) (staging : u.staging = s.staging) :
    s.loweredSlot (u.lowerDeliveries k) k serves := by
  have slot : ∀ j, u.slot j = s.slot j := State.slot_of_slots (congrArg Staging.slots staging)
  obtain ⟨more, stale, resident, list, others, -⟩ := u.lowerDeliveries_slot k
  rw [slot] at more stale resident
  exact ⟨more, fun few own => ⟨fun yes => absurd yes no, fun _ => (stale few own).1⟩,
    fun few own => ⟨fun yes => absurd yes no, fun _ => resident few own⟩, fun _ => list.trans (congrArg Staging.slotWait staging),
    fun j ne => (others j ne).trans (slot j)⟩

theorem State.loweredSlot_served {serves : Prop} (yes : serves) (serving : u.serving = true) (staging : u.staging = s.staging)
    (used : (s.slot k).state ≠ .free) : s.loweredSlot ((u.lowerDeliveries k).offerSlot k) k serves := by
  have slot : ∀ j, u.slot j = s.slot j := State.slot_of_slots (congrArg Staging.slots staging)
  obtain ⟨more, stale, resident, list, others, -⟩ := u.lowerDeliveries_slot k
  have serves := (State.lowerDeliveries_touches u k).serving.trans serving
  have waits : (u.lowerDeliveries k).staging.slotWait = s.staging.slotWait := list.trans (congrArg Staging.slotWait staging)
  rw [slot] at more stale resident
  have kept : 1 < (s.slot k).deliveries → (u.lowerDeliveries k).offerSlot k = u.lowerDeliveries k := fun many => by
    refine State.offerSlot_kept (.inr ?_)
    rw [more many]
    simp [Slot.available, used, show (s.slot k).deliveries - 1 ≠ 0 by omega]
  refine ⟨fun many => by rw [kept many, more many], fun few own => ⟨fun _ => ?_, fun no => absurd yes no⟩,
    fun few own => ⟨fun _ => ?_, fun no => absurd yes no⟩, fun many => ?_, fun j ne => ?_⟩
  · exact State.offered_of serves (stale few own).1 waits (stale few own).2
  · exact State.offeredResident_of serves (resident few own) own rfl waits
  · rcases many with many | no
    · rw [kept many, waits]
    · exact absurd yes no
  · rw [State.offerSlot_slot_other _ ne, others j ne, slot]

/-- A delivery that ends, whether or not the part serves orders. -/
theorem State.deliveryEnd_ends (own : s.itemOn ch = some it) (delivery : it.fetch = false) (made : s.transfer? it.cell = some x)
    (used : (s.slot it.slot).state ≠ .free) (r : DeliveryResult) :
    (s.serving = true → s.answered (s.deliveryEnd ch r) [deliveryAnswer r it x.count])
      ∧ (¬s.serving = true → (s.deliveryEnd ch r).exchange = s.exchange)
      ∧ (s.deliveryEnd ch r).engine.items = s.engine.items.filter (fun j => j.channel != some ch)
      ∧ s.loweredSlot (s.deliveryEnd ch r) it.slot (s.serving = true)
      ∧ (s.deliveryEnd ch r).hostMem = (s.deliveredOn ch r it).hostMem := by
  have done := s.deliveredOn_touches ch r it
  have items : (s.deliveredOn ch r it).engine.items = s.engine.items.filter (fun j => j.channel != some ch) := by
    show List.filter _ (s.deliverBytes it.slot it.cell (stoppedAt r (s.countOf it.cell))).engine.items = _
    rw [(State.deliverBytes_touches ..).same .engine (by decide)]
  rw [State.deliveryEnd_eq own delivery, done.serving]
  by_cases serving : s.serving = true
  · rw [if_pos serving]
    have answered := State.answerDelivery_answered (s := s.deliveredOn ch r it) (by rw [done.transfer, made]) r
    have answer := State.answerDelivery_touches (s.deliveredOn ch r it) it r
    have both : Touches [.answers, .engine, .hostMem] s ((s.deliveredOn ch r it).answerDelivery it r) := answer.after rfl (done.mono rfl)
    have last : Touches [.staging] ((s.deliveredOn ch r it).answerDelivery it r)
        ((((s.deliveredOn ch r it).answerDelivery it r).lowerDeliveries it.slot).offerSlot it.slot) :=
      (State.offerSlot_touches ..).after rfl (State.lowerDeliveries_touches ..)
    refine ⟨fun _ => State.answered.within done answered last answer.serving (by decide) (by decide), fun no => absurd serving no, ?_, ?_, ?_⟩
    · rw [last.same .engine (by decide), answer.same .engine (by decide), items]
    · exact State.loweredSlot_served serving (by rw [both.serving, serving]) both.staging used
    · rw [last.hostMem, answer.hostMem]
  · rw [if_neg serving]
    have last := State.lowerDeliveries_touches (s.deliveredOn ch r it) it.slot
    refine ⟨fun yes => absurd yes serving, fun _ => ?_, ?_, ?_, ?_⟩
    · rw [((s.deliveredOn ch r it).lowerDeliveries_slot it.slot).2.2.2.2.2, State.deliveredOn_exchange]
    · rw [last.same .engine (by decide), items]
    · exact State.loweredSlot_unserved serving done.staging
    · rw [last.hostMem]

end

/-! ## Channels (R85) -/

section
variable {s : State} {ch : Nat} {before after : List Item} {it : Item}

/-- The oldest item that has no channel is given one. -/
theorem giveChannel_oldest (busy : ∀ j ∈ before, j.channel ≠ none) (idle : it.channel = none) :
    giveChannel (before ++ it :: after) ch = before ++ { it with channel := some ch } :: after := by
  induction before with
  | nil => simp only [List.nil_append, giveChannel, idle, Option.isNone_none, if_true]
  | cons j before ih =>
    obtain ⟨own, rest⟩ := List.forall_mem_cons.1 busy
    rw [List.cons_append, giveChannel, if_neg (by rwa [Option.isNone_iff_eq_none]), ih rest]
    rfl

theorem State.startChannel_eq (part : s.exchange.part ∈ [PartState.running, .stopping]) (free : ∀ j ∈ s.engine.items, j.channel ≠ some ch) :
    s.startChannel ch = s.setItems (giveChannel s.engine.items ch) := by
  have none : s.itemOn ch = none := List.find?_eq_none.2 fun j mem => by simpa using free j mem
  simp only [State.startChannel, s.working_iff.2 part, none, Option.isNone_none, Bool.and_self, if_true]

end

/-- Settles O49: a channel takes the oldest waiting item, and the end of a delivery leaves its bytes, its answer and its slot. -/
theorem deliveriesRunOnChannels : Obligations.DeliveriesRunOnChannels := by
  refine ⟨fun s ch before after it part items busy idle free => ?_, fun s ch r it x own delivery made _ used => ?_⟩
  · have start : exec (.deliveryItemStart ch) s = .next (s.startChannel ch) := rfl
    rw [start, State.startChannel_eq part free, items, giveChannel_oldest busy idle]
    rfl
  · have other : (s.slot it.slot).state ≠ .free := by
      intro e
      rw [e] at used
      exact absurd used (by decide)
    obtain ⟨answered, quiet, items, ⟨more, stale, resident, list, others⟩, memory⟩ := State.deliveryEnd_ends own delivery made other r
    dsimp only
    rw [← s.serving_iff]
    refine ⟨s.deliveryEnd ch r, rfl, ?_, ?_, quiet, items, more, stale, resident, list, others, ?_, State.deliveryEnd_touches ..⟩
    · rintro serving rfl
      exact answered serving
    · rintro segment n serving rfl
      exact answered serving
    · intro checked read o p d order place data
      have made' : o.transfer = some x := by rwa [State.transfer?, order] at made
      obtain ⟨within, outside⟩ := State.deliveredOn_delivered order made' checked read place data ch r
      have delivered : s.delivered (s.deliveryEnd ch r) o.copy x d p.first (deliveredBlocks r x.count) (begunSegments r) :=
        ⟨within.congr (fun _ _ _ => rfl) (fun _ _ _ => by rw [memory]), fun z out => by rw [memory, outside z out]⟩
      cases r <;> exact delivered

end Sys2Proof.Machine
end

section
namespace Sys2Proof.Machine

set_option Elab.async false

/-! ## Fault offers within an event (R160 to R162) -/

section
variable {s t u : State} {ps : List Part} {b : Nat} {cause : Cause} {location loans orders : Nat}

theorem Touches.faultCapture (h : Touches ps s t) (w : Part.capture ∉ ps := by decide) (w' : Part.ports ∉ ps := by decide) :
    t.capture = s.capture := by
  obtain ⟨triggered, rearm, mask, sequence, suppressed, record⟩ := h.same .capture w
  obtain ⟨-, -, -, writing⟩ := h.same .ports w'
  cases own : t.capture
  cases before : s.capture
  rw [own, before] at triggered rearm mask sequence suppressed record writing
  cases triggered; cases rearm; cases mask; cases sequence; cases suppressed; cases record; cases writing
  rfl

theorem State.tookOffer.of_capture (h : s.tookOffer t cause location loans orders) (same : u.capture = t.capture) :
    s.tookOffer u cause location loans orders := by
  unfold State.tookOffer at *
  rwa [same]

/-- A record write begins at the end of an event whatever its work asked of the bays. -/
theorem State.workEnded_capture (u : State) (b : Nat) : (u.workEnded b).capture = u.beginRecords.capture := by
  obtain ⟨held, exchange, -, capture⟩ := u.requestSpinUp_ports b
  have tested : Touches [.records] (u.requestSpinUp b) ((u.requestSpinUp b).completionTest b) := State.completionTest_touches ..
  have same : ((u.requestSpinUp b).completionTest b).capture = u.capture := tested.faultCapture.trans capture
  have base : ((u.requestSpinUp b).completionTest b).exchange.base = u.exchange.base := by rw [tested.base, exchange]
  have may : ((u.requestSpinUp b).completionTest b).mayWriteRecords = u.mayWriteRecords := by
    rw [State.mayWriteRecords, base, tested.serving, (State.requestSpinUp_touches ..).serving, State.mayWriteRecords]
  rw [State.workEnded, State.beginRecords_captures, State.beginRecords_captures, may, same, base]

end

/-! ## The ends of write fetches (R91) -/

section
variable {s t u : State} {ch k c i data segment : Nat} {it : Item} {p : Place} {r : FetchResult} {cause : Cause}

theorem State.fetchEnd_eq (serving : s.serving = true) (own : s.itemOn ch = some it) (fetch : it.fetch = true)
    (place : (s.slot it.slot).place = some p) (r : FetchResult) :
    s.fetchEnd ch r = ((s.endItem ch).fetchServed it.slot it.cell r).workEnded p.bay := by
  have bay : (s.slot it.slot).bayOf = p.bay := by rw [Slot.bayOf, place]; rfl
  unfold State.fetchEnd
  rw [own]
  exact (if_pos fetch).trans ((if_pos serving).trans (by rw [bay]))

theorem State.fetchServed_doomed (doomed : (s.slot k).fetchFailure = some cause) (r : FetchResult) :
    s.fetchServed k c r = s.endDoomed k c cause := by
  simp only [State.fetchServed, doomed]

theorem State.fetchServed_complete (clean : (s.slot k).fetchFailure = none) (data : Nat) :
    s.fetchServed k c (.complete data) = (s.toDisk k (some data)).sendWrite k := by
  simp only [State.fetchServed, clean]

theorem State.fetchServed_bufferError (clean : (s.slot k).fetchFailure = none) (segment : Fin 6) :
    s.fetchServed k c (.bufferError segment) =
      ((s.reply c .bufferFault segment).releaseTag (s.slot k).bayOf c).endDrain k c := by
  simp only [State.fetchServed, clean]

theorem State.fetchServed_stagingError (clean : (s.slot k).fetchFailure = none) :
    s.fetchServed k c .stagingError =
      ((((s.reply c .stagingError k).releaseTag (s.slot k).bayOf c).spoilSlot k).unblock c).offer .stagingError k 0 1 := by
  simp only [State.fetchServed, clean]

theorem State.toDisk_slot (place : (s.slot k).place = some p) (data : Nat) :
    (s.toDisk k (some data)).slot k = { s.slot k with phase := some .disk, data := some (data % 2 ^ (8 * 4096 * p.count)) } := by
  unfold State.toDisk
  dsimp only
  rw [State.slot_setSlot, if_pos rfl, place]
  rfl

theorem State.toDisk_slot_other (s : State) (k : Nat) (data : Option Nat) : s.otherSlots (s.toDisk k data) k := fun _ ne =>
  (State.slot_setSlot ..).trans (if_neg ne)

/-- The disk write of a slot is sent on the tag of its lead, or waits for the ready line. -/
theorem State.sendWrite_sent (place : (s.slot k).place = some p) (lead : (s.slot k).lead = some c) :
    ∃ d, d.kind = .write ∧ d.first = p.first ∧ d.count = p.count ∧ d.tag = s.tagOf p.bay c
      ∧ ((s.lines p.bay).ready = true → ∃ n, { d with number := n } ∈ ((s.sendWrite k).bay p.bay).outstanding)
      ∧ ((s.lines p.bay).ready = false → d ∈ ((s.sendWrite k).bay p.bay).sendList) := by
  have whole : s.sendWrite k = s.send p.bay (.transfer .write (s.tagOf p.bay c) p) := by simp only [State.sendWrite, place, lead]
  obtain ⟨high, low⟩ := s.send_sent (d := .transfer .write (s.tagOf p.bay c) p) p.bay rfl
  rw [whole]
  exact ⟨.transfer .write (s.tagOf p.bay c) p, rfl, rfl, rfl, rfl, fun ready => ⟨_, high ready⟩, low⟩

/-- A fetch that completes: its drain is in phase DISK, and its disk write is sent or waits. -/
theorem State.fetchEnd_complete (serving : s.serving = true) (own : s.itemOn ch = some it) (fetch : it.fetch = true)
    (place : (s.slot it.slot).place = some p) (lead : (s.slot it.slot).lead = some c) (clean : (s.slot it.slot).fetchFailure = none) (data : Nat) :
    (let t := s.fetchEnd ch (.complete data)
     t.slot it.slot = { s.slot it.slot with phase := some .disk, data := some (data % 2 ^ (8 * 4096 * p.count)) }
      ∧ s.otherSlots t it.slot ∧ s.answered t []
      ∧ ((s.lines p.bay).ready = true → ∃ d ∈ (t.bay p.bay).outstanding,
          d.kind = .write ∧ d.first = p.first ∧ d.count = p.count ∧ d.tag = s.tagOf p.bay c)
      ∧ ((s.lines p.bay).ready = false → ∃ d ∈ (t.bay p.bay).sendList,
          d.kind = .write ∧ d.first = p.first ∧ d.count = p.count ∧ d.tag = s.tagOf p.bay c)) := by
  have ended : Touches [.engine] s (s.endItem ch) := State.endItem_touches ..
  have slot := ended.slot it.slot
  have disk := State.toDisk_touches (s.endItem ch) it.slot (some data)
  have own' := State.toDisk_slot (s := s.endItem ch) (k := it.slot) (by rw [slot, place]) data
  have sent := State.sendWrite_touches ((s.endItem ch).toDisk it.slot (some data)) it.slot
  obtain ⟨d, kind, first, count, tag, high, low⟩ := State.sendWrite_sent (s := (s.endItem ch).toDisk it.slot (some data)) (k := it.slot) (p := p)
    (c := c) (by rw [own', slot, place]) (by rw [own', slot, lead])
  rw [disk.lines, ended.lines] at high low
  rw [disk.tagOf, ended.tagOf] at tag
  rw [State.fetchEnd_eq serving own fetch place, State.fetchServed_complete (by rw [slot, clean])]
  obtain ⟨out, list⟩ := (((s.endItem ch).toDisk it.slot (some data)).sendWrite it.slot).workEnded_keepsCommands p.bay p.bay
  have last := (((s.endItem ch).toDisk it.slot (some data)).sendWrite it.slot).workEnded_touches p.bay
  have all : Touches [.engine, .staging, .records, .ports] s ((((s.endItem ch).toDisk it.slot (some data)).sendWrite it.slot).workEnded p.bay) :=
    last.after rfl (sent.after (qs := [.engine, .staging, .records]) rfl (disk.after rfl (ended.mono rfl)) |>.mono rfl)
  refine ⟨?_, fun j ne => ?_, all.answered_nil, fun ready => ?_, fun down => ⟨d, list (low down), kind, first, count, tag⟩⟩
  · rw [last.slot, sent.slot, own', slot]
  · rw [last.slot, sent.slot, State.toDisk_slot_other _ _ _ j ne, ended.slot]
  · obtain ⟨n, mem⟩ := high ready
    exact ⟨_, out mem, kind, first, count, tag⟩

/-- A fetch that fails while no fault has doomed it, before its slot is given up: its order is answered and its tag released. -/
def State.fetchFailed (s : State) (b c : Nat) (r : Result) (detail : Nat) : State := (s.reply c r detail).releaseTag b c

theorem State.fetchFailed_touches (s : State) (b c : Nat) (r : Result) (detail : Nat) : Touches [.answers, .arbiters] s (s.fetchFailed b c r detail) :=
  (State.releaseTag_touches ..).after rfl ((State.reply_touches ..).mono rfl)

theorem State.fetchFailed_answered (s : State) (b c : Nat) (r : Result) (detail : Nat) :
    s.answered (s.fetchFailed b c r detail) [plain c r detail] := by
  have all := (s.reply_answered c r detail).trans (State.releaseTag_touches _ b c).answered_nil (State.reply_touches ..).serving
  rwa [List.append_nil] at all

theorem State.fetchFailed_tagHolder (own : s.tagOf b c = some i) (r : Result) (detail : Nat) : (s.fetchFailed b c r detail).tagHolder b i = none :=
  State.releaseTag_tagHolder (by rw [(State.reply_touches ..).tagOf, own])

theorem State.fetchFailed_tagOf {l : Nat} (s : State) (b c : Nat) (r : Result) (detail : Nat) (ne : l ≠ c) (d : Nat) :
    (s.fetchFailed b c r detail).tagOf d l = s.tagOf d l := by
  rw [State.fetchFailed, State.releaseTag_tagOf _ _ _ ne, (State.reply_touches ..).tagOf]

/-- A drain that ends in an event: what the event leaves once the bay's heads and its completion test have been looked at. -/
theorem State.drainOver (before : Touches ps s u) (staging : Part.staging ∉ ps) (serving : u.serving = true)
    (tags : ∀ b l, l ≠ c → u.tagOf b l = s.tagOf b l) (k b : Nat) :
    s.offered ((u.endDrain k c).workEnded b) k
      ∧ ((s.slot k).state = .draining → s.unblocked ((u.endDrain k c).workEnded b) c) := by
  have last := (u.endDrain k c).workEnded_touches b
  have same := before.staging staging
  refine ⟨(State.endDrain_offered k c serving (congrArg Staging.slotWait same)).of_staging last.staging, fun drains => ?_⟩
  exact State.endDrain_unblocked (by rw [drains]; decide) (State.slot_of_slots (congrArg Staging.slots same)) tags last.staging
    (State.workEnded_keepsCommands _ _)

theorem State.fetchEnd_bufferError (serving : s.serving = true) (own : s.itemOn ch = some it) (fetch : it.fetch = true)
    (place : (s.slot it.slot).place = some p) (clean : (s.slot it.slot).fetchFailure = none) (segment : Fin 6) :
    (let t := s.fetchEnd ch (.bufferError segment)
     s.offered t it.slot ∧ s.answered t [plain it.cell .bufferFault segment]
      ∧ (∀ i, s.tagOf p.bay it.cell = some i → t.tagHolder p.bay i = none)
      ∧ ((s.slot it.slot).state = .draining → s.unblocked t it.cell)) := by
  have ended : Touches [.engine] s (s.endItem ch) := State.endItem_touches ..
  have slot := ended.slot it.slot
  have bay : ((s.endItem ch).slot it.slot).bayOf = p.bay := by rw [Slot.bayOf, slot, place]; rfl
  have failed := (s.endItem ch).fetchFailed_touches p.bay it.cell .bufferFault segment
  have before : Touches [.engine, .answers, .arbiters] s ((s.endItem ch).fetchFailed p.bay it.cell .bufferFault segment) :=
    failed.after rfl (ended.mono rfl)
  rw [State.fetchEnd_eq serving own fetch place, State.fetchServed_bufferError (by rw [slot, clean]), bay]
  show _ ∧ _
  have drain := State.endDrain_touches ((s.endItem ch).fetchFailed p.bay it.cell .bufferFault segment) it.slot it.cell
  have after : Touches [.staging, .records, .ports] ((s.endItem ch).fetchFailed p.bay it.cell .bufferFault segment)
      ((((s.endItem ch).fetchFailed p.bay it.cell .bufferFault segment).endDrain it.slot it.cell).workEnded p.bay) :=
    (State.workEnded_touches ..).after rfl (drain.mono rfl)
  obtain ⟨offered, unblocked⟩ := State.drainOver (c := it.cell) before (by decide) (by rw [before.serving, serving])
    (fun b l ne => by rw [State.fetchFailed_tagOf _ _ _ _ _ ne, ended.tagOf]) it.slot p.bay
  refine ⟨offered, ?_, fun i tag => ?_, unblocked⟩
  · exact State.answered.within ended ((s.endItem ch).fetchFailed_answered ..) after failed.serving (by decide) (by decide)
  · exact (after.tagHolder p.bay i).trans (State.fetchFailed_tagHolder (by rw [ended.tagOf, tag]) _ _)

theorem State.fetchEnd_doomed (serving : s.serving = true) (own : s.itemOn ch = some it) (fetch : it.fetch = true)
    (place : (s.slot it.slot).place = some p) (doomed : (s.slot it.slot).fetchFailure = some cause) (r : FetchResult) :
    (let t := s.fetchEnd ch r
     s.offered t it.slot ∧ s.answered t [plain it.cell .diskFault cause.code]
      ∧ ((s.slot it.slot).state = .draining → s.unblocked t it.cell)) := by
  have ended : Touches [.engine] s (s.endItem ch) := State.endItem_touches ..
  have replied := State.reply_touches (s.endItem ch) it.cell .diskFault cause.code
  have before : Touches [.engine, .answers] s ((s.endItem ch).reply it.cell .diskFault cause.code) := replied.after rfl (ended.mono rfl)
  rw [State.fetchEnd_eq serving own fetch place, State.fetchServed_doomed (by rw [ended.slot, doomed]), State.endDoomed]
  show _ ∧ _
  have after : Touches [.staging, .records, .ports] ((s.endItem ch).reply it.cell .diskFault cause.code)
      ((((s.endItem ch).reply it.cell .diskFault cause.code).endDrain it.slot it.cell).workEnded p.bay) :=
    (State.workEnded_touches ..).after rfl ((State.endDrain_touches ..).mono rfl)
  obtain ⟨offered, unblocked⟩ := State.drainOver (c := it.cell) before (by decide) (by rw [before.serving, serving])
    (fun b l _ => before.tagOf b l) it.slot p.bay
  exact ⟨offered, State.answered.within ended (State.reply_answered ..) after replied.serving (by decide) (by decide), unblocked⟩

/-- The state in which a staging error of a fetch is offered. -/
def State.fetchSpoiled (s : State) (b k c : Nat) : State := ((s.fetchFailed b c .stagingError k).spoilSlot k).unblock c

theorem State.spoilSlot_slot (s : State) (k j : Nat) : (s.spoilSlot k).slot j = if j = k then { Slot.free with state := .bad } else s.slot j := by
  rw [State.spoilSlot, State.leaveResidency_slot, State.slot_setSlot]

theorem State.fetchEnd_stagingError (serving : s.serving = true) (own : s.itemOn ch = some it) (fetch : it.fetch = true)
    (place : (s.slot it.slot).place = some p) (clean : (s.slot it.slot).fetchFailure = none) :
    (let t := s.fetchEnd ch .stagingError
     t.slot it.slot = { Slot.free with state := .bad }
      ∧ s.answered t [plain it.cell .stagingError it.slot] ∧ t.staging.slotWait = s.staging.slotWait
      ∧ (∀ i, s.tagOf p.bay it.cell = some i → t.tagHolder p.bay i = none)
      ∧ ((s.slot it.slot).state = .draining → s.unblocked t it.cell) ∧ s.tookOffer t .stagingError it.slot 0 1) := by
  have ended : Touches [.engine] s (s.endItem ch) := State.endItem_touches ..
  have slot := ended.slot it.slot
  have bay : ((s.endItem ch).slot it.slot).bayOf = p.bay := by rw [Slot.bayOf, slot, place]; rfl
  rw [State.fetchEnd_eq serving own fetch place, State.fetchServed_stagingError (by rw [slot, clean]), bay]
  obtain ⟨f, hf⟩ : ∃ f, f = (s.endItem ch).fetchFailed p.bay it.cell .stagingError it.slot := ⟨_, rfl⟩
  have failed : Touches [.answers, .arbiters] (s.endItem ch) f := by rw [hf]; exact (s.endItem ch).fetchFailed_touches ..
  have before : Touches [.engine, .answers, .arbiters] s f := failed.after rfl (ended.mono rfl)
  have answered : (s.endItem ch).answered f [plain it.cell .stagingError it.slot] := by rw [hf]; exact (s.endItem ch).fetchFailed_answered ..
  have tags : ∀ b l, l ≠ it.cell → f.tagOf b l = s.tagOf b l := fun b l ne => by
    rw [hf, State.fetchFailed_tagOf _ _ _ _ _ ne, ended.tagOf]
  have released : ∀ i, s.tagOf p.bay it.cell = some i → f.tagHolder p.bay i = none := fun i tag => by
    rw [hf]
    exact State.fetchFailed_tagHolder (by rw [ended.tagOf, tag]) _ _
  have unfolded : ((s.endItem ch).reply it.cell .stagingError it.slot).releaseTag p.bay it.cell = f := hf.symm
  rw [unfolded]
  have unblocks := State.unblock_touches (f.spoilSlot it.slot) it.cell
  have spoils : Touches [.staging] f (f.spoilSlot it.slot) := State.spoilSlot_touches ..
  have drained : Touches [.staging, .records] f ((f.spoilSlot it.slot).unblock it.cell) := unblocks.after rfl (spoils.mono rfl)
  have offer : Touches [.capture] _ (((f.spoilSlot it.slot).unblock it.cell).offer .stagingError it.slot 0 1) := State.offer_touches ..
  have last := (((f.spoilSlot it.slot).unblock it.cell).offer .stagingError it.slot 0 1).workEnded_touches p.bay
  have after : Touches [.staging, .records, .ports, .capture] f
      ((((f.spoilSlot it.slot).unblock it.cell).offer .stagingError it.slot 0 1).workEnded p.bay) :=
    last.after rfl (offer.after rfl (drained.mono rfl))
  have all : Touches [.engine, .answers, .arbiters, .staging, .records] s ((f.spoilSlot it.slot).unblock it.cell) :=
    drained.after rfl (before.mono rfl)
  have bad : (f.spoilSlot it.slot).slot it.slot = { Slot.free with state := .bad } := (State.spoilSlot_slot ..).trans (if_pos rfl)
  obtain ⟨slots, staging⟩ := (f.spoilSlot it.slot).unblock_staging it.cell
  refine ⟨?_, State.answered.within ended answered after failed.serving (by decide) (by decide), ?_,
    fun i tag => (after.tagHolder p.bay i).trans (released i tag), fun drains => ?_, ?_⟩
  · rw [last.slot, offer.slot, State.unblock_slot_other (by rw [bad]; exact nofun), bad]
  · rw [last.staging, offer.staging, staging]
    show f.staging.slotWait = _
    rw [before.staging]
  · have other : ∀ j, (s.slot j).state = .filling → j ≠ it.slot := fun j fills e => by rw [e, drains] at fills; cases fills
    refine State.unblocked_of (u := f.spoilSlot it.slot) (fun j fills => ?_) (fun b l ne => ?_) (fun j _ => ?_) ?_
    · rw [State.spoilSlot_slot, if_neg (other j fills), before.slot]
    · rw [spoils.tagOf, tags b l ne]
    · rw [last.slot, offer.slot]
    · exact offer.keepsCommands.trans (State.workEnded_keepsCommands _ _)
  · exact (State.offer_tookOffer (by rw [all.serving, serving]) all.faultCapture all.clock all.base).of_capture (State.workEnded_capture ..)

end

end Sys2Proof.Machine
end

section
namespace Sys2Proof.Machine

set_option Elab.async false

/-! ## Deliveries that a staging error ends (R46, R100) -/

section
variable {s t u : State} {copied : List Nat} {it j e : Item} {z d : Nat} {items before after : List Item} {o : HeldOrder} {x : Transfer} {p : Place}

theorem Touches.ordersChecked {ps : List Part} (h : Touches ps s t) (checked : s.ordersChecked) (w : Part.held ∉ ps := by decide) :
    t.ordersChecked := by
  unfold State.ordersChecked
  rw [h.held w]
  exact checked

theorem copiedBy_congr {ps : List Part} (h : Touches ps s t) (copied : List Nat) (it : Item) (w : Part.held ∉ ps := by decide) :
    copiedBy t copied it = copiedBy s copied it := by
  simp only [copiedBy, State.countOf, h.transfer _ w]

theorem copiedBy_le (made : s.transfer? it.cell = some x) (copied : List Nat) : copiedBy s copied it ≤ x.count := by
  unfold copiedBy
  split
  · rw [State.countOf_eq made]; exact Nat.min_le_right ..
  · exact Nat.zero_le _

theorem copiedBy_eq (s : State) (copied : List Nat) (it : Item) :
    copiedBy s copied it = match it.channel with
      | some n => min (copied.getD n 0) (s.countOf it.cell)
      | none => 0 := by
  unfold copiedBy
  cases it.channel <;> rfl

/-- An address lies in no buffer of a delivery that has a channel. -/
def State.clearOf (s : State) (z : Nat) (it : Item) : Prop :=
  it.channel ≠ none → ∀ o, s.order? it.cell = some o → ∀ i, bufferAddress (Copy.segments o.copy) i ≠ some z

theorem State.leaveCopied_queued (queued : it.channel = none) (copied : List Nat) : s.leaveCopied copied it = s := by
  unfold State.leaveCopied
  rw [queued]
  exact if_neg (by decide)

theorem State.leaveCopied_on (on : it.channel.isSome = true) (copied : List Nat) :
    s.leaveCopied copied it = s.deliverBytes it.slot it.cell (some { blocks := copiedBy s copied it, segments := 6 }) :=
  if_pos on

/-- A delivery that is ended writes nothing outside its buffer. -/
theorem State.leaveCopied_outside (checked : s.ordersChecked) (clear : s.clearOf z it) (copied : List Nat) :
    Memory.read (s.leaveCopied copied it).hostMem z = Memory.read s.hostMem z := by
  cases channel : it.channel with
  | none => rw [State.leaveCopied_queued channel]
  | some ch =>
    rw [State.leaveCopied_on (by rw [channel]; rfl)]
    cases made : s.transfer? it.cell with
    | none => rw [State.deliverBytes_none made]
    | some x =>
      obtain ⟨o, own, made⟩ := Option.bind_eq_some_iff.1 made
      rw [State.deliverBytes_eq own made, State.copyBlocks_outside _ (checked.buffer own made).1]
      exact clear (by rw [channel]; exact nofun) o own

theorem State.leaveCopies_touches (copied : List Nat) (items : List Item) (s : State) :
    Touches [.hostMem] s (items.foldl (fun s it => s.leaveCopied copied it) s) :=
  Touches.foldl (fun u it => State.leaveCopied_touches u copied it) (Touches.refl ..)

theorem State.clearOf.touches {ps : List Part} (h : Touches ps s t) (clear : s.clearOf z it) (w : Part.held ∉ ps := by decide) :
    t.clearOf z it := by
  unfold State.clearOf
  rw [h.order _ w]
  exact clear

theorem State.leaveCopies_outside (copied : List Nat) (items : List Item) (s : State) (checked : s.ordersChecked)
    (clear : ∀ j ∈ items, s.clearOf z j) :
    Memory.read (items.foldl (fun s it => s.leaveCopied copied it) s).hostMem z = Memory.read s.hostMem z := by
  induction items generalizing s with
  | nil => rfl
  | cons it items ih =>
    obtain ⟨own, rest⟩ := List.forall_mem_cons.1 clear
    have one := State.leaveCopied_touches s copied it
    rw [List.foldl_cons, ih _ (one.ordersChecked checked) (fun j mem => (rest j mem).touches one), State.leaveCopied_outside checked own]

/-- The deliveries that had a channel leave bytes, those of the queue none. -/
theorem State.leaveCopies_channels (copied : List Nat) (items : List Item) (s : State) :
    items.foldl (fun s it => s.leaveCopied copied it) s
      = (items.filter (fun j => j.channel.isSome)).foldl (fun s it => s.leaveCopied copied it) s := by
  induction items generalizing s with
  | nil => rfl
  | cons it items ih =>
    cases channel : it.channel with
    | none =>
      rw [List.filter_cons_of_neg (by rw [channel]; decide), List.foldl_cons, State.leaveCopied_queued channel, ih]
    | some ch => rw [List.filter_cons_of_pos (by rw [channel]; rfl), List.foldl_cons, List.foldl_cons, ih]

/-- What one of the deliveries that are ended together leaves in a buffer that shares no byte with another's. -/
theorem State.leaveCopies_within (checked : s.ordersChecked) (on : items.filter (fun j => j.channel.isSome) = before ++ j :: after)
    (own : s.order? j.cell = some o) (made : o.transfer = some x) (place : (s.slot j.slot).place = some p) (data : (s.slot j.slot).data = some d)
    (apart : ∀ e ∈ before ++ after, ∀ q, s.order? e.cell = some q → ∀ m i z, bufferAddress (Copy.segments o.copy) m = some z →
      bufferAddress (Copy.segments q.copy) i ≠ some z) (copied : List Nat) :
    s.deliveredWithin (items.foldl (fun s it => s.leaveCopied copied it) s) o.copy x d p.first (copiedBy s copied j) 6 := by
  have channel : j.channel.isSome = true := by
    have mem : j ∈ items.filter (fun j => j.channel.isSome) := by rw [on]; exact List.mem_append_right _ List.mem_cons_self
    exact (List.mem_filter.1 mem).2
  obtain ⟨u, hu⟩ : ∃ u, u = before.foldl (fun s it => s.leaveCopied copied it) s := ⟨_, rfl⟩
  have early : Touches [.hostMem] s u := by rw [hu]; exact State.leaveCopies_touches ..
  have one := State.leaveCopied_touches u copied j
  obtain ⟨n, bytes, each⟩ := Slot.bytesFor_byte (x := x) place data
  have whole : u.leaveCopied copied j =
      u.copyBlocks (Copy.segments o.copy) (some n) (some { blocks := copiedBy s copied j, segments := 6 }) := by
    rw [State.leaveCopied_on channel, State.deliverBytes_eq (by rw [early.order, own]) made, early.slot, bytes, copiedBy_congr early]
  have within := u.copyBlocks_stopped o.copy n (checked.buffer own made).1
    (copiedBy_le (copied := copied) (by rw [State.transfer?, own]; exact made)) each 6
  have clear : ∀ e ∈ before ++ after, ∀ m z, bufferAddress (Copy.segments o.copy) m = some z → s.clearOf z e :=
    fun e mem m z found _ q order i => apart e mem q order m i z found
  rw [State.leaveCopies_channels, on, List.foldl_append, List.foldl_cons, ← hu]
  refine (whole ▸ within).congr (fun m z found => ?_) (fun m z found => ?_)
  · rw [hu, State.leaveCopies_outside copied before s checked fun e mem => clear e (List.mem_append_left _ mem) m z found]
  · have both : Touches [.hostMem] s (u.leaveCopied copied j) := one.after rfl early
    rw [State.leaveCopies_outside copied after _ (both.ordersChecked checked) fun e mem =>
      (clear e (List.mem_append_right _ mem) m z found).touches both]

/-- The answer of a delivery that a staging error of its slot ends (R100). -/
def State.spoiledAnswer (s : State) (copied : List Nat) (it : Item) : AnswerWrite :=
  reported it.cell .stagingError it.slot (copiedBy s copied it) (sourceOf it.led (copiedBy s copied it))

theorem State.answersSpoiled_answered (copied : List Nat) (items : List Item) (s : State) :
    s.answered (items.foldl (fun s it => s.answerSpoiled copied it) s) (items.map (fun it => s.spoiledAnswer copied it))
      ∧ Touches [.answers] s (items.foldl (fun s it => s.answerSpoiled copied it) s) := by
  induction items generalizing s with
  | nil => exact ⟨s.answered_refl, Touches.refl ..⟩
  | cons it items ih =>
    have one := State.answerSpoiled_touches s copied it
    obtain ⟨answered, touched⟩ := ih (s.answerSpoiled copied it)
    refine ⟨?_, touched.after rfl one⟩
    have first : s.answered (s.answerSpoiled copied it) [s.spoiledAnswer copied it] := State.answerWith_answered ..
    have rest : (s.answerSpoiled copied it).spoiledAnswer copied = s.spoiledAnswer copied := funext fun j => by
      unfold State.spoiledAnswer
      rw [copiedBy_congr one]
    rw [rest] at answered
    exact first.trans answered one.serving

end

/-! ## A staging error found by a delivery (R100) -/

section
variable {s : State} {ch k : Nat} {copied : List Nat} {it : Item}

/-- The deliveries of a slot. -/
def State.deliveriesOf (s : State) (k : Nat) : List Item := s.engine.items.filter (fun j => !j.fetch && j.slot == k)

theorem State.slot_of_mem_deliveriesOf (mem : it ∈ s.deliveriesOf k) : it.slot = k :=
  eq_of_beq (Bool.and_eq_true_iff.1 (List.mem_filter.1 mem).2).2

theorem exec_stagingError (ch : Fin 8) (copied : List Nat) (s : State) :
    exec (.stagingError ch copied) s = .next (s.stagingErrorOn ch copied) := rfl

theorem State.stagingErrorOn_eq (own : s.itemOn ch = some it) (delivery : it.fetch = false) (copied : List Nat) :
    s.stagingErrorOn ch copied = s.spoiled it.slot copied := by
  unfold State.stagingErrorOn
  rw [own]
  exact if_neg (by rw [delivery]; exact Bool.false_ne_true)

/-- The state in which the deliveries of slot k have left their bytes and are answered. -/
def State.deliveriesEnded (s : State) (k : Nat) (copied : List Nat) : State :=
  (s.deliveriesOf k).foldl (fun s it => s.answerSpoiled copied it) ((s.deliveriesOf k).foldl (fun s it => s.leaveCopied copied it) s)

/-- The state in which a staging error of a delivery is offered. -/
def State.slotSpoiled (s : State) (k : Nat) (copied : List Nat) : State :=
  ((s.deliveriesEnded k copied).setItems ((s.deliveriesEnded k copied).engine.items.filter (fun it => it.fetch || it.slot != k))).spoilSlot k

theorem State.spoiled_eq (serving : s.serving = true) (k : Nat) (copied : List Nat) :
    s.spoiled k copied = ((s.slotSpoiled k copied).offer .stagingError k 0 (s.deliveriesOf k).length).beginRecords := by
  have left := State.leaveCopies_touches copied (s.deliveriesOf k) s
  have ended : Touches [.hostMem, .answers] s (s.deliveriesEnded k copied) :=
    (State.answersSpoiled_answered ..).2.after rfl (left.mono rfl)
  have all : Touches [.hostMem, .answers, .engine, .staging] s (s.slotSpoiled k copied) :=
    (State.spoilSlot_touches ..).after rfl ((State.setItems_touches ..).after (qs := [.hostMem, .answers, .engine]) rfl (ended.mono rfl) |>.mono rfl)
  have answers := left.serving.trans serving
  have last := all.serving.trans serving
  unfold State.slotSpoiled State.deliveriesEnded State.deliveriesOf at *
  unfold State.spoiled
  simp only [answers, if_true, last]

theorem State.slotSpoiled_ends (s : State) (k : Nat) (copied : List Nat) :
    Touches [.hostMem, .answers, .engine, .staging] s (s.slotSpoiled k copied)
      ∧ (∀ j, (s.slotSpoiled k copied).slot j = if j = k then { Slot.free with state := .bad } else s.slot j)
      ∧ k ∉ (s.slotSpoiled k copied).staging.residency
      ∧ (s.slotSpoiled k copied).staging.slotWait = s.staging.slotWait
      ∧ (s.slotSpoiled k copied).engine.items = s.engine.items.filter (fun j => j.fetch || j.slot != k)
      ∧ s.answered (s.slotSpoiled k copied) ((s.deliveriesOf k).map (fun it => s.spoiledAnswer copied it))
      ∧ (s.slotSpoiled k copied).hostMem = ((s.deliveriesOf k).foldl (fun s it => s.leaveCopied copied it) s).hostMem := by
  obtain ⟨v, hv⟩ : ∃ v, v = (s.deliveriesOf k).foldl (fun s it => s.leaveCopied copied it) s := ⟨_, rfl⟩
  have left : Touches [.hostMem] s v := by rw [hv]; exact State.leaveCopies_touches ..
  obtain ⟨answered, answers⟩ := State.answersSpoiled_answered copied (s.deliveriesOf k) v
  have same : v.spoiledAnswer copied = s.spoiledAnswer copied := funext fun j => by
    unfold State.spoiledAnswer
    rw [copiedBy_congr left]
  obtain ⟨w, hw⟩ : ∃ w, w = s.deliveriesEnded k copied := ⟨_, rfl⟩
  have whole : w = (s.deliveriesOf k).foldl (fun s it => s.answerSpoiled copied it) v := by rw [hw, hv]; rfl
  rw [← whole] at answered answers
  have ended : Touches [.hostMem, .answers] s w := answers.after rfl (left.mono rfl)
  have put : Touches [.engine] w (w.setItems (w.engine.items.filter (fun it => it.fetch || it.slot != k))) := State.setItems_touches ..
  have last : Touches [.engine, .staging] w (s.slotSpoiled k copied) := by
    rw [State.slotSpoiled, ← hw]
    exact (State.spoilSlot_touches ..).after rfl (put.mono rfl)
  refine ⟨last.after rfl (ended.mono rfl), fun j => ?_, fun mem => ?_, ?_, ?_, ?_, ?_⟩
  · rw [State.slotSpoiled, State.spoilSlot_slot, ← hw, put.slot, ended.slot]
  · exact absurd (List.mem_filter.1 mem).2 (by simp)
  · rw [State.slotSpoiled, ← hw]
    show w.staging.slotWait = _
    rw [ended.staging]
  · rw [State.slotSpoiled, ← hw]
    show w.engine.items.filter _ = _
    rw [ended.same .engine (by decide)]
  · rw [same] at answered
    exact State.answered.within left answered last answers.serving (by decide) (by decide)
  · rw [last.hostMem, answers.hostMem, hv]

end

/-- Settles O50: the end of a write fetch by its result, and the deliveries that a staging error ends. -/
theorem fetchesAndStagingErrors : Obligations.FetchesAndStagingErrors := by
  refine ⟨fun s ch it p c part own fetch place lead => ?_, fun s ch copied it part own delivery => ?_⟩
  · have serving := s.serving_iff.2 part
    have run (r : FetchResult) : exec (.fetchEnd ch r) s = .next (s.fetchEnd ch r) := rfl
    exact ⟨fun data clean => ⟨_, run _, State.fetchEnd_complete serving own fetch place lead clean data⟩,
      fun segment clean => ⟨_, run _, State.fetchEnd_bufferError serving own fetch place clean segment⟩,
      fun clean => ⟨_, run _, State.fetchEnd_stagingError serving own fetch place clean⟩,
      fun cause r doomed => ⟨_, run _, State.fetchEnd_doomed serving own fetch place doomed r⟩⟩
  · have serving := s.serving_iff.2 part
    obtain ⟨touched, slots, residency, list, items, answered, memory⟩ := s.slotSpoiled_ends it.slot copied
    have offer : Touches [.capture] (s.slotSpoiled it.slot copied)
        ((s.slotSpoiled it.slot copied).offer .stagingError it.slot 0 (s.deliveriesOf it.slot).length) := State.offer_touches ..
    have last : Touches [.capture, .ports] (s.slotSpoiled it.slot copied)
        ((s.slotSpoiled it.slot copied).offer .stagingError it.slot 0 (s.deliveriesOf it.slot).length).beginRecords :=
      (State.beginRecords_touches ..).after rfl (offer.mono rfl)
    refine ⟨_, exec_stagingError .., ?_⟩
    rw [State.stagingErrorOn_eq own delivery, State.spoiled_eq serving]
    refine ⟨by rw [last.slot, slots, if_pos rfl], by rw [last.staging]; exact residency, fun j ne => by rw [last.slot, slots, if_neg ne],
      by rw [last.staging, list], by rw [last.same .engine (by decide), items], ?_, ?_, fun checked z clear => ?_,
      fun before j after o x p d checked on order apart made read place data => ?_⟩
    · have all := answered.trans last.answered_nil touched.serving
      rw [List.append_nil] at all
      refine (congrArg (s.answered _) (List.map_congr_left fun j mem => ?_)).mp all
      rw [State.spoiledAnswer, State.slot_of_mem_deliveriesOf mem]
      exact congrArg (fun n => reported j.cell .stagingError it.slot n (sourceOf j.led n)) (copiedBy_eq s copied j)
    · exact State.offer_tookOffer (by rw [touched.serving, serving]) touched.faultCapture touched.clock touched.base
    · rw [last.hostMem, memory]
      exact State.leaveCopies_outside copied (s.deliveriesOf it.slot) s checked clear
    · have mem : j ∈ s.deliveriesOf it.slot :=
        List.mem_of_mem_filter ((congrArg (j ∈ ·) on).mpr (List.mem_append_right _ List.mem_cons_self))
      have within := State.leaveCopies_within (items := s.deliveriesOf it.slot) checked on order made
        (by rw [State.slot_of_mem_deliveriesOf mem, place]) (by rw [State.slot_of_mem_deliveriesOf mem, data]) apart copied
      rw [copiedBy_eq] at within
      exact within.congr (fun _ _ _ => rfl) (fun _ _ _ => by rw [last.hostMem, memory])

end Sys2Proof.Machine
end

section
namespace Sys2Proof.Machine

set_option Elab.async false

/-! ## The cost of a head (R62) -/

section
variable {a w : Nat}

/-- A quotient rounded up is the least that covers the dividend. -/
theorem ceilDiv_bounds (a : Nat) (pos : 1 ≤ w) : a ≤ ceilDiv a w * w ∧ ceilDiv a w * w < a + w := by
  have split := Nat.div_add_mod (a + w - 1) w
  have small := Nat.mod_lt (a + w - 1) pos
  rw [Nat.mul_comm] at split
  unfold ceilDiv
  omega

theorem ceilDiv_pos (some : 1 ≤ a) (pos : 1 ≤ w) : 1 ≤ ceilDiv a w := by
  by_contra none
  have covers := (ceilDiv_bounds a pos).1
  rw [Nat.lt_one_iff.1 (Nat.not_le.1 none)] at covers
  omega

theorem ceilDiv_le (some : 1 ≤ a) (pos : 1 ≤ w) : ceilDiv a w ≤ a := by
  unfold ceilDiv
  refine Nat.div_le_of_le_mul ?_
  obtain ⟨v, rfl⟩ := Nat.exists_eq_add_of_le pos
  have : v * 1 ≤ v * a := Nat.mul_le_mul_left v some
  rw [Nat.add_mul]
  omega

end

theorem distance_eq (m n : Nat) : distance m n = max m n - min m n := by
  unfold distance; omega

/-- The seek cost of a head is at its limit from the distance on at which it comes there. -/
theorem seekCost_far {a : Arbiter} {first : Nat} (clamped : a.seekMin ≤ a.seekMax) (apart : distance first a.h ≠ 0)
    (far : (a.seekMax - a.seekMin) * 2 ^ a.seekShift ≤ distance first a.h) : seekCost a first = a.seekMax := by
  have steps : a.seekMax - a.seekMin ≤ distance first a.h / 2 ^ a.seekShift := (Nat.le_div_iff_mul_le (Nat.two_pow_pos _)).2 far
  simp only [seekCost, apart, if_false]
  omega

/-- Settles O58: S and T of R62, each with its limits, and their sum. -/
theorem costOfAHead : Obligations.CostOfAHead := by
  refine ⟨fun a first count bound place some few rate fast slow => ?_, fun s b g orders => ?_, fun q => ?_⟩
  · have blocks : 1 ≤ count * 1024 := by omega
    have covers := ceilDiv_bounds (count * 1024) rate
    have pos := ceilDiv_pos blocks rate
    have tight : (ceilDiv (count * 1024) a.rate - 1) * a.rate < count * 1024 := by
      rw [Nat.sub_mul]; omega
    have most := ceilDiv_le blocks rate
    have limit : seekCost a first ≤ 65535 := by
      unfold seekCost; dsimp only; split <;> omega
    refine ⟨distance first a.h, seekCost a first, transferCost a count, distance_eq .., ?_, ?_, ?_, limit, tight, covers.1, pos, ?_, rfl,
      ?_, Nat.min_le_left .., fun clamped far apart => seekCost_far clamped apart far⟩
    · unfold distance; omega
    · exact fun here => if_pos here
    · exact fun apart => if_neg apart
    · exact most.trans (by omega)
    · simp only [costOf, Config.maxCost, transferCost]; omega
  · rw [State.setOrders, State.fifo_setFifo_self]
  · unfold Fifo.giveBack; split <;> rfl

/-! ## The rebase (R65) -/

/-- Settles O59: V, the F and the tags of the bay by their own lemmas; other bays are not reached. -/
theorem rebaseLowersEveryTagAlike : Obligations.RebaseLowersEveryTagAlike := by
  refine ⟨fun s b low => ?_, fun s b high => ?_⟩
  · exact if_neg (Nat.not_le.2 low)
  · have own : (s.rebase b).arbiter b = { s.arbiter b with v := (s.arbiter b).v - 1073741824 } := by
      rw [State.rebase_arbiter, if_pos ⟨rfl, high⟩]
    refine ⟨own, fun once => ?_, fun g bound => ?_, fun c g ne bound => ⟨s.rebase_fifo_other ne bound, ?_⟩, State.rebase_touches ..⟩
    · rw [own]; dsimp only; omega
    · rw [s.rebase_fifo b bound, if_pos high]; rfl
    · rw [State.rebase_arbiter, if_neg fun h => ne h.1]

/-! ## The smallest finish tag (R70) -/

section
variable {s : State} {b g c : Nat} {tags : Tags}

/-- A head whose group, cell and tags have a smaller finish tag than another's, or the same one and no higher group. -/
def headLe (p q : Nat × Nat × Tags) : Prop := p.2.2.finish ≤ q.2.2.finish ∧ (p.2.2.finish = q.2.2.finish → p.1 ≤ q.1)

theorem headLe_refl (p : Nat × Nat × Tags) : headLe p p := ⟨Nat.le_refl _, fun _ => Nat.le_refl _⟩

theorem headLe.trans {p q r : Nat × Nat × Tags} (h : headLe p q) (k : headLe q r) : headLe p r := by
  obtain ⟨h, h'⟩ := h
  obtain ⟨k, k'⟩ := k
  refine ⟨h.trans k, fun same => ?_⟩
  exact (h' (by omega)).trans (k' (by omega))

theorem betterHead_le {p q : Nat × Nat × Tags} (rises : p.1 < q.1) : headLe (betterHead p q) p ∧ headLe (betterHead p q) q := by
  unfold betterHead
  split
  · next less => exact ⟨⟨less.le, fun same => absurd same less.ne⟩, headLe_refl q⟩
  · next less => exact ⟨headLe_refl p, Nat.not_lt.1 less, fun _ => rises.le⟩

/-- Of heads by rising group, the one that is left is one of them, and none is before it. -/
theorem foldl_betterHead_least (qs : List (Nat × Nat × Tags)) (p : Nat × Nat × Tags) (rising : (p :: qs).Pairwise (fun x y => x.1 < y.1)) :
    qs.foldl betterHead p ∈ p :: qs ∧ ∀ x ∈ p :: qs, headLe (qs.foldl betterHead p) x := by
  induction qs generalizing p with
  | nil => simp [headLe_refl]
  | cons q qs ih =>
    obtain ⟨first, rising⟩ := List.pairwise_cons.1 rising
    obtain ⟨second, rest⟩ := List.pairwise_cons.1 rising
    have better := betterHead_le (first q List.mem_cons_self)
    have one := betterHead_either p q
    obtain ⟨mem, least⟩ := ih (betterHead p q) <| List.pairwise_cons.2 ⟨fun x hx => by
      rcases one with e | e <;> rw [e]
      · exact first x (List.mem_cons_of_mem _ hx)
      · exact second x hx, rest⟩
    rw [List.foldl_cons]
    refine ⟨?_, fun x hx => ?_⟩
    · rcases List.mem_cons.1 mem with e | mem
      · rcases one with k | k <;> rw [e, k] <;> simp
      · exact List.mem_cons_of_mem _ (List.mem_cons_of_mem _ mem)
    · have own := least _ List.mem_cons_self
      rcases List.mem_cons.1 hx with rfl | hx
      · exact own.trans better.1
      · rcases List.mem_cons.1 hx with rfl | hx
        · exact own.trans better.2
        · exact least x (List.mem_cons_of_mem _ hx)

/-- The eligible heads of a bay, by rising group. -/
def State.eligibleHeads (s : State) (b : Nat) : List (Nat × Nat × Tags) :=
  allGroups.filterMap (fun g => (s.eligibleHead b g).map (fun h => (g, h)))

theorem State.mem_eligibleHeads : (g, c, tags) ∈ s.eligibleHeads b ↔ g < 16 ∧ s.eligibleHead b g = some (c, tags) := by
  simp only [State.eligibleHeads, List.mem_filterMap, allGroups, List.mem_range, Option.map_eq_some_iff, Prod.mk.injEq]
  exact ⟨fun ⟨n, bound, h, own, e, k⟩ => by subst e k; exact ⟨bound, own⟩, fun ⟨bound, own⟩ => ⟨g, bound, _, own, rfl, rfl⟩⟩

theorem State.eligibleHeads_rising (s : State) (b : Nat) : (s.eligibleHeads b).Pairwise (fun x y => x.1 < y.1) := by
  refine List.pairwise_filterMap.2 (List.pairwise_lt_range.imp fun {m n} less x hx y hy => ?_)
  obtain ⟨h, -, rfl⟩ := Option.map_eq_some_iff.1 hx
  obtain ⟨k, -, rfl⟩ := Option.map_eq_some_iff.1 hy
  exact less

/-- The choice is made among the eligible heads one after another. -/
theorem State.choice_eq (s : State) (b : Nat) :
    s.choice b = (s.eligibleHeads b).head?.map (fun p => (s.eligibleHeads b).tail.foldl betterHead p) := by
  have step (qs : List (Nat × Nat × Tags)) : ∀ p, qs.foldl (fun best x => match best with
      | none => some x
      | some y => some (betterHead y x)) (some p) = some (qs.foldl betterHead p) := by
    induction qs with
    | nil => exact fun _ => rfl
    | cons q qs ih => exact fun p => ih (betterHead p q)
  have whole : s.choice b = (s.eligibleHeads b).foldl (fun best x => match best with
      | none => some x
      | some y => some (betterHead y x)) none := rfl
  rw [whole]
  cases s.eligibleHeads b with
  | nil => rfl
  | cons p qs => exact step qs p

/-- The choice is before every other eligible head of its bay. -/
theorem State.choice_least (chosen : s.choice b = some (g, c, tags)) {h d : Nat} {other : Tags} (bound : h < 16)
    (eligible : s.eligibleHead b h = some (d, other)) : headLe (g, c, tags) (h, d, other) := by
  have mem := State.mem_eligibleHeads.2 ⟨bound, eligible⟩
  have rising := s.eligibleHeads_rising b
  rw [State.choice_eq] at chosen
  cases heads : s.eligibleHeads b with
  | nil => rw [heads] at mem; cases mem
  | cons p qs =>
    rw [heads] at chosen mem rising
    have own : qs.foldl betterHead p = (g, c, tags) := Option.some.inj chosen
    exact own ▸ (foldl_betterHead_least qs p rising).2 _ mem

theorem State.choice_eq_none : s.choice b = none ↔ ∀ g, g < 16 → s.eligibleHead b g = none := by
  rw [State.choice_eq, Option.map_eq_none_iff, List.head?_eq_none_iff]
  simp only [State.eligibleHeads, List.filterMap_eq_nil_iff, Option.map_eq_none_iff, allGroups, List.mem_range, Config.numGroups]

/-- A head is ready where it is tagged and meets conditions 1, 2, 3, 5 and 6 of R67. -/
theorem State.readyHead_eq_some : s.readyHead b g = some (c, tags) ↔
    (s.fifo b g).orders.head? = some c ∧ (s.fifo b g).tags = some tags ∧ ∃ x, s.transfer? c = some x ∧ s.headReady b g x := by
  have tagged : (s.freeTag b).isSome = true ↔ ∃ i, i < 4 ∧ s.tagHolder b i = none := by
    simp [State.freeTag, List.find?_isSome, Config.numTags]
  have ready (x : Transfer) : (1 ≤ (s.group g).weight && !s.groupHeld g && !(s.group g).capReached && (s.freeTag b).isSome
      && !s.overDrain b x.first x.count) = true ↔ s.headReady b g x := by
    simp only [Bool.and_eq_true, decide_eq_true_eq, Bool.not_eq_true', State.overDrain_eq_false, tagged, State.headReady, State.groupHeld,
      Bool.and_eq_false_imp, not_and, Bool.not_eq_true, and_assoc]
  unfold State.readyHead
  dsimp only
  split
  · next d rest own orders head =>
    rw [orders, head]
    cases made : s.transfer? d with
    | none => simp only [List.head?_cons, Option.some.injEq]; exact ⟨nofun, fun ⟨e, _, x, k, _⟩ => by rw [← e, made] at k; cases k⟩
    | some x =>
      dsimp only
      simp only [ready, List.head?_cons, Option.some.injEq, Option.ite_none_right_eq_some, Prod.mk.injEq]
      exact ⟨fun ⟨k, e, f⟩ => ⟨e, f, x, by rw [← e, made], k⟩, fun ⟨e, f, y, k, l⟩ => ⟨by rw [← e, made] at k; cases k; exact l, e, f⟩⟩
  · next none =>
    refine ⟨nofun, fun ⟨head, own, _⟩ => ?_⟩
    cases orders : (s.fifo b g).orders with
    | nil => rw [orders] at head; cases head
    | cons d rest => exact (none d rest tags orders own).elim

theorem State.eligibleHead_eq_some : s.eligibleHead b g = some (c, tags) ↔
    (s.bay b).state ∈ [BayState.online, .retiring] ∧ (s.lines b).ready = true ∧ s.readyHead b g = some (c, tags) := by
  unfold State.eligibleHead
  rw [Option.ite_none_right_eq_some]
  simp [State.bayServes, State.readyHigh, and_assoc]

end

/-- Settles O47: the choice is the least of the eligible heads, by finish tag and group; eligibility condition by condition. -/
theorem theSmallestFinishTagIsChosen : Obligations.TheSmallestFinishTagIsChosen := by
  refine ⟨fun s b g c x chosen => ?_, fun s b => State.choice_eq_none, fun s b g c x => ?_⟩
  · obtain ⟨bound, own⟩ := State.choice_eligible chosen
    exact ⟨bound, own, fun h d y small eligible => State.choice_least chosen small eligible⟩
  · rw [State.eligibleHead_eq_some, State.readyHead_eq_some]
    constructor
    · rintro ⟨serves, high, head, own, y, made, opened, free, open', tag, clear⟩
      exact ⟨head, own, opened, free, open', serves, high, tag, y, made, clear⟩
    · rintro ⟨head, own, opened, free, open', serves, high, tag, y, made, clear⟩
      exact ⟨serves, high, head, own, y, made, opened, free, open', tag, clear⟩

end Sys2Proof.Machine
end

section
namespace Sys2Proof.Machine

set_option Elab.async false

/-! ## Policy orders that are refused -/

section
variable {s : State} {k : OrderKind} {cell : Fin 1024} {o : HeldOrder} {d : Nat}

/-- The format checks of a policy order behind that of its node, by their numbers. -/
def Copy.policyChecks (c : Copy) (k : OrderKind) : List (Nat × Bool) :=
  match k with
  | .groupSet => [(3, c.group < Config.numGroups)]
  | .diskSet => [(3, c.bay < Config.numBays), (4, c.seekShift ≤ 31)]
  | .clockSet => [(3, c.prescaleCode ≤ 3)]
  | .bayAdmit | .bayRetire => [(3, c.bay < Config.numBays)]
  | .bayWatch =>
    [(3, c.watchEnable.isSome), (4, c.bayMask < 16777216), (5, c.watchEnable != some true || c.edgeSelect.isSome)]
  | .slotFlush => [(3, c.bay < Config.numBays), (4, c.count != 0), (5, c.first + c.count ≤ 4294967296)]
  | _ => []

theorem State.policy_refused {act : State → State} {c : Copy} {checks : List (Nat × Bool)}
    (fails : firstFailure ((2, c.node == 0) :: checks) = some d) (s : State) (cell : Nat) :
    s.policy cell c checks act = s.reply cell .format d := by
  unfold State.policy; rw [fails]

/-- A policy order whose checks are passed is acted on. -/
theorem State.policy_accepted {act : State → State} {c : Copy} {checks : List (Nat × Bool)}
    (node : c.node = 0) (passes : firstFailure checks = none) (s : State) (cell : Nat) :
    s.policy cell c checks act = act s := by
  unfold State.policy; rw [firstFailure_cons, node, passes]; rfl

/-- A policy order is handled by its format checks first. -/
theorem exec_policy (kind : k ∈ [OrderKind.groupSet, .diskSet, .clockSet, .bayAdmit, .bayRetire, .bayWatch, .slotFlush, .holdSet, .faultClear])
    (handed : s.handed k cell = some o) : ∃ act : State → State, exec (k.command cell) s =
      .next ((s.validated cell).policy cell o.copy (Copy.policyChecks o.copy k) act).beginRecords := by
  have kinds : k = .groupSet ∨ k = .diskSet ∨ k = .clockSet ∨ k = .bayAdmit ∨ k = .bayRetire ∨ k = .bayWatch ∨ k = .slotFlush
      ∨ k = .holdSet ∨ k = .faultClear := by simpa using kind
  rcases kinds with rfl | rfl | rfl | rfl | rfl | rfl | rfl | rfl | rfl
  · exact ⟨_, (exec_groupSet cell s).trans (State.handling_of_handed handed)⟩
  · exact ⟨_, (exec_diskSet cell s).trans (State.handling_of_handed handed)⟩
  · exact ⟨_, (exec_clockSet cell s).trans (State.handling_of_handed handed)⟩
  · exact ⟨_, (exec_bayAdmit cell s).trans (State.handling_of_handed handed)⟩
  · exact ⟨_, (exec_bayRetire cell s).trans (State.handling_of_handed handed)⟩
  · exact ⟨_, (exec_bayWatch cell s).trans (State.handling_of_handed handed)⟩
  · exact ⟨_, (exec_slotFlush cell s).trans (State.handling_of_handed handed)⟩
  · exact ⟨_, (exec_holdSet cell s).trans (State.handling_of_handed handed)⟩
  · exact ⟨_, (exec_faultClear cell s).trans (State.handling_of_handed handed)⟩

end

section
variable (c : Copy)

/-- BAY_WATCH has the modes 0, ENABLE, and 1. -/
theorem Copy.watchEnable_isSome : c.watchEnable.isSome = decide (c.field 32 1 ≤ 1) := by
  unfold Copy.watchEnable
  split
  · next e => rw [e]; rfl
  · next e => rw [e]; rfl
  · next zero one =>
    have zero : c.field 32 1 ≠ 0 := zero
    have one : c.field 32 1 ≠ 1 := one
    exact (decide_eq_false (by omega)).symm

theorem Copy.watchEnable_eq_true : (c.watchEnable != some true) = decide (c.field 32 1 ≠ 0) := by
  unfold Copy.watchEnable
  split
  · next e => rw [e]; rfl
  · next e => rw [e]; rfl
  · next zero one =>
    have zero : c.field 32 1 ≠ 0 := zero
    exact (decide_eq_true zero).symm

theorem Copy.edgeSelect_isSome : c.edgeSelect.isSome = decide (c.field 33 1 ≤ 2) := by
  unfold Copy.edgeSelect
  split
  · next e => rw [e]; rfl
  · next e => rw [e]; rfl
  · next e => rw [e]; rfl
  · next zero one two =>
    have zero : c.field 33 1 ≠ 0 := zero
    have one : c.field 33 1 ≠ 1 := one
    have two : c.field 33 1 ≠ 2 := two
    exact (decide_eq_false (by omega)).symm

end

/-- Settles O36: each case is the first check of its kind that fails. -/
theorem policyOrdersAreRefused : Obligations.PolicyOrdersAreRefused := by
  rintro k s cell o c d kind handed rfl failing
  obtain ⟨act, run⟩ := exec_policy kind handed
  have fails : firstFailure ((2, Copy.node o.copy == 0) :: Copy.policyChecks o.copy k) = some d := by
    rw [firstFailure_cons]
    rcases failing with ⟨node, rfl⟩ | ⟨node, failing⟩
    · rw [if_neg (by simpa using node)]
    · rw [if_pos (by simpa using node)]
      rcases failing with ⟨rfl, high, rfl⟩ | ⟨kind, high, rfl⟩ | ⟨rfl, bay, high, rfl⟩ | ⟨rfl, high, rfl⟩ | ⟨rfl, high, rfl⟩
        | ⟨rfl, mode, high, rfl⟩ | ⟨rfl, mode, mask, high, rfl⟩ | ⟨rfl, bay, none, rfl⟩ | ⟨rfl, bay, some, high, rfl⟩
      · simp [Copy.policyChecks, firstFailure_cons, Config.numGroups, high]
      · have kinds : k = .diskSet ∨ k = .bayAdmit ∨ k = .bayRetire ∨ k = .slotFlush := by simpa using kind
        rcases kinds with rfl | rfl | rfl | rfl <;> simp [Copy.policyChecks, firstFailure_cons, Config.numBays, high]
      · simp [Copy.policyChecks, firstFailure_cons, Config.numBays, bay, high]
      · simp [Copy.policyChecks, firstFailure_cons, high]
      · simp [Copy.policyChecks, firstFailure_cons, Copy.watchEnable_isSome, high]
      · simp [Copy.policyChecks, firstFailure_cons, Copy.watchEnable_isSome, mode,
          show ¬Copy.bayMask o.copy < 16777216 from not_lt.2 high]
      · simp [Copy.policyChecks, firstFailure_cons, Copy.watchEnable_isSome, Copy.watchEnable_eq_true, Copy.edgeSelect_isSome, mode,
          show Copy.bayMask o.copy < 16777216 from mask, high]
      · simp [Copy.policyChecks, firstFailure_cons, Config.numBays, bay, none]
      · simp [Copy.policyChecks, firstFailure_cons, Config.numBays, bay, some, high]
  rw [State.policy_refused fails] at run
  exact ⟨_, run, State.handled_reply ..⟩

/-! ## DISK_SET and CLOCK_SET -/

section
variable {s : State} {cell : Fin 1024} {o : HeldOrder}

theorem exec_diskSet_accepted (handed : s.handed .diskSet cell = some o) (node : Copy.node o.copy = 0) (bay : Copy.bay o.copy < 24)
    (shift : Copy.seekShift o.copy ≤ 31) :
    exec (.diskSet cell) s = .next (((s.validated cell).setDisk o.copy).reply cell .ok 0).beginRecords := by
  rw [exec_diskSet, State.handling_of_handed handed, State.policy_accepted node (by simp [firstFailure, Config.numBays, bay, shift])]

theorem exec_clockSet_accepted (handed : s.handed .clockSet cell = some o) (node : Copy.node o.copy = 0)
    (code : Copy.prescaleCode o.copy ≤ 3) :
    exec (.clockSet cell) s = .next ((s.validated cell).setClock cell o.copy).beginRecords := by
  rw [exec_clockSet, State.handling_of_handed handed, State.policy_accepted node (by simp [firstFailure, code])]

theorem State.setDisk_touches_own (s : State) (c : Copy) : Touches [.arbiters, .records] s (s.setDisk c) :=
  (State.setBay_touches ..).after rfl ((State.setArbiter_touches ..).mono rfl)

theorem State.setDisk_arbiter (s : State) (c : Copy) (b : Nat) : (s.setDisk c).arbiter b = if b = c.bay then { s.arbiter c.bay with
    seekMin := c.seekMin, seekShift := c.seekShift, seekMax := c.seekMax, rate := c.rate } else s.arbiter b := by
  rw [State.setDisk, (State.setBay_touches ..).arbiter, State.arbiter_setArbiter]

theorem State.setDisk_bay (s : State) (c : Copy) (b : Nat) : (s.setDisk c).bay b =
    if b = c.bay then { s.bay c.bay with spinIdle := c.spinIdle } else s.bay b := by
  rw [State.setDisk, State.bay_setBay, (State.setArbiter_touches ..).bay, (State.setArbiter_touches ..).bay]

/-- The prescale by its code (Table 7-1). -/
theorem prescaleOf_eq {code : Nat} (bound : code ≤ 3) : prescaleOf code = [1, 4, 8, 16][code]?.getD 0 := by
  rcases code with - | - | - | - | code
  · rfl
  · rfl
  · rfl
  · rfl
  · omega

end

/-- Settles O38: the parameters of the bay, and the Loan Clock, take their values. -/
theorem diskSetAndClockSetAreApplied : Obligations.DiskSetAndClockSetAreApplied := by
  refine ⟨?_, ?_⟩
  · rintro s cell o c handed rfl node bay shift
    have before := s.validated_touches cell
    have replied : Touches [.answers] ((s.validated cell).setDisk o.copy) (((s.validated cell).setDisk o.copy).reply cell .ok 0) :=
      State.reply_touches ..
    have ended : Touches [.answers, .ports] ((s.validated cell).setDisk o.copy)
        (((s.validated cell).setDisk o.copy).reply cell .ok 0).beginRecords := (State.beginRecords_touches _).after rfl (replied.mono rfl)
    refine ⟨_, exec_diskSet_accepted handed node bay shift, ?_, fun b ne => ?_, ?_, fun b ne => ?_, ?_, ?_⟩
    · rw [ended.arbiter, State.setDisk_arbiter, if_pos rfl, before.arbiter]; rfl
    · rw [ended.arbiter, State.setDisk_arbiter, if_neg ne, before.arbiter]
    · rw [ended.bay, State.setDisk_bay, if_pos rfl, before.bay]; rfl
    · rw [ended.bay, State.setDisk_bay, if_neg ne, before.bay]
    · exact (((State.setDisk_touches_own ..).answered_nil).trans (State.reply_answered ..)
        (State.setDisk_touches_own ..).serving).handling
    · exact Touches.handling (replied.after rfl ((State.setDisk_touches_own ..).mono rfl))
  · rintro s cell o c handed rfl node code
    have before := s.validated_touches cell
    have taken : Touches [.clock, .answers] (s.validated cell) ((s.validated cell).setClock cell o.copy) :=
      (State.reply_touches ..).after rfl ((State.clock_touches ..).mono rfl)
    refine ⟨_, exec_clockSet_accepted handed node code, ?_, ?_, ?_⟩
    · rw [(State.beginRecords_touches _).clock, State.setClock, (State.reply_touches ..).clock, before.clock]; rfl
    · rw [← prescaleOf_eq code]
      exact State.answered.handling (((State.clock_touches ..).answered_nil).trans (State.reply_answered ..) rfl)
    · exact Touches.handling (taken.mono rfl)

end Sys2Proof.Machine
end

section
namespace Sys2Proof.Machine

set_option Elab.async false

/-! ## What a head needs of its disk, from one state to another (R67, R68) -/

section
variable {s t u : State} {ps : List Part} {b c g : Nat} {x : Transfer}

theorem Touches.working (h : Touches ps s t) (w : Part.part ∉ ps := by decide) : t.working = s.working := by
  simp only [State.working, h.part w]

theorem Touches.shares (h : Touches ps s t) (w : Part.groups ∉ ps := by decide) (w' : Part.fifos ∉ ps := by decide)
    (w'' : Part.arbiters ∉ ps := by decide) : t.shares = s.shares := by
  have parts : ∀ a b : Shares, a.groups = b.groups → a.fifos = b.fifos → a.arbiters = b.arbiters → a = b := by
    rintro ⟨⟩ ⟨⟩ rfl rfl rfl; rfl
  exact parts _ _ (h.same .groups w) (h.fifos w') (h.arbiters w'')

theorem Touches.bays (h : Touches ps s t) (w : Part.records ∉ ps := by decide) (w' : Part.lines ∉ ps := by decide) : t.bays = s.bays := by
  have parts : ∀ a b : BayTable, a.records = b.records → a.lines = b.lines → a = b := by
    rintro ⟨⟩ ⟨⟩ rfl rfl; rfl
  exact parts _ _ (h.records w) (h.same .lines w')

theorem Touches.wantsSpinUp (h : Touches ps s t) (b : Nat) (groups : Part.groups ∉ ps := by decide)
    (fifos : Part.fifos ∉ ps := by decide) (arbiters : Part.arbiters ∉ ps := by decide) (staging : Part.staging ∉ ps := by decide)
    (held : Part.held ∉ ps := by decide) (capture : Part.capture ∉ ps := by decide) : t.wantsSpinUp b ↔ s.wantsSpinUp b := by
  obtain ⟨triggered, -, mask, -⟩ := h.same .capture capture
  exact State.wantsSpinUp_congr (h.shares groups fifos arbiters) (h.staging staging) (h.held held) ⟨triggered, mask⟩ b

/-- Whether a head is ready depends on its group's weight and cap flag, the hold, the command tags and the slots alone. -/
theorem State.headReady_congr (weight : (t.group g).weight = (s.group g).weight) (cap : (t.group g).capReached = (s.group g).capReached)
    (hold : t.capture.triggered = s.capture.triggered ∧ t.capture.holdMask = s.capture.holdMask)
    (tags : ∀ i, t.tagHolder b i = s.tagHolder b i) (staging : t.staging = s.staging) : t.headReady b g x ↔ s.headReady b g x := by
  simp only [State.headReady, weight, cap, hold.1, hold.2, tags, staging]

theorem Touches.headReady (h : Touches ps s t) (groups : Part.groups ∉ ps := by decide) (arbiters : Part.arbiters ∉ ps := by decide)
    (staging : Part.staging ∉ ps := by decide) (capture : Part.capture ∉ ps := by decide) :
    t.headReady b g x ↔ s.headReady b g x := by
  obtain ⟨triggered, -, mask, -⟩ := h.same .capture capture
  exact State.headReady_congr (by rw [h.group g groups]) (by rw [h.group g groups]) ⟨triggered, mask⟩ (fun i => h.tagHolder b i arbiters)
    (h.staging staging)

theorem State.working_of_handed {k : OrderKind} {cell : Nat} {o : HeldOrder} (h : s.handed k cell = some o) : s.working = true := by
  unfold State.handed at h
  split at h
  · next serves => exact (Bool.and_eq_true_iff.1 serves).1
  · cases h

theorem State.requestSpinUp_bay_other (s : State) {b c : Nat} (ne : c ≠ b) : (s.requestSpinUp b).bay c = s.bay c := by
  by_cases asks : s.asksSpinUp b
  · rw [(State.requestSpinUp_asked asks).2, if_neg ne]
  · rw [State.requestSpinUp_none asks]

/-- A request for a spin-up of one bay, in an event that ends with the beginning of record writes. -/
theorem State.spinUpAsked_of_request (h : Touches ps s u) (asks : u.asksSpinUp b) (records : Part.records ∉ ps := by decide)
    (ports : Part.ports ∉ ps := by decide) (base : Part.base ∉ ps := by decide) : s.spinUpAsked (u.requestSpinUp b).beginRecords b := by
  obtain ⟨held, exchange, own, -⟩ := u.requestSpinUp_ports b
  obtain ⟨-, summary, seq, -⟩ := h.same .ports ports
  have bay : (u.requestSpinUp b).beginRecords.bay b = (s.bay b).asked := by
    rw [(State.beginRecords_touches _).bay, (State.requestSpinUp_asked asks).2, if_pos rfl, h.bay b records]
  refine ⟨fun down => ⟨bay.trans (Bay.asked_spunDown down), State.summaryAsked_of_request ?_ ?_ ?_⟩,
    fun spinning => bay.trans (Bay.asked_spinningDown spinning),
    fun other => bay.trans (Bay.asked_other (fun st => other (by simp [st])) (fun st => other (by simp [st])))⟩
  · rw [exchange, own.2 (.inr ⟨asks, by rw [h.bay b records, down]⟩), summary]
  · rw [exchange, seq]
  · rw [exchange, h.base base]

/-- The heads of every bay are looked at again in the handling of an order that is then answered (R67, R68). -/
theorem State.spinUpsAsked_answered {cell d : Nat} {r : Result} (h : Touches ps s u) (working : s.working = true)
    (part : Part.part ∉ ps := by decide) (records : Part.records ∉ ps := by decide) (lines : Part.lines ∉ ps := by decide)
    (ports : Part.ports ∉ ps := by decide) (base : Part.base ∉ ps := by decide) :
    s.spinUpsAsked (u.requestSpinUps.reply cell r d).beginRecords := by
  obtain ⟨-, summary, seq, -⟩ := h.same .ports ports
  have replied : Touches [.answers] u.requestSpinUps (u.requestSpinUps.reply cell r d) := State.reply_touches ..
  have after : Touches [.answers, .ports, .records] u (u.requestSpinUps.reply cell r d) :=
    replied.after rfl (u.requestSpinUps_touches.mono rfl)
  obtain ⟨-, same, same', -⟩ := replied.same .ports (by decide)
  exact State.spinUpsAsked_of_requests (by rw [h.working part, working]) (h.bays records lines) ⟨summary, seq, h.base base⟩
    ⟨replied.bays, same, same', replied.base⟩ fun b => after.wantsSpinUp b

end

/-! ## An order that becomes the head of an empty FIFO (R57, R58) -/

section
variable {s : State} {b c d g h : Nat} {x : Transfer}

/-- An order alone in its FIFO, costed and tagged as its head. -/
def State.headed (s : State) (b g c : Nat) (x : Transfer) : State := (s.setOrders b g [c]).costHead b g x

theorem State.enqueue_headed (empty : (s.fifo b g).orders = []) (made : s.transfer? c = some x) (stays : s.headJoins b x = none) :
    s.enqueue b g c = (s.headed b g c x).requestSpinUp b := by
  have put : Touches [.fifos] s (s.setOrders b g [c]) := State.setFifo_touches ..
  have orders : ((s.setOrders b g [c]).fifo b g).orders = [c] := by rw [State.setOrders, State.fifo_setFifo_self]
  have joins : (s.setOrders b g [c]).headJoins b x = none := by
    unfold State.headJoins at stays ⊢
    rw [put.candidate]; exact stays
  simp only [State.enqueue, empty, List.isEmpty_nil, if_true, State.becomeHead, orders, List.length_singleton]
  rw [State.settleHead_stays 0 orders ((put.transfer c).trans made) joins]
  rfl

theorem State.headed_touches (s : State) (b g c : Nat) (x : Transfer) : Touches [.fifos] s (s.headed b g c x) :=
  (State.costHead_touches ..).after rfl (State.setFifo_touches ..)

theorem State.headed_fifo_other (other : fifoNumber d h ≠ fifoNumber b g) : (s.headed b g c x).fifo d h = s.fifo d h := by
  rw [State.headed, State.costHead, State.tagHead_fifo_other _ _ _ _ _ other, State.fifo_setFifo, if_neg other, State.setOrders,
    State.fifo_setFifo, if_neg other]

/-- The cost of R62, and in an open group the tags of R63. -/
theorem State.headed_fifo (s : State) (b g c : Nat) (x : Transfer) : (s.headed b g c x).fifo b g =
    if 1 ≤ (s.group g).weight then
      Fifo.headed [c] (costOf (s.arbiter b) x.first x.count) (s.group g).weight (s.fifo b g).lastFinish (s.arbiter b).v
    else { orders := [c], cost := some (costOf (s.arbiter b) x.first x.count), tags := none, lastFinish := (s.fifo b g).lastFinish } := by
  have put : Touches [.fifos] s (s.setOrders b g [c]) := State.setFifo_touches ..
  have own : (s.setOrders b g [c]).fifo b g = { s.fifo b g with orders := [c], cost := none, tags := none } := State.fifo_setFifo_self ..
  split
  · next opened =>
    rw [State.headed, State.costHead_fifo (by rw [put.group]; exact opened) (by rw [own]), own, put.arbiter, put.group]
  · next closed =>
    have group (q : Fifo) : ((s.setOrders b g [c]).setFifo b g q).group g = s.group g :=
      (State.setFifo_touches ..).group g |>.trans (put.group g)
    unfold State.headed State.costHead State.tagHead
    simp only [State.fifo_setFifo_self, own, group, if_neg closed, put.arbiter]

/-- The head of the FIFO needs its disk where it meets the conditions of R67 but that of the bay. -/
theorem State.headed_wants (bound : g < 16) (made : s.transfer? c = some x) (ready : s.headReady b g x) :
    (s.headed b g c x).wantsSpinUp b := by
  have touched := s.headed_touches b g c x
  obtain ⟨opened, -⟩ := id ready
  have own := s.headed_fifo b g c x
  rw [if_pos opened] at own
  exact ⟨g, c, _, x, bound, by rw [own]; rfl, by rw [own]; rfl, (touched.transfer c).trans made, touched.headReady.2 ready⟩

/-- Where the bay has no other head, and this one does not meet them, no head needs the disk. -/
theorem State.headed_unwanted (made : s.transfer? c = some x) (unready : ¬s.headReady b g x)
    (empty : ∀ h, h < 16 → (s.fifo b h).orders = []) : ¬(s.headed b g c x).wantsSpinUp b := by
  have touched := s.headed_touches b g c x
  rintro ⟨h, d, tags, y, bound, head, -, named, ready⟩
  by_cases own : fifoNumber b h = fifoNumber b g
  · obtain rfl : h = g := by simpa [fifoNumber] using own
    have orders : ((s.headed b h c x).fifo b h).orders = [c] := by
      rw [State.headed_fifo]; split <;> rfl
    rw [orders] at head
    cases head
    rw [touched.transfer, made] at named
    cases named
    exact unready (touched.headReady.1 ready)
  · rw [State.headed_fifo_other own, empty h bound] at head
    cases head

end

/-- Settles O33: the path of the transfer, which no slot takes, ends in an empty FIFO, whose head it becomes. -/
theorem transfersBecomeHead : Obligations.TransfersBecomeHead := by
  refine ⟨fun cost weight opened => ceilDiv_bounds _ opened, fun k s cell o x kind handed passes alone empty => ?_⟩
  have made := s.transferMade_touches cell x
  have isRead : x.kind = k := by obtain ⟨-, ⟨-, l, -, -, -, rfl⟩ | ⟨-, -, -, rfl⟩⟩ := passes <;> rfl
  have taken : (s.transferMade cell x).transfer? cell = some x :=
    (State.takenUp_of_handed handed (Touches.refl [] _) : s.takenUp _ cell x).1
  have stays : (s.transferMade cell x).headJoins x.bay x = none := by
    unfold State.headJoins
    rw [isRead]
    split
    · next read => rw [made.candidate, alone read]
    · rfl
  obtain ⟨u, hu⟩ : ∃ u, u = (s.transferMade cell x).headed x.bay x.group cell x := ⟨_, rfl⟩
  have path : (s.transferMade cell x).path cell x = u.requestSpinUp x.bay := by
    rw [hu, ← State.enqueue_headed (by rw [made.fifo, empty]) taken stays]
    unfold State.headJoins at stays
    rw [State.path, stays]
  have head : Touches [.fifos] (s.transferMade cell x) u := hu ▸ State.headed_touches ..
  have before : Touches [.awaiting, .held, .loans, .fifos] s u := head.after rfl (made.mono rfl)
  have ended : Touches [.ports, .records] u (u.requestSpinUp x.bay).beginRecords :=
    (State.beginRecords_touches _).after rfl (State.requestSpinUp_touches ..)
  have working : u.working = true := before.working.trans (State.working_of_handed handed)
  refine ⟨_, exec_transfer_passes kind handed passes, ?_⟩
  rw [path]
  refine ⟨State.takenUp_of_handed handed (ended.after (qs := [.fifos, .ports, .records]) rfl (head.mono rfl)), ?_, fun bound ready => ?_,
    fun unready idle => ?_, fun d ne => ?_, fun d h other => ?_, ended.after rfl (before.mono rfl)⟩
  · rw [ended.fifo, hu, State.headed_fifo, made.group, made.arbiter, made.fifo]
    rfl
  · exact State.spinUpAsked_of_request before ⟨working, hu ▸ State.headed_wants bound taken (made.headReady.2 ready)⟩
  · have unwanted : ¬u.wantsSpinUp x.bay := hu ▸ State.headed_unwanted taken (fun h => unready (made.headReady.1 h))
      (fun h bound => by rw [made.fifo, idle h bound])
    rw [(State.beginRecords_touches _).bay, State.requestSpinUp_none fun asks => unwanted asks.2, before.bay]
  · rw [(State.beginRecords_touches _).bay, State.requestSpinUp_bay_other _ ne, before.bay]
  · rw [ended.fifo, hu, State.headed_fifo_other other, made.fifo]

end Sys2Proof.Machine
end

section
namespace Sys2Proof.Machine

set_option Elab.async false

/-! ## An order at the end of a FIFO that it does not leave at once (R57, R58) -/

section
variable {s : State} {b c g : Nat} {x : Transfer}

theorem State.enqueue_behind (queued : (s.fifo b g).orders ≠ []) :
    s.enqueue b g c = s.setFifo b g { s.fifo b g with orders := (s.fifo b g).orders ++ [c] } := by
  unfold State.enqueue
  dsimp only
  rw [if_neg (by simpa using queued)]

theorem State.enqueue_orders (made : s.transfer? c = some x) (stays : s.headJoins b x = none) :
    ((s.enqueue b g c).fifo b g).orders = (s.fifo b g).orders ++ [c] := by
  by_cases empty : (s.fifo b g).orders = []
  · rw [State.enqueue_headed empty made stays, (State.requestSpinUp_touches ..).fifo, State.headed_fifo, empty]
    split <;> rfl
  · rw [State.enqueue_behind empty, State.fifo_setFifo_self]

theorem State.enqueue_touches_stays (made : s.transfer? c = some x) (stays : s.headJoins b x = none) :
    Touches [.fifos, .ports, .records] s (s.enqueue b g c) := by
  by_cases empty : (s.fifo b g).orders = []
  · rw [State.enqueue_headed empty made stays]
    exact (State.requestSpinUp_touches ..).after rfl ((State.headed_touches ..).mono rfl)
  · rw [State.enqueue_behind empty]
    exact (State.setFifo_touches ..).mono rfl

end

/-! ## APPEND_WRITE (R107 to R109) -/

section
variable {s : State} {cell : Fin 1024} {o : HeldOrder} {c : Copy} {l : Loan} {a : AppendRecord} {x : Transfer}

/-- The loan check of an append asks nothing of its range (R25). -/
theorem State.loanCheck_append (lends : s.lends .appendWrite c l) : s.loanCheck .appendWrite c = .ok l := by
  obtain ⟨bound, rfl, held, node, mode⟩ := lends
  have own := State.loanOf_own bound (by rw [held]; simp) node
  simp only [State.loanCheck, own, held, mode]
  rfl

theorem exec_appendWrite_passes (handed : s.handed .appendWrite cell = some o) (format : Copy.transferFailure o.copy .appendWrite = none)
    (lends : s.lends .appendWrite o.copy l) (record : l.append = some a) : exec (.appendWrite cell) s =
      .next (((s.validated cell).raiseInFlight (Copy.loan o.copy)).placeAppend cell l a (Copy.loan o.copy) (Copy.count o.copy)).beginRecords := by
  have check : (s.validated cell).loanCheck .appendWrite o.copy = .ok l :=
    ((s.validated_touches cell).loanCheck _ _).trans (State.loanCheck_append lends)
  rw [exec_appendWrite, State.handling_of_handed handed]
  simp only [State.appendOrder, format, check, record, Option.getD_some]

/-- A transfer of no more than a block has some blocks (R34). -/
theorem Copy.count_pos {k : OrderKind} (format : c.transferFailure k = none) : 1 ≤ c.count := by
  rw [Copy.transferFailure_eq] at format
  by_contra none
  rw [if_pos fun h : 1 ≤ c.count ∧ c.count ≤ 256 => none h.1] at format
  by_cases node : if k ∈ [OrderKind.serviceRead, .serviceWrite] then c.node = 0 else 1 ≤ c.node ∧ c.node ≤ 250
  · rw [if_neg (not_not_intro node)] at format
    cases format
  · rw [if_pos node] at format
    cases format

/-- An append without a reservation has its answer at once, and its loan counts it in flight (R109). -/
theorem State.append_answered {cell : Nat} {r : Result} {d : Nat} (handed : s.handed .appendWrite cell = some o) (own : x.loan = some c.loan) :
    s.otherLoans ((s.transferMade cell x).reply cell r d).beginRecords c.loan
      ∧ ((s.transferMade cell x).reply cell r d).beginRecords.loan c.loan
          = { s.loan c.loan with inFlight := (s.loan c.loan).inFlight + 1 }
      ∧ s.answered ((s.transferMade cell x).reply cell r d).beginRecords [plain cell r d]
      ∧ ((s.transferMade cell x).reply cell r d).beginRecords.shares = s.shares
      ∧ Touches [.awaiting, .held, .answers, .loans, .ports] s ((s.transferMade cell x).reply cell r d).beginRecords := by
  have made := s.transferMade_touches cell x
  have ended : Touches [.answers, .ports] (s.transferMade cell x) ((s.transferMade cell x).reply cell r d).beginRecords :=
    (State.beginRecords_touches _).after rfl ((State.reply_touches ..).mono rfl)
  obtain ⟨-, -, loans⟩ : s.takenUp ((s.transferMade cell x).reply cell r d).beginRecords cell x := State.takenUp_of_handed handed ended
  have all : Touches [.awaiting, .held, .answers, .loans, .ports] s ((s.transferMade cell x).reply cell r d).beginRecords :=
    ended.after rfl (made.mono rfl)
  refine ⟨fun n ne => ?_, ?_, ?_, all.shares, all⟩
  · rw [loans, own, if_neg fun e => ne (Option.some.inj e).symm]
  · rw [loans, own, if_pos rfl]
  · have answers := (made.answered_nil.trans (State.reply_answered (s.transferMade cell x) cell r d) made.serving).trans
      (State.beginRecords_touches ((s.transferMade cell x).reply cell r d)).answered_nil ((State.reply_touches ..).serving.trans made.serving)
    exact answers

/-- The order of an append with a reservation, about to be queued. -/
def State.appendMade (s : State) (cell : Nat) (x : Transfer) (n : Nat) (a : AppendRecord) : State := (s.transferMade cell x).setAppend n a

theorem State.appendMade_touches (s : State) (cell : Nat) (x : Transfer) (n : Nat) (a : AppendRecord) :
    Touches [.awaiting, .held, .loans] s (s.appendMade cell x n a) :=
  (State.setAppend_touches ..).after rfl (s.transferMade_touches cell x)

/-- The order comes to make its transfer, and the loan to have it reserved and counted in flight (R109). -/
theorem State.appendMade_taken {cell : Nat} (handed : s.handed .appendWrite cell = some o) (own : x.loan = some c.loan) :
    (s.appendMade cell x c.loan a).transfer? cell = some x
      ∧ ∀ n, (s.appendMade cell x c.loan a).loan n =
          if n = c.loan then { s.loan c.loan with inFlight := (s.loan c.loan).inFlight + 1, append := some a } else s.loan n := by
  obtain ⟨transfer, -, loans⟩ : s.takenUp (s.transferMade cell x) cell x := State.takenUp_of_handed handed (Touches.refl [] _)
  refine ⟨((State.setAppend_touches ..).transfer cell).trans transfer, fun n => ?_⟩
  rw [State.appendMade, State.setAppend, State.loan_setLoan, loans, own, if_pos rfl]
  split
  · rfl
  · next ne => rw [loans, own, if_neg fun e => ne (Option.some.inj e).symm]

end

/-- Settles O35: by the state of the append record, a broken one, a full one, and one with room. -/
theorem appendsReserveInOrder : Obligations.AppendsReserveInOrder := by
  rintro s cell o c l a handed rfl format lends record
  have run := exec_appendWrite_passes handed format lends record
  have some' := Copy.count_pos format
  obtain ⟨-, entry, -⟩ := id lends
  cases broken : a.broken with
  | true =>
    have placed : ((s.validated cell).raiseInFlight (Copy.loan o.copy)).placeAppend cell l a (Copy.loan o.copy) (Copy.count o.copy)
        = (s.transferMade cell (appendTransfer l (Copy.loan o.copy) 0 0 none)).reply cell .appendBroken (a.breakPoint.getD 0) := by
      unfold State.placeAppend
      dsimp only
      rw [if_pos broken]; rfl
    rw [placed] at run
    obtain ⟨others, loan, answers, shares, touched⟩ :=
      State.append_answered (r := .appendBroken) (d := a.breakPoint.getD 0) (c := o.copy)
        (x := appendTransfer l (Copy.loan o.copy) 0 0 none) handed rfl
    rw [entry] at loan
    exact ⟨_, run, others, by rw [loan], fun _ => ⟨by rw [loan, record], answers, shares⟩, nofun, nofun, touched.mono rfl⟩
  | false =>
    by_cases full : l.count ≤ a.reserved
    · have placed : ((s.validated cell).raiseInFlight (Copy.loan o.copy)).placeAppend cell l a (Copy.loan o.copy) (Copy.count o.copy)
          = (s.transferMade cell (appendTransfer l (Copy.loan o.copy) 0 0 none)).reply cell .extentFull a.reserved := by
        unfold State.placeAppend
        dsimp only
        rw [if_neg (by rw [broken]; simp), if_pos (by omega)]; rfl
      rw [placed] at run
      obtain ⟨others, loan, answers, shares, touched⟩ :=
        State.append_answered (r := .extentFull) (d := a.reserved) (c := o.copy)
          (x := appendTransfer l (Copy.loan o.copy) 0 0 none) handed rfl
      rw [entry] at loan
      exact ⟨_, run, others, by rw [loan], nofun, fun _ _ => ⟨by rw [loan, record], answers, shares⟩,
        fun _ room => absurd full (Nat.not_le.2 room), touched.mono rfl⟩
    · obtain ⟨n, hn⟩ : ∃ n, n = min (Copy.count o.copy) (l.count - a.reserved) := ⟨_, rfl⟩
      obtain ⟨x, hx⟩ : ∃ x, x = appendTransfer l (Copy.loan o.copy) (Copy.count o.copy) n (some a.reserved) := ⟨_, rfl⟩
      obtain ⟨m, hm⟩ : ∃ m, m = s.appendMade cell x (Copy.loan o.copy) (a.reserve cell n) := ⟨_, rfl⟩
      have made : Touches [.awaiting, .held, .loans] s m := hm ▸ s.appendMade_touches ..
      obtain ⟨transfer, loans⟩ : m.transfer? cell = some x ∧ ∀ k, m.loan k = if k = Copy.loan o.copy then
          { s.loan (Copy.loan o.copy) with inFlight := (s.loan (Copy.loan o.copy)).inFlight + 1, append := some (a.reserve cell n) }
          else s.loan k := hm ▸ State.appendMade_taken handed (by rw [hx]; rfl)
      have stays : m.headJoins l.bay x = none := by rw [hx]; rfl
      have placed : ((s.validated cell).raiseInFlight (Copy.loan o.copy)).placeAppend cell l a (Copy.loan o.copy) (Copy.count o.copy)
          = m.enqueue l.bay l.group cell := by
        unfold State.placeAppend
        dsimp only
        rw [if_neg (by rw [broken]; simp), ← hn, if_neg (by omega), hm, hx]; rfl
      rw [placed] at run
      have queued : Touches [.fifos, .ports, .records] m (m.enqueue l.bay l.group cell) := State.enqueue_touches_stays transfer stays
      have ended : Touches [.fifos, .ports, .records] m (m.enqueue l.bay l.group cell).beginRecords :=
        (State.beginRecords_touches _).after rfl queued
      have all : Touches [.awaiting, .held, .loans, .fifos, .ports, .records] s (m.enqueue l.bay l.group cell).beginRecords :=
        ended.after rfl (made.mono rfl)
      refine ⟨_, run, fun k ne => ?_, ?_, nofun, fun _ h => absurd h full, fun _ _ => ⟨?_, ?_, ?_, all.answered_nil, ?_⟩, all.mono rfl⟩
      · rw [ended.loan, loans, if_neg ne]
      · rw [ended.loan, loans, if_pos rfl, entry]
      · rw [ended.loan, loans, if_pos rfl, ← hn]
        show some (a.reserve cell n) = _
        simp only [AppendRecord.reserve, broken]
      · rw [ended.transfer, transfer, hx, hn]; rfl
      · rw [(State.beginRecords_touches _).fifo, State.enqueue_orders transfer stays, made.fifo]
      · intro y empty bound named ready
        rw [ended.transfer, transfer] at named
        cases named
        rw [State.enqueue_headed (by rw [made.fifo, empty]) transfer stays]
        have before : Touches [.awaiting, .held, .loans, .fifos] s (m.headed l.bay l.group cell x) :=
          (State.headed_touches ..).after rfl (made.mono rfl)
        exact State.spinUpAsked_of_request before ⟨before.working.trans (State.working_of_handed handed),
          State.headed_wants bound transfer (made.headReady.2 ready)⟩

end Sys2Proof.Machine
end

section
namespace Sys2Proof.Machine

set_option Elab.async false

/-! ## GROUP_SET (R54, R55, R63) -/

section
variable {s : State} {b c g weight cap v : Nat}

/-- A head with a cost and no tags is tagged where its group is open (R63). -/
def Fifo.tagged (q : Fifo) (weight v : Nat) : Fifo :=
  match q.cost, q.tags with
  | some cost, none =>
    if 1 ≤ weight then
      { q with tags := some (tagsFor cost weight q.lastFinish v), lastFinish := (tagsFor cost weight q.lastFinish v).finish }
    else q
  | _, _ => q

theorem Fifo.tagged_orders (q : Fifo) (weight v : Nat) : (q.tagged weight v).orders = q.orders := by
  unfold Fifo.tagged
  split
  · split <;> rfl
  · rfl

/-- In an open group a head with a cost is tagged now, or was before. -/
theorem Fifo.tagged_tags {q : Fifo} {cost : Nat} (costed : q.cost = some cost) (opened : 1 ≤ weight) :
    ∃ tags, (q.tagged weight v).tags = some tags := by
  unfold Fifo.tagged
  rw [costed]
  cases tagged : q.tags with
  | none => exact ⟨_, by dsimp only; rw [if_pos opened]⟩
  | some tags => exact ⟨tags, tagged⟩

theorem State.tagHead_fifo (s : State) (b g : Nat) : (s.tagHead b g).fifo b g = (s.fifo b g).tagged (s.group g).weight (s.arbiter b).v := by
  cases costed : (s.fifo b g).cost with
  | none => simp only [State.tagHead, Fifo.tagged, costed]
  | some cost =>
    cases tagged : (s.fifo b g).tags with
    | some tags => simp only [State.tagHead, Fifo.tagged, costed, tagged]
    | none =>
      simp only [State.tagHead, Fifo.tagged, costed, tagged]
      split
      · rw [State.fifo_setFifo_self]
      · rfl

/-- The heads of one group, on some bays. -/
def State.tagHeads (s : State) (g : Nat) (bs : List Nat) : State := bs.foldl (fun s b => s.tagHead b g) s

theorem State.tagHeads_touches (s : State) (g : Nat) (bs : List Nat) : Touches [.fifos] s (s.tagHeads g bs) :=
  Touches.foldl (fun u b => u.tagHead_touches b g) (Touches.refl ..)

theorem State.tagHeads_fifo (s : State) (g : Nat) (bs : List Nat) (once : bs.Nodup) (b : Nat) :
    (s.tagHeads g bs).fifo b g = if b ∈ bs then (s.fifo b g).tagged (s.group g).weight (s.arbiter b).v else s.fifo b g := by
  induction bs generalizing s with
  | nil => rfl
  | cons c bs ih =>
    obtain ⟨fresh, once⟩ := List.nodup_cons.1 once
    have touched := s.tagHead_touches c g
    show ((s.tagHead c g).tagHeads g bs).fifo b g = _
    rw [ih _ once, touched.group, touched.arbiter]
    by_cases own : b = c
    · subst own
      rw [if_neg fresh, if_pos List.mem_cons_self, State.tagHead_fifo]
    · have other : fifoNumber b g ≠ fifoNumber c g := by simp only [fifoNumber, Config.numGroups]; omega
      rw [State.tagHead_fifo_other _ _ _ _ _ other]
      simp only [List.mem_cons, own, false_or]

/-- The group takes its weight and pending cap (R54). -/
def State.shared (s : State) (g weight cap : Nat) : State := s.setGroup g { s.group g with weight := weight, pendingCap := some cap }

theorem State.setShare_eq (s : State) (g weight cap : Nat) :
    s.setShare g weight cap = ((s.shared g weight cap).tagHeads g allBays).requestSpinUps := rfl

theorem exec_groupSet_accepted {cell : Fin 1024} {o : HeldOrder} (handed : s.handed .groupSet cell = some o)
    (node : Copy.node o.copy = 0) (group : Copy.group o.copy < 16) : exec (.groupSet cell) s =
      .next (((s.validated cell).setShare (Copy.group o.copy) (Copy.weight o.copy) (Copy.cap o.copy)).reply cell .ok 0).beginRecords := by
  rw [exec_groupSet, State.handling_of_handed handed, State.policy_accepted node (by simp [firstFailure, Config.numGroups, group])]

end

/-- Settles O37: the group record, then its heads bay by bay, then the bays whose heads need the disk. -/
theorem groupSetIsApplied : Obligations.GroupSetIsApplied := by
  rintro s cell o c handed rfl node bound
  obtain ⟨g, hg⟩ : ∃ g, g = Copy.group o.copy := ⟨_, rfl⟩
  obtain ⟨w, hw⟩ : ∃ w, w = (s.validated cell).shared g (Copy.weight o.copy) (Copy.cap o.copy) := ⟨_, rfl⟩
  obtain ⟨u, hu⟩ : ∃ u, u = w.tagHeads g allBays := ⟨_, rfl⟩
  have run : exec (.groupSet cell) s = .next (u.requestSpinUps.reply cell .ok 0).beginRecords := by
    rw [exec_groupSet_accepted handed node bound, State.setShare_eq, hu, hw, hg]
  rw [← hg] at bound
  have valid := s.validated_touches cell
  have grouped : Touches [.groups] (s.validated cell) w := hw ▸ State.setGroup_touches ..
  have before : Touches [.awaiting, .groups] s w := grouped.after rfl (valid.mono rfl)
  have tagged : Touches [.fifos] w u := hu ▸ w.tagHeads_touches ..
  have asked : Touches [.ports, .records] u u.requestSpinUps := u.requestSpinUps_touches
  have replied : Touches [.answers] u.requestSpinUps (u.requestSpinUps.reply cell .ok 0) := State.reply_touches ..
  have ended : Touches [.answers, .ports, .records] u (u.requestSpinUps.reply cell .ok 0).beginRecords :=
    (State.beginRecords_touches _).after rfl (replied.after rfl (asked.mono rfl))
  have all : Touches [.awaiting, .groups, .fifos] s u := tagged.after rfl (before.mono rfl)
  have group : ∀ h, w.group h = if h = g then { s.group g with weight := Copy.weight o.copy, pendingCap := some (Copy.cap o.copy) }
      else s.group h := fun h => by
    rw [hw, State.shared, State.group_setGroup, valid.group, valid.group]
  have fifo : ∀ b, b < 24 → u.fifo b g = (s.fifo b g).tagged (Copy.weight o.copy) (s.arbiter b).v := fun b small => by
    rw [hu, State.tagHeads_fifo _ _ _ (show allBays.Nodup from List.nodup_range),
      if_pos (show b ∈ allBays from List.mem_range.2 small), before.fifo, before.arbiter,
      group, if_pos rfl]
  refine ⟨_, run, ?_, fun h ne => ?_, fun b small => ?_, fun b q x cost small head made costed ready => ?_, ?_,
    ended.after rfl (all.mono rfl)⟩
  · rw [← hg, ended.group, tagged.group, group, if_pos rfl]
  · rw [ended.group, tagged.group, group, if_neg (by rw [hg]; exact ne)]
  · rw [← hg, ended.fifo, fifo b small]
    generalize s.fifo b g = q
    rcases q with ⟨orders, - | cost, - | tags, last⟩ <;> rfl
  · rw [← hg] at head costed ready
    have wants : u.wantsSpinUp b := by
      have opened : 1 ≤ Copy.weight o.copy := by
        obtain ⟨opened, -⟩ := ready
        rwa [State.group_setGroup, if_pos rfl] at opened
      obtain ⟨tags, own⟩ := Fifo.tagged_tags (v := (s.arbiter b).v) costed opened
      have same : u.headReady b g x ↔ (s.setGroup g { s.group g with weight := Copy.weight o.copy }).headReady b g x := by
        obtain ⟨triggered, -, mask, -⟩ := all.same .capture (by decide)
        refine State.headReady_congr ?_ ?_ ⟨triggered, mask⟩ (fun i => all.tagHolder b i) all.staging
        · rw [tagged.group, group, if_pos rfl, State.group_setGroup, if_pos rfl]
        · rw [tagged.group, group, if_pos rfl, State.group_setGroup, if_pos rfl]
      exact ⟨g, q, tags, x, bound, by rw [fifo b small, Fifo.tagged_orders, head], by rw [fifo b small, own],
        (all.transfer q).trans made, same.2 ready⟩
    have asked : s.spinUpsAsked (u.requestSpinUps.reply cell .ok 0).beginRecords :=
      State.spinUpsAsked_answered all (State.working_of_handed handed)
    exact (asked b small).1 ((ended.wantsSpinUp b).2 wants)
  · have quiet : Touches [.groups, .fifos, .ports, .records] (s.validated cell) u.requestSpinUps :=
      asked.after rfl (tagged.after rfl (grouped.mono rfl))
    exact (quiet.answered_nil.trans (State.reply_answered ..) quiet.serving).handling

/-! ## HOLD_SET and FAULT_CLEAR (R165, R167, R168) -/

section
variable {s u : State} {cell : Nat} {r : Result} {d : Nat}

/-- The Fault Capture Unit changes, and no write of its record begins or ends. -/
theorem State.capture_touches (s : State) (v : FaultCapture) (same : v.writing = s.capture.writing) :
    Touches [.capture] s { s with capture := v } := by
  refine ⟨fun p out => ?_⟩
  cases p
  case capture => exact absurd (by decide) out
  case ports => exact ⟨rfl, rfl, rfl, same⟩
  all_goals and_intros <;> rfl

/-- The heads of every bay are looked at again, or not. -/
def State.lookAgain (s : State) (look : Bool) : State := if look then s.requestSpinUps else s

theorem State.lookAgain_touches (s : State) (look : Bool) : Touches [.ports, .records] s (s.lookAgain look) := by
  unfold State.lookAgain
  split
  · exact s.requestSpinUps_touches
  · exact Touches.refl ..

/-- The state in which an order to the Fault Capture Unit ends, once that has changed. -/
def State.captureEnd (u : State) (look : Bool) (cell : Nat) (r : Result) (d : Nat) : State :=
  ((u.lookAgain look).reply cell r d).beginRecords

theorem State.captureEnd_touches (u : State) (look : Bool) : Touches [.answers, .ports, .records] u (u.captureEnd look cell r d) :=
  (State.beginRecords_touches _).after rfl ((State.reply_touches ..).after rfl ((u.lookAgain_touches look).mono rfl))

theorem State.captureEnd_answered (h : Touches [.capture] (s.validated cell) u) (look : Bool) :
    s.answered (u.captureEnd look cell r d) [plain cell r d] := by
  have quiet : Touches [.ports, .records, .capture] (s.validated cell) (u.lookAgain look) :=
    (u.lookAgain_touches look).after rfl (h.mono rfl)
  exact (quiet.answered_nil.trans (State.reply_answered ..) quiet.serving).handling

theorem State.captureEnd_asked (h : Touches [.awaiting, .capture] s u) (working : s.working = true) :
    s.spinUpsAsked (u.captureEnd true cell r d) := by
  rw [State.captureEnd, State.lookAgain, if_pos rfl]
  exact State.spinUpsAsked_answered h working

theorem State.captureEnd_still (h : Touches [.awaiting, .capture] s u) : (u.captureEnd false cell r d).bays = s.bays := by
  rw [State.captureEnd, State.lookAgain, if_neg Bool.false_ne_true]
  have replied : Touches [.answers] u (u.reply cell r d) := State.reply_touches ..
  exact (State.beginRecords_bays _).trans (replied.bays.trans h.bays)

/-- The Fault Capture Unit at the end of a command, but for the write of its record. -/
def FaultCapture.sameBut (v w : FaultCapture) : Prop :=
  w.triggered = v.triggered ∧ w.autoRearm = v.autoRearm ∧ w.holdMask = v.holdMask ∧ w.sequence = v.sequence
    ∧ w.suppressed = v.suppressed ∧ w.record = v.record

theorem Touches.captureSame {ps : List Part} (h : Touches ps s u) (p : Part.capture ∉ ps := by decide) :
    s.capture.sameBut u.capture := h.same .capture p

/-- The Fault Capture Unit after a HOLD_SET (R167). -/
def FaultCapture.held (v : FaultCapture) (mask : BitVec 16) (rearm : Bool) : FaultCapture := { v with holdMask := mask, autoRearm := rearm }

/-- The Fault Capture Unit after a FAULT_CLEAR (R168). -/
def FaultCapture.cleared (v : FaultCapture) : FaultCapture := { v with triggered := v.triggered && v.record.isSome }

theorem State.clearFault_eq (s : State) (cell : Nat) : s.clearFault cell =
    (State.lookAgain { s with capture := s.capture.cleared } (s.capture.triggered && s.capture.record.isNone)).reply cell
      (if s.capture.triggered = true ∧ s.capture.record.isSome = true then .wrongState else .ok) s.capture.suppressed := by
  rcases s with ⟨link, exchange, loans, shares, staging, engine, bays, clock, meters, ⟨triggered, rearm, mask, sequence, suppressed, record,
    writing⟩, notices, mem, pending⟩
  cases triggered <;> cases record <;> rfl

end

/-- Settles O42: either order changes the Fault Capture Unit, and has the heads looked at again where that may let one go. -/
theorem holdSetAndFaultClear : Obligations.HoldSetAndFaultClear := by
  refine ⟨?_, ?_⟩
  · rintro s cell o c handed rfl node
    obtain ⟨v, hv⟩ : ∃ v, v = s.capture.held (Copy.holdMask o.copy) (Copy.autoRearm o.copy) := ⟨_, rfl⟩
    obtain ⟨u, hu⟩ : ∃ u, u = { s.validated cell with capture := v } := ⟨_, rfl⟩
    have run : exec (.holdSet cell) s = .next (u.captureEnd (s.capture.triggered || Copy.holdMask o.copy != s.capture.holdMask) cell .ok
        (flagNat s.capture.triggered)) := by
      rw [exec_holdSet, State.handling_of_handed handed, State.policy_accepted node rfl, hu, hv]; rfl
    have taken : Touches [.capture] (s.validated cell) u := hu ▸ (s.validated cell).capture_touches v (by rw [hv]; rfl)
    have before : Touches [.awaiting, .capture] s u := taken.after rfl ((s.validated_touches cell).mono rfl)
    have held : u.capture = v := by rw [hu]
    have ended := State.captureEnd_touches (cell := cell) (r := .ok) (d := flagNat s.capture.triggered) u
      (s.capture.triggered || Copy.holdMask o.copy != s.capture.holdMask)
    obtain ⟨triggered, rearm, mask, sequence, suppressed, record⟩ := ended.captureSame
    rw [held, hv] at triggered rearm mask sequence suppressed record
    have answers := State.captureEnd_answered (r := .ok) (d := flagNat s.capture.triggered) taken
      (s.capture.triggered || Copy.holdMask o.copy != s.capture.holdMask)
    refine ⟨_, run, mask, rearm.trans ?_, triggered, sequence, suppressed, record, answers, fun asks => ?_, fun clear same => ?_,
      ended.after rfl (before.mono rfl)⟩
    · show (Copy.field o.copy 34 1 % 2 == 1) = (Copy.field o.copy 34 1).testBit 0
      rw [Nat.testBit_zero]; rfl
    · have looks : (s.capture.triggered || Copy.holdMask o.copy != s.capture.holdMask) = true := by
        rw [Bool.or_eq_true, bne_iff_ne]
        rwa [mask] at asks
      rw [looks]
      exact State.captureEnd_asked before (State.working_of_handed handed)
    · have still : (s.capture.triggered || Copy.holdMask o.copy != s.capture.holdMask) = false := by
        rw [clear, Bool.false_or, bne_eq_false_iff_eq]
        rwa [mask] at same
      rw [still]
      exact State.captureEnd_still before
  · rintro s cell o c handed rfl node
    obtain ⟨v, hv⟩ : ∃ v, v = s.capture.cleared := ⟨_, rfl⟩
    obtain ⟨u, hu⟩ : ∃ u, u = { s.validated cell with capture := v } := ⟨_, rfl⟩
    obtain ⟨r, hr⟩ : ∃ r : Result, r = if s.capture.triggered = true ∧ s.capture.record.isSome = true then .wrongState else .ok := ⟨_, rfl⟩
    have run : exec (.faultClear cell) s =
        .next (u.captureEnd (s.capture.triggered && s.capture.record.isNone) cell r s.capture.suppressed) := by
      rw [exec_faultClear, State.handling_of_handed handed, State.policy_accepted node rfl, State.clearFault_eq, hu, hv, hr]; rfl
    have taken : Touches [.capture] (s.validated cell) u := hu ▸ (s.validated cell).capture_touches v (by rw [hv]; rfl)
    have before : Touches [.awaiting, .capture] s u := taken.after rfl ((s.validated_touches cell).mono rfl)
    have held : u.capture = v := by rw [hu]
    have ended := State.captureEnd_touches (cell := cell) (r := r) (d := s.capture.suppressed) u
      (s.capture.triggered && s.capture.record.isNone)
    obtain ⟨triggered, rearm, mask, sequence, suppressed, record⟩ := ended.captureSame
    rw [held, hv] at triggered rearm mask sequence suppressed record
    have answers := State.captureEnd_answered (r := r) (d := s.capture.suppressed) taken (s.capture.triggered && s.capture.record.isNone)
    rw [hr] at answers
    refine ⟨_, run, mask, rearm, sequence, suppressed, record, triggered, ?_, fun on none => ?_, fun quiet => ?_,
      ended.after rfl (before.mono rfl)⟩
    · rw [hr]; exact answers
    · rw [on, none]
      exact State.captureEnd_asked before (State.working_of_handed handed)
    · have still : (s.capture.triggered && s.capture.record.isNone) = false := by
        rcases quiet with off | some
        · rw [off]; rfl
        · rw [Option.isNone_eq_false_iff.2 (Option.isSome_iff_ne_none.2 some), Bool.and_false]
      rw [still]
      exact State.captureEnd_still before

end Sys2Proof.Machine
end

section
namespace Sys2Proof.Machine

set_option Elab.async false

/-! ## A Bay Summary rewrite that an event requests (R121, R142) -/

section
variable {s u w : State} {b : Nat} {v : Bay} {ps : List Part}

/-- On the way from s to u a rewrite was requested, and none has begun. -/
def State.rewriteHeld (s u : State) : Prop :=
  u.exchange.summaryPort = { s.exchange.summaryPort with held := true } ∧ u.exchange.summarySeq = s.exchange.summarySeq
    ∧ u.exchange.base = s.exchange.base

theorem State.rewriteHeld_putBay (h : Touches ps s u) (ports : Part.ports ∉ ps := by decide) (base : Part.base ∉ ps := by decide) :
    s.rewriteHeld (u.putBay b v) := by
  obtain ⟨-, port, seq, -⟩ := h.same .ports ports
  exact ⟨congrArg (fun p => { p with held := true }) port, seq, h.base base⟩

theorem State.rewriteHeld.keeps (h : s.rewriteHeld u) (k : Touches ps u w) (ports : Part.ports ∉ ps := by decide)
    (base : Part.base ∉ ps := by decide) : s.rewriteHeld w := by
  obtain ⟨port, seq, own⟩ := h
  obtain ⟨-, port', seq', -⟩ := k.same .ports ports
  exact ⟨port'.trans port, seq'.trans seq, (k.base base).trans own⟩

theorem State.rewriteHeld.putBay (h : s.rewriteHeld u) : s.rewriteHeld (u.putBay b v) := by
  obtain ⟨port, seq, base⟩ := h
  refine ⟨?_, seq, base⟩
  show { u.exchange.summaryPort with held := true } = _
  rw [port]

theorem State.rewriteHeld.startSpinUp (h : s.rewriteHeld u) : s.rewriteHeld (u.startSpinUp b) := by
  obtain ⟨port, seq, base⟩ := h
  obtain ⟨⟨r, form⟩, -⟩ := u.startSpinUp_form b
  rw [form]
  refine ⟨?_, seq, base⟩
  show { u.exchange.summaryPort with held := true } = _
  rw [port]

theorem State.rewriteHeld.asked (h : s.rewriteHeld u) : s.summaryAsked u.beginRecords := by
  obtain ⟨port, seq, base⟩ := h
  exact State.summaryAsked_of_request port seq base

theorem State.bay_putBay (s : State) (b : Nat) (v : Bay) (c : Nat) : (s.putBay b v).bay c = if c = b then v else s.bay c := State.bay_setBay ..

theorem State.startSpinUp_bay (s : State) (b c : Nat) : (s.startSpinUp b).bay c = if c = b then (s.bay b).startingUp else s.bay c :=
  (s.startSpinUp_form b).2 c

end

/-! ## What was staged of a bay is dropped (R103) -/

section
variable {s t u : State} {b : Nat} {ps : List Part}

/-- The RESIDENT slots of bay b became FREE, or STALE while they are delivered from. -/
def State.dropsStaged (s t : State) (b : Nat) : Prop :=
  ∀ k, (s.slot k).onBay b = true → (s.slot k).state = .resident →
    ((s.slot k).deliveries = 0 → (t.slot k).state = .free) ∧ ((s.slot k).deliveries ≠ 0 → t.slot k = { s.slot k with state := .stale })

theorem State.dropsStaged.congr (h : u.dropsStaged t b) (before : u.staging = s.staging) : s.dropsStaged t b := by
  unfold State.dropsStaged State.slot at h ⊢
  rwa [before] at h

theorem State.dropsStaged.keeps (h : s.dropsStaged u b) (k : Touches ps u t) (staging : Part.staging ∉ ps := by decide) :
    s.dropsStaged t b := by
  unfold State.dropsStaged State.slot at h ⊢
  rwa [k.staging staging]

theorem State.discardBay_dropsStaged (serving : s.serving = true) : s.dropsStaged (s.discardBay b) b := by
  rw [State.discardBay, if_pos serving]
  intro k on own
  have mem : k ∈ s.slotsWhere (fun v => v.state == .resident && v.onBay b) := by
    rw [State.mem_slotsWhere rfl, own, on]; rfl
  exact ⟨State.discardResident_slot_free mem, State.discardResident_slot_stale mem⟩

theorem State.retired_bay (s : State) (b c : Nat) : (s.retired b).bay c =
    if c = b then { s.bay b with state := .present, capacity := 0, idleTicks := 0, readyLow := 0 } else s.bay c := by
  rw [State.retired, (State.discardBay_touches ..).bay, State.bay_putBay]

theorem State.retired_dropsStaged (serving : s.serving = true) : s.dropsStaged (s.retired b) b := by
  have put : Touches [.ports, .records] s
      (s.putBay b { s.bay b with state := .present, capacity := 0, idleTicks := 0, readyLow := 0 }) := State.putBay_touches ..
  exact (State.discardBay_dropsStaged (put.serving.trans serving)).congr put.staging

theorem State.rewriteHeld_retired (s : State) (b : Nat) : s.rewriteHeld (s.retired b) :=
  (State.rewriteHeld_putBay (Touches.refl [] s)).keeps (State.discardBay_touches ..)

end

/-! ## The end of a spin-down (R131) -/

section
variable {s : State} {b : Nat}

/-- The bay is SPUN_DOWN before what is pending is taken. -/
def State.down (s : State) (b : Nat) : State := s.putBay b { s.bay b with state := .spunDown }

theorem State.down_touches (s : State) (b : Nat) : Touches [.ports, .records] s (s.down b) := State.putBay_touches ..
theorem State.down_bay (s : State) (b c : Nat) : (s.down b).bay c = if c = b then { s.bay b with state := .spunDown } else s.bay c :=
  State.bay_putBay ..
theorem State.rewriteHeld_down (s : State) (b : Nat) : s.rewriteHeld (s.down b) := State.rewriteHeld_putBay (Touches.refl [] s)

/-- A pending spin-up leaves the record, and starts. -/
theorem State.spunDown_spinUp (pending : (s.bay b).spinUpPending = true) :
    s.spunDown b = ((s.down b).setBay b { (s.down b).bay b with spinUpPending := false }).startSpinUp b := if_pos pending

/-- A pending retirement leaves the record. -/
def State.downRetiring (s : State) (b : Nat) : State := (s.down b).setBay b { (s.down b).bay b with retirePending := false }

theorem State.downRetiring_touches (s : State) (b : Nat) : Touches [.ports, .records] s (s.downRetiring b) :=
  (State.setBay_touches ..).after rfl (s.down_touches b)

theorem State.spunDown_retire (none : (s.bay b).spinUpPending = false) (pending : (s.bay b).retirePending = true) :
    s.spunDown b = if s.holdsLoans b || s.hasWork b then
        ((s.downRetiring b).setBay b { (s.downRetiring b).bay b with retirePending := true }).startSpinUp b
      else (s.downRetiring b).retired b := by
  have first : s.spunDown b = (s.downRetiring b).retireSpunDown b := by
    rw [State.spunDown]
    dsimp only
    rw [if_neg (by rw [none]; exact Bool.false_ne_true), if_pos pending]; rfl
  have loans : (s.downRetiring b).holdsLoans b = s.holdsLoans b := rfl
  rw [first, State.retireSpunDown, loans, (s.downRetiring_touches b).hasWork]

theorem State.spunDown_rests (none : (s.bay b).spinUpPending = false) (stays : (s.bay b).retirePending = false) :
    s.spunDown b = s.down b := by
  rw [State.spunDown]
  dsimp only
  rw [if_neg (by rw [none]; exact Bool.false_ne_true), if_neg (by rw [stays]; exact Bool.false_ne_true)]; rfl

/-- A spin-down ends in SPUN_DOWN, or in what was pending, and asks for a rewrite. -/
theorem State.spunDown_ends (s : State) (b : Nat) :
    s.rewriteHeld (s.spunDown b) ∧ s.otherBays (s.spunDown b) b
      ∧ ((s.bay b).spinUpPending = true → ((s.spunDown b).bay b).state = .spinningUp ∧ ((s.spunDown b).bay b).spinUpPending = false)
      ∧ ((s.bay b).spinUpPending = false → (s.bay b).retirePending = false → ((s.spunDown b).bay b).state = .spunDown)
      ∧ ((s.bay b).spinUpPending = false → (s.bay b).retirePending = true →
          ((s.spunDown b).bay b).state = if s.holdsLoans b || s.hasWork b then .spinningUp else .present)
      ∧ (s.serving = true → ((s.spunDown b).bay b).state = .present → s.dropsStaged (s.spunDown b) b) := by
  have down := s.rewriteHeld_down b
  have others : ∀ v w c, c ≠ b → (((s.down b).setBay b v).setBay b w).bay c = s.bay c := fun v w c ne => by
    rw [State.bay_setBay, if_neg ne, State.bay_setBay, if_neg ne, State.down_bay, if_neg ne]
  cases up : (s.bay b).spinUpPending with
  | true =>
    rw [State.spunDown_spinUp up]
    refine ⟨(down.keeps (State.setBay_touches ..)).startSpinUp, fun c ne => ?_, fun _ => ?_, nofun, nofun, fun _ present => ?_⟩
    · rw [State.startSpinUp_bay, if_neg ne, State.bay_setBay, if_neg ne, State.down_bay, if_neg ne]
    · rw [State.startSpinUp_bay, if_pos rfl, State.bay_setBay, if_pos rfl]
      exact ⟨rfl, rfl⟩
    · rw [State.startSpinUp_bay, if_pos rfl] at present
      cases present
  | false =>
    cases retire : (s.bay b).retirePending with
    | false =>
      rw [State.spunDown_rests up retire]
      refine ⟨down, fun c ne => ?_, nofun, fun _ _ => ?_, nofun, fun _ present => ?_⟩
      · rw [State.down_bay, if_neg ne]
      · rw [State.down_bay, if_pos rfl]
      · rw [State.down_bay, if_pos rfl] at present
        cases present
    | true =>
      have retiring : s.rewriteHeld (s.downRetiring b) := down.keeps (State.setBay_touches ..)
      rw [State.spunDown_retire up retire]
      cases kept : s.holdsLoans b || s.hasWork b with
      | true =>
        rw [if_pos rfl]
        refine ⟨(retiring.keeps (State.setBay_touches ..)).startSpinUp, fun c ne => ?_, nofun, nofun, fun _ _ => ?_, fun _ present => ?_⟩
        · rw [State.startSpinUp_bay, if_neg ne]
          exact others _ _ c ne
        · rw [State.startSpinUp_bay, if_pos rfl]; rfl
        · rw [State.startSpinUp_bay, if_pos rfl] at present
          cases present
      | false =>
        rw [if_neg Bool.false_ne_true]
        refine ⟨(retiring.putBay).keeps (State.discardBay_touches ..), fun c ne => ?_, nofun, nofun, fun _ _ => ?_, fun serving _ => ?_⟩
        · rw [State.retired_bay, if_neg ne, State.downRetiring, State.bay_setBay, if_neg ne, State.down_bay, if_neg ne]
        · rw [State.retired_bay, if_pos rfl]; rfl
        · have touched := s.downRetiring_touches b
          exact (State.retired_dropsStaged (touched.serving.trans serving)).congr touched.staging

end

/-! ## The reports of control commands (R123) -/

section
variable {s t : State} {b n : Nat} {d : Command} {size : BitVec 64}

theorem State.outstanding_control (found : (s.bay b).command? none n = some d) : s.outstanding b none n d.kind = true := by
  show ((s.bay b).command? none n).any (fun c => c.kind == d.kind) = true
  rw [found]
  exact beq_self_eq_true _

/-- The state in which the command of a report has left the bay's list. -/
def State.controlEnded (s : State) (b n : Nat) : State := s.endCommand b none n

theorem State.controlEnded_touches (s : State) (b n : Nat) : Touches [.records] s (s.controlEnded b n) := State.setBay_touches ..
theorem State.controlEnded_bay (s : State) (b n : Nat) : (s.controlEnded b n).bay b = (s.bay b).endCommand none n :=
  (State.bay_setBay ..).trans (if_pos rfl)
theorem State.controlEnded_bay_other (s : State) (b n : Nat) {c : Nat} (ne : c ≠ b) : (s.controlEnded b n).bay c = s.bay c :=
  (State.bay_setBay ..).trans (if_neg ne)

/-- A rewrite asked for once the command has left its list is one asked for by the report. -/
theorem State.rewriteHeld.controlEnded {u : State} (h : (s.controlEnded b n).rewriteHeld u) : s.rewriteHeld u := h

theorem exec_standbyEnd (bay : Fin 24) (found : (s.bay bay).command? none n = some d) (kind : d.kind = .standby) :
    exec (.standbyEnd ⟨bay, n⟩) s = .next (match (s.bay bay).state with
      | .spinningDown => ((s.controlEnded bay n).spunDown bay).beginRecords
      | .retiring => ((s.controlEnded bay n).retired bay).beginRecords
      | _ => s.controlEnded bay n) := by
  have report := State.outstanding_control found
  rw [kind] at report
  have state : ((s.endCommand bay none n).bay bay).state = (s.bay bay).state :=
    (congrArg Bay.state (s.controlEnded_bay bay n) :)
  show Host.Outcome.next (s.standbyEnd bay n) = _
  unfold State.standbyEnd
  rw [if_pos report]
  dsimp only
  rw [state]; rfl

theorem exec_startEnd (bay : Fin 24) (found : (s.bay bay).command? none n = some d) (kind : d.kind = .start) :
    exec (.startEnd ⟨bay, n⟩) s = .next (if (s.lines bay).ready then ((s.controlEnded bay n).startDone bay).beginRecords
      else s.controlEnded bay n) := by
  have report := State.outstanding_control found
  rw [kind] at report
  show Host.Outcome.next (s.startEnd bay n) = _
  unfold State.startEnd
  rw [if_pos report]; rfl

theorem exec_identifyEnd (bay : Fin 24) (found : (s.bay bay).command? none n = some d) (kind : d.kind = .identify)
    (admitting : (s.bay bay).state = .admitting) : exec (.identifyEnd ⟨bay, n⟩ size) s =
      .next (if size = 0 then (s.controlEnded bay n).operationFails bay
        else (s.controlEnded bay n).admitted bay (min 4294967295 size.toNat)).beginRecords := by
  have report := State.outstanding_control found
  rw [kind] at report
  show Host.Outcome.next (s.identifyEnd bay n size) = _
  unfold State.identifyEnd
  rw [if_pos (by rw [report, admitting]; rfl)]; rfl

end

/-! ## The end of START (R128, R133) -/

section
variable {s u : State} {b n : Nat}

theorem State.completionTest_bay_other (s : State) {b c : Nat} (ne : c ≠ b) : (s.completionTest b).bay c = s.bay c := by
  unfold State.completionTest
  split
  · exact s.send_bay_other _ ne
  · rfl

theorem State.completionTest_retirePending (s : State) (b : Nat) :
    ((s.completionTest b).bay b).retirePending = (s.bay b).retirePending := by
  unfold State.completionTest
  split
  · rw [State.send_bay]
    split <;> rfl
  · rfl

/-- The record of a bay that has spun up. -/
def Bay.spunUp (v : Bay) : Bay :=
  { v with state := if v.retirePending then .retiring else .online, opTimer := 0, idleTicks := 0, readyLow := 0, retirePending := false }

theorem State.spunUp_eq (s : State) (b : Nat) : s.spunUp b =
    if (s.bay b).retirePending then (s.putBay b (s.bay b).spunUp).completionTest b else s.putBay b (s.bay b).spunUp := by
  cases pending : (s.bay b).retirePending <;> simp [State.spunUp, Bay.spunUp, pending]

theorem State.spunUp_ends (s : State) (b : Nat) :
    s.rewriteHeld (s.spunUp b) ∧ s.otherBays (s.spunUp b) b
      ∧ ((s.spunUp b).bay b).state = (if (s.bay b).retirePending then .retiring else .online)
      ∧ ((s.spunUp b).bay b).retirePending = false := by
  have held : s.rewriteHeld (s.putBay b (s.bay b).spunUp) := State.rewriteHeld_putBay (Touches.refl [] s)
  rw [State.spunUp_eq]
  by_cases pending : (s.bay b).retirePending = true
  · rw [if_pos pending]
    refine ⟨held.keeps (State.completionTest_touches ..), fun c ne => ?_, ?_, ?_⟩
    · rw [State.completionTest_bay_other _ ne, State.bay_putBay, if_neg ne]
    · rw [State.completionTest_bay_state, State.bay_putBay, if_pos rfl]; rfl
    · rw [State.completionTest_retirePending, State.bay_putBay, if_pos rfl]; rfl
  · rw [if_neg pending]
    refine ⟨held, fun c ne => ?_, ?_, ?_⟩
    · rw [State.bay_putBay, if_neg ne]
    · rw [State.bay_putBay, if_pos rfl]; rfl
    · rw [State.bay_putBay, if_pos rfl]; rfl

/-- A send depends on the number of the bay's sends, and on its ready line. -/
theorem State.standbySent.of_sends {t v : State} (h : u.standbySent v b) (sends : (u.bay b).sends = (s.bay b).sends)
    (lines : u.lines b = s.lines b) (after : t.bay b = v.bay b) : s.standbySent t b := by
  unfold State.standbySent Bay.firstSend at h ⊢
  rwa [after, ← sends, ← lines]

/-- A bay that spins up into RETIRING without loans and without work is sent its final STANDBY (R135). -/
theorem State.spunUp_sent (pending : (s.bay b).retirePending = true) (ordered : Table.ordered s.loans.table)
    (free : ∀ m, (s.loan m).bay = b → (s.loan m).state = .free) (work : s.hasWork b = false)
    (fresh : ∀ e ∈ (s.bay b).outstanding ++ (s.bay b).sendList, e.kind ≠ .standby) : s.standbySent (s.spunUp b).beginRecords b := by
  have put : Touches [.ports, .records] s (s.putBay b (s.bay b).spunUp) := State.putBay_touches ..
  have own : (s.putBay b (s.bay b).spunUp).bay b = (s.bay b).spunUp := (State.bay_putBay ..).trans (if_pos rfl)
  have tested : (s.putBay b (s.bay b).spunUp).completionTest b = (s.putBay b (s.bay b).spunUp).send b (.control .standby) :=
    State.completionTest_sends (by rw [own]; exact if_pos pending) (State.anyLoan_eq_false ordered free) (by rw [put.hasWork, work])
      (by rw [own]; exact fresh)
  rw [State.spunUp_eq, if_pos pending, tested]
  exact (State.send_standby_sent ..).of_sends (by rw [own]; rfl) (put.lines b) ((State.beginRecords_touches _).bay b)

end

/-! ## The end of IDENTIFY (R75, R128, R129) -/

section
variable {s t : State} {b cap : Nat}

/-- The record of a bay whose disk has told its capacity. -/
def Bay.sized (v : Bay) (cap : Nat) : Bay := { v with capacity := cap, mediaErrors := 0, idleTicks := 0, readyLow := 0, opTimer := 0 }

theorem State.resetShares_fifo (s : State) (b : Nat) {g : Nat} (bound : g < 16) :
    (s.resetShares b).fifo b g = { s.fifo b g with lastFinish := 0 } := by
  have own : ∀ (u : State) g h, (u.setFifo b g { u.fifo b g with lastFinish := 0 }).fifo b h =
      if h = g then { u.fifo b g with lastFinish := 0 } else u.fifo b h := fun u g h => by
    by_cases e : h = g
    · rw [e, State.fifo_setFifo_self, if_pos rfl]
    · rw [State.fifo_setFifo, if_neg (by simp only [fifoNumber]; omega), if_neg e]
  have all := foldl_entry (get := fun u h => u.fifo b h) (g := fun q => { q with lastFinish := 0 }) own allGroups List.nodup_range
    (s.setArbiter b { s.arbiter b with v := 0, h := 0 }) g
  rw [if_pos (show g ∈ allGroups from List.mem_range.2 bound)] at all
  exact all

theorem State.resetShares_arbiter (s : State) (b : Nat) : (s.resetShares b).arbiter b = { s.arbiter b with v := 0, h := 0 } := by
  have fifos : ∀ (gs : List Nat) (u : State),
      (gs.foldl (fun u g => u.setFifo b g { u.fifo b g with lastFinish := 0 }) u).arbiter b = u.arbiter b := by
    intro gs
    induction gs with
    | nil => exact fun _ => rfl
    | cons g gs ih => exact fun u => ih _
  rw [State.resetShares, fifos, State.arbiter_setArbiter, if_pos rfl]

/-- The bay is sized, what was staged of it is dropped, and its scheduler's values are reset. -/
def State.sized (s : State) (b cap : Nat) : State := ((s.putBay b ((s.bay b).sized cap)).discardBay b).resetShares b

/-- The bay is ONLINE, and no cell waits for its admission. -/
def State.onlined (s : State) (b cap : Nat) : State :=
  ((s.sized b cap).putBay b { (s.bay b).sized cap with state := .online }).setBay b
    { (s.bay b).sized cap with state := .online, admitCell := none }

theorem State.sized_bay (s : State) (b cap : Nat) : (s.sized b cap).bay b = (s.bay b).sized cap := by
  rw [State.sized, (State.resetShares_touches ..).bay, (State.discardBay_touches ..).bay, State.bay_putBay, if_pos rfl]

theorem State.sized_touches (s : State) (b cap : Nat) : Touches [.ports, .records, .staging, .fifos, .arbiters] s (s.sized b cap) :=
  (State.resetShares_touches ..).after rfl ((State.discardBay_touches ..).after rfl ((State.putBay_touches ..).mono rfl))

theorem State.onlined_touches (s : State) (b cap : Nat) : Touches [.ports, .records, .staging, .fifos, .arbiters] s (s.onlined b cap) :=
  (State.setBay_touches ..).after rfl ((State.putBay_touches ..).after rfl (s.sized_touches b cap))

theorem State.admitted_eq (serving : s.serving = true) (b cap : Nat) :
    s.admitted b cap = (s.onlined b cap).replyOpt (s.bay b).admitCell .ok cap := by
  have own : ((s.sized b cap).putBay b { (s.bay b).sized cap with state := .online }).bay b = { (s.bay b).sized cap with state := .online } :=
    (State.bay_putBay ..).trans (if_pos rfl)
  have serves : ((s.sized b cap).putBay b { (s.bay b).sized cap with state := .online }).serving = true := by
    rw [(State.putBay_touches ..).serving, (s.sized_touches b cap).serving, serving]
  have first : s.admitted b cap = ((s.sized b cap).putBay b { (s.sized b cap).bay b with state := .online }).answerAdmit b .ok cap := rfl
  rw [first, State.sized_bay, State.answerAdmit_serving serves, own]; rfl

theorem State.rewriteHeld_admitted (serving : s.serving = true) : s.rewriteHeld (s.admitted b cap) := by
  have sized : s.rewriteHeld (s.sized b cap) :=
    ((State.rewriteHeld_putBay (Touches.refl [] s)).keeps (State.discardBay_touches ..)).keeps (State.resetShares_touches ..)
  have onlined : s.rewriteHeld (s.onlined b cap) := sized.putBay.keeps (State.setBay_touches ..)
  rw [State.admitted_eq serving]
  exact onlined.keeps (State.replyOpt_touches ..)

theorem State.admitted_answered (serving : s.serving = true) :
    s.answered (s.admitted b cap) ((s.bay b).admitCell.toList.map (fun c => plain c .ok cap)) := by
  have onlined := s.onlined_touches b cap
  rw [State.admitted_eq serving]
  exact onlined.answered_nil.trans (State.replyOpt_answered ..) onlined.serving

/-- An admission, seen in the bay record, the scheduler and staging memory. -/
theorem State.admitted_ends (serving : s.serving = true) :
    (s.admitted b cap).bay b = { (s.bay b).sized cap with state := .online, admitCell := none }
      ∧ (s.admitted b cap).arbiter b = { s.arbiter b with v := 0, h := 0 }
      ∧ (∀ g, g < 16 → (s.admitted b cap).fifo b g = { s.fifo b g with lastFinish := 0 })
      ∧ s.dropsStaged (s.admitted b cap) b := by
  have sized : Touches [.ports, .records, .answers] (s.sized b cap) (s.admitted b cap) := by
    rw [State.admitted_eq serving]
    exact (State.replyOpt_touches ..).after rfl ((State.setBay_touches ..).after rfl ((State.putBay_touches ..).mono rfl))
  obtain ⟨u, hu⟩ : ∃ u, u = (s.putBay b ((s.bay b).sized cap)) := ⟨_, rfl⟩
  have put : Touches [.ports, .records] s u := hu ▸ State.putBay_touches ..
  have dropped : Touches [.staging] u (u.discardBay b) := State.discardBay_touches ..
  have reset : s.sized b cap = (u.discardBay b).resetShares b := by rw [hu]; rfl
  refine ⟨?_, ?_, fun g bound => ?_, ?_⟩
  · rw [State.admitted_eq serving, (State.replyOpt_touches ..).bay, State.onlined, State.bay_setBay, if_pos rfl]
  · rw [sized.arbiter, reset, State.resetShares_arbiter, dropped.arbiter, put.arbiter]
  · rw [sized.fifo, reset, State.resetShares_fifo _ _ bound, dropped.fifo, put.fifo]
  · have staged : u.dropsStaged (s.sized b cap) b := by
      rw [reset]
      exact (State.discardBay_dropsStaged (put.serving.trans serving)).keeps (State.resetShares_touches ..)
    exact (staged.congr put.staging).keeps sized

/-- What a fault reaches does not depend on the record of its bay. -/
theorem State.faultReached.of_setBay {v : Bay} {cause : Cause} (h : (s.setBay b v).faultReached t b cause) : s.faultReached t b cause := by
  obtain ⟨loans, shares, slots, sequence, offer, asked⟩ := h
  refine ⟨loans, shares, slots, sequence, fun ordered => offer ?_, asked⟩
  obtain ⟨table, waiting, groups, fifos, arbiters, staged, records, lines, meters⟩ := ordered
  exact ⟨table, waiting, groups, fifos, arbiters, staged, Table.ordered_set records, lines, meters⟩

end

/-- Settles O53: STANDBY by the state of the bay and what is pending, START by its ready line and its state, IDENTIFY by the size. -/
theorem spinOperationsEnd : Obligations.SpinOperationsEnd := by
  refine ⟨?_, ?_, ?_⟩
  · intro s b n d found kind
    have run := exec_standbyEnd b found kind
    have ended := s.controlEnded_touches b n
    have own := s.controlEnded_bay b n
    have others : ∀ {u : State}, (s.controlEnded b n).otherBays u b → s.otherBays u b := fun h c ne =>
      (h c ne).trans (s.controlEnded_bay_other b n ne)
    cases state : (s.bay b).state with
    | spinningDown =>
      rw [state] at run
      obtain ⟨held, other, up, rests, retires, drops⟩ := (s.controlEnded b n).spunDown_ends b
      have last := State.beginRecords_touches ((s.controlEnded b n).spunDown b)
      rw [own, ended.hasWork] at retires
      rw [own] at up rests
      refine ⟨_, run, fun c ne => (last.bay c).trans (others other c ne), fun _ => held.controlEnded.asked, nofun, fun _ => ?_,
        fun serves _ present => ?_⟩
      · rw [last.bay]
        exact ⟨up, rests, retires⟩
      · rw [last.bay] at present
        exact ((drops (ended.serving.trans (s.serving_iff.2 serves)) present).congr ended.staging).keeps last
    | retiring =>
      rw [state] at run
      have last := State.beginRecords_touches ((s.controlEnded b n).retired b)
      have bay := (s.controlEnded b n).retired_bay b
      refine ⟨_, run, fun c ne => ?_, fun _ => ((s.controlEnded b n).rewriteHeld_retired b).controlEnded.asked, fun _ => ?_, nofun,
        fun serves _ _ => ?_⟩
      · rw [last.bay, bay, if_neg ne, State.controlEnded_bay_other _ _ _ ne]
      · rw [last.bay, bay, if_pos rfl]
        exact ⟨rfl, rfl⟩
      · have drops := State.retired_dropsStaged (b := b) (ended.serving.trans (s.serving_iff.2 serves))
        exact (drops.congr ended.staging).keeps last
    | empty | present | admitting | online | spunDown | spinningUp | faulted =>
      rw [state] at run
      exact ⟨_, run, fun c ne => s.controlEnded_bay_other b n ne, by simp, nofun, nofun, by simp⟩
  · intro s b n d found kind
    have run := exec_startEnd b found kind
    have ended := s.controlEnded_touches b n
    have own := s.controlEnded_bay b n
    have state : ((s.controlEnded b n).bay b).state = (s.bay b).state := by rw [own]; rfl
    by_cases ready : (s.lines b).ready = true
    · rw [if_pos ready, State.startDone, state] at run
      cases st : (s.bay b).state with
      | spinningUp =>
        rw [st] at run
        obtain ⟨held, other, ends, cleared⟩ := (s.controlEnded b n).spunUp_ends b
        have last := State.beginRecords_touches ((s.controlEnded b n).spunUp b)
        rw [own] at ends
        refine ⟨_, run, fun c ne => ?_, fun low => absurd (ready.symm.trans low) nofun, fun _ _ => ⟨?_, ?_, held.controlEnded.asked,
          fun pending ordered free work fresh => ?_⟩, fun _ => nofun⟩
        · rw [last.bay, other c ne, State.controlEnded_bay_other _ _ _ ne]
        · rw [last.bay]; exact ends
        · rw [last.bay]; exact cleared
        · have sent : (s.controlEnded b n).standbySent ((s.controlEnded b n).spunUp b).beginRecords b := by
            refine State.spunUp_sent (by rw [own]; exact pending) (by rw [ended.loans]; exact ordered.1)
              (fun m => by rw [ended.loan]; exact free m) (by rw [ended.hasWork, work]) (fun e mem => fresh e ?_)
            rw [own] at mem
            rcases List.mem_append.1 mem with sent | waits
            · exact List.mem_append_left _ (List.mem_of_mem_filter sent)
            · exact List.mem_append_right _ waits
          exact sent.of_sends (by rw [own]; rfl) (ended.lines b) rfl
      | admitting =>
        rw [st] at run
        have last := State.beginRecords_touches ((s.controlEnded b n).send b (.control .identify))
        have sent := (s.controlEnded b n).send_bay b (.control .identify)
        rw [if_neg (fun h => Bool.false_ne_true h.1)] at sent
        refine ⟨_, run, fun c ne => ?_, fun low => absurd (ready.symm.trans low) nofun, fun _ => nofun, fun _ _ => ?_⟩
        · rw [last.bay, State.send_bay_other _ _ ne, State.controlEnded_bay_other _ _ _ ne]
        · rw [last.bay, sent]
          exact ⟨state.trans st, _, List.mem_append_right _ (List.mem_singleton_self _), rfl⟩
      | empty | present | online | spinningDown | spunDown | retiring | faulted =>
        rw [st] at run
        have last := State.beginRecords_touches (s.controlEnded b n)
        exact ⟨_, run, fun c ne => (last.bay c).trans (s.controlEnded_bay_other b n ne), fun low => absurd (ready.symm.trans low) nofun,
          fun _ => nofun, fun _ => nofun⟩
    · rw [if_neg ready] at run
      exact ⟨_, run, fun c ne => s.controlEnded_bay_other b n ne, fun _ => own, fun high => absurd high ready, fun high => absurd high ready⟩
  · intro s b n d size serves found kind admitting
    have run := exec_identifyEnd (size := size) b found kind admitting
    have ended := s.controlEnded_touches b n
    have own := s.controlEnded_bay b n
    have serving : (s.controlEnded b n).serving = true := ended.serving.trans (s.serving_iff.2 serves)
    by_cases none : size = 0
    · have failed := State.operationFails_admitting (s := s.controlEnded b n) (by rw [own]; exact admitting)
      rw [if_pos none, failed] at run
      have bay := State.bayFault_bay b .admitFailed serving
      rw [own] at bay
      refine ⟨_, run, fun some => absurd none some, fun _ => ⟨bay, ?_, fun c opening => ?_,
        (State.bayFault_faultReached b .admitFailed serving).of_setBay⟩⟩
      · rw [bay]
        rfl
      · exact State.bayFault_admit b .admitFailed serving (by rw [own]; exact opening)
    · rw [if_neg none] at run
      obtain ⟨bay, arbiter, fifos, drops⟩ := State.admitted_ends (b := b) (cap := min 4294967295 size.toNat) serving
      have last := State.beginRecords_touches ((s.controlEnded b n).admitted b (min 4294967295 size.toNat))
      have answers := State.admitted_answered (b := b) (cap := min 4294967295 size.toNat) serving
      rw [own] at bay answers
      refine ⟨_, run, fun _ => ⟨?_, ?_, ?_, ?_, ?_, ?_, fun g bound => ?_, (drops.congr ended.staging).keeps last,
        (State.rewriteHeld_admitted serving).controlEnded.asked, ?_⟩, fun zero => absurd zero none⟩
      · rw [last.bay, bay]
      · rw [last.bay, bay]; rfl
      · rw [last.bay, bay]; rfl
      · rw [last.bay, bay]
      · rw [last.arbiter, arbiter]
      · rw [last.arbiter, arbiter]
      · rw [last.fifo, fifos g bound, ended.fifo]
      · exact answers.within ended last (State.admitted_touches ..).serving (by decide) (by decide)

end Sys2Proof.Machine
end

section
namespace Sys2Proof.Machine

set_option Elab.async false

/-! ## The layouts of the records (R200) -/

section
variable {bytes pre rest : List Byte} {fields : List (Nat × Nat × Nat)} {i w : Nat}

theorem flatMap_length {α : Type} {f : α → List Byte} (size : ∀ a, (f a).length = w) (l : List α) : (l.flatMap f).length = w * l.length := by
  induction l with
  | nil => rfl
  | cons a l ih => rw [List.flatMap_cons, List.length_append, ih, size, List.length_cons, Nat.mul_succ, Nat.add_comm]

/-- One of the equal entries of a record, with bytes before the entries and behind them. -/
theorem laidOut_entry {α : Type} {f : α → List Byte} {l : List α} {a : α} (size : ∀ a, (f a).length = w) (at_i : l[i]? = some a)
    (fits : ∀ e ∈ fields, e.1 + e.2.1 ≤ w) (own : laidOut 0 (f a) fields) :
    laidOut 0 (pre ++ (l.flatMap f ++ rest)) (fields.map (fun e => (pre.length + w * i + e.1, e.2))) := by
  intro e mem
  obtain ⟨e, listed, rfl⟩ := List.mem_map.1 mem
  have small := fits e listed
  have inside : w * i + w ≤ w * l.length := by
    rw [← Nat.mul_succ]
    exact Nat.mul_le_mul_left w (List.getElem?_eq_some_iff.1 at_i).1
  have place : pre.length + w * i + e.1 - 0 - pre.length = w * i + e.1 := by omega
  show fieldAt _ (pre.length + w * i + e.1 - 0) e.2.1 = _
  rw [fieldAt_behind (by omega), place, fieldAt_within (by rw [flatMap_length size]; omega), fieldAt_entry size at_i small]
  exact own e listed

theorem FaultRecord.image_laidOut (r : FaultRecord) : r.image.length = 20 ∧ laidOut 0 r.image
    [(0, 1, r.cause.code), (1, 1, 0), (2, 2, r.location), (4, 2, r.loansFaulted), (6, 2, r.ordersFailed), (8, 4, r.stamp.toNat),
     (12, 1, r.suppressedBefore), (13, 1, flagNat r.autoRearm), (14, 2, r.holdMask.toNat), (16, 4, r.sequence.toNat)] := by
  refine ⟨by simp [FaultRecord.image], ?_⟩
  unfold laidOut FaultRecord.image
  simp only [List.append_assoc, List.forall_mem_cons, List.not_mem_nil, IsEmpty.forall_iff, implies_true, and_true]
  and_intros
  all_goals simp [fieldAt_behind, fieldAt_here, fieldAt_last]

theorem Bay.summaryEntry_length (v : Bay) : v.summaryEntry.length = 16 := by
  simp [Bay.summaryEntry]

theorem Bay.summaryEntry_laidOut (v : Bay) : laidOut 0 v.summaryEntry
    [(0, 1, v.state.code), (1, 1, v.lastFault.code),
     (2, 1, (if v.captureEnable then 1 else 0) + (if v.noticeOn then 2 else 0) + (if v.captured then 4 else 0) + 16 * v.edgeSelect.code),
     (3, 1, 0), (4, 4, v.capacity), (8, 2, v.mediaErrors), (10, 6, 0)] := by
  have flags : flagNat v.captureEnable + 2 * flagNat v.noticeOn + 4 * flagNat v.captured
      = (if v.captureEnable then 1 else 0) + (if v.noticeOn then 2 else 0) + (if v.captured then 4 else 0) := by
    rcases v.captureEnable <;> rcases v.noticeOn <;> rcases v.captured <;> rfl
  unfold laidOut Bay.summaryEntry
  rw [flags]
  simp only [List.append_assoc, List.forall_mem_cons, List.not_mem_nil, IsEmpty.forall_iff, implies_true, and_true]
  and_intros
  all_goals simp [fieldAt_behind, fieldAt_here, fieldAt_last]

theorem GroupMeter.image_length (m : GroupMeter) : m.image.length = 64 := by
  simp [GroupMeter.image]

theorem GroupMeter.image_laidOut (m : GroupMeter) : laidOut 0 m.image
    [(0, 4, m.reads.last), (4, 4, m.writes.last), (8, 4, m.staged.last), (12, 4, m.orders.last), (16, 1, flagNat m.cappedLast), (17, 7, 0),
     (24, 8, m.reads.total), (32, 8, m.writes.total), (40, 8, m.staged.total), (48, 8, m.orders.total), (56, 8, 0)] := by
  unfold laidOut GroupMeter.image
  simp only [List.append_assoc, List.forall_mem_cons, List.not_mem_nil, IsEmpty.forall_iff, implies_true, and_true]
  and_intros
  all_goals simp [fieldAt_behind, fieldAt_here, fieldAt_last]

end

section
variable (s : State) (seq : BitVec 32)

theorem State.summaryEntries_length : (allBays.flatMap (fun b => (s.bay b).summaryEntry)).length = 384 :=
  flatMap_length (fun b => (s.bay b).summaryEntry_length) allBays

theorem State.summaryImage_length : (s.summaryImage seq).length = 392 := by
  rw [State.summaryImage, List.length_append, List.length_append, State.summaryEntries_length, leBytes_length]

/-- The two copies of the sequence number (R142). -/
theorem State.summaryImage_sequence : laidOut 0 (s.summaryImage seq) [(384, 4, seq.toNat), (388, 4, seq.toNat)] := by
  have entries := s.summaryEntries_length
  unfold laidOut State.summaryImage
  generalize allBays.flatMap (fun b => (s.bay b).summaryEntry) = body at entries
  simp only [List.append_assoc, List.forall_mem_cons, List.not_mem_nil, IsEmpty.forall_iff, implies_true, and_true]
  and_intros
  all_goals simp [fieldAt_behind, fieldAt_here, fieldAt_last, entries]

theorem State.summaryImage_entry {b : Nat} (bound : b < 24) : laidOut 0 (s.summaryImage seq)
    (let v := s.bay b
     [(16 * b, 1, v.state.code), (16 * b + 1, 1, v.lastFault.code),
      (16 * b + 2, 1, (if v.captureEnable then 1 else 0) + (if v.noticeOn then 2 else 0) + (if v.captured then 4 else 0)
        + 16 * v.edgeSelect.code),
      (16 * b + 3, 1, 0), (16 * b + 4, 4, v.capacity), (16 * b + 8, 2, v.mediaErrors), (16 * b + 10, 6, 0)]) := by
  have at_b : allBays[b]? = some b := by simp [allBays, Config.numBays, bound]
  have entry := laidOut_entry (pre := []) (rest := leBytes 4 seq.toNat ++ leBytes 4 seq.toNat)
    (f := fun b => (s.bay b).summaryEntry) (fun b => (s.bay b).summaryEntry_length) at_b (by simp) (s.bay b).summaryEntry_laidOut
  simpa only [List.nil_append, List.length_nil, Nat.zero_add, List.map_cons, List.map_nil, Nat.add_zero, State.summaryImage,
    List.append_assoc] using entry

theorem State.slotsIn_eq (st : SlotState) : s.slotsIn st = s.staging.slots.countP (fun e => e.2.state == st) :=
  List.countP_eq_length_filter.symm

theorem State.meterEntries_length : (allGroups.flatMap (fun g => (s.meter g).image)).length = 1024 :=
  flatMap_length (fun g => (s.meter g).image_length) allGroups

/-- The 64 bytes of the Meter Block before its group entries. -/
def State.meterHead (s : State) : List Byte :=
  leBytes 4 s.meters.periodSeq.toNat ++ leBytes 4 s.meters.endStamp.toNat ++ leBytes 1 s.clock.meterTicks ++ leBytes 3 0
    ++ leBytes 4 s.clock.interval
    ++ leBytes 2 s.slotsFree ++ leBytes 2 (s.slotsIn .filling) ++ leBytes 2 (s.slotsIn .resident)
    ++ leBytes 2 (s.slotsIn .draining) ++ leBytes 2 (s.slotsIn .stale) ++ leBytes 2 (s.slotsIn .bad) ++ leBytes 4 0
    ++ leBytes 4 s.meters.noGroup.last ++ leBytes 4 0 ++ leBytes 8 s.meters.noGroup.total ++ leBytes 16 0

theorem State.meterHead_length : s.meterHead.length = 64 := by
  simp [State.meterHead]

theorem State.meterImage_eq : s.meterImage =
    s.meterHead ++ (allGroups.flatMap (fun g => (s.meter g).image) ++ leBytes 4 s.meters.periodSeq.toNat) :=
  List.append_assoc ..

theorem State.meterImage_length : s.meterImage.length = 1092 := by
  rw [State.meterImage_eq, List.length_append, List.length_append, State.meterHead_length, State.meterEntries_length, leBytes_length]

theorem State.meterHead_laidOut : laidOut 0 s.meterHead
    [(0, 4, s.meters.periodSeq.toNat), (4, 4, s.meters.endStamp.toNat), (8, 1, s.clock.meterTicks), (9, 3, 0), (12, 4, s.clock.interval),
     (16, 2, s.slotsFree), (18, 2, s.slotsIn .filling), (20, 2, s.slotsIn .resident), (22, 2, s.slotsIn .draining),
     (24, 2, s.slotsIn .stale), (26, 2, s.slotsIn .bad), (28, 4, 0), (32, 4, s.meters.noGroup.last), (36, 4, 0),
     (40, 8, s.meters.noGroup.total), (48, 16, 0)] := by
  unfold laidOut State.meterHead
  simp only [List.append_assoc, List.forall_mem_cons, List.not_mem_nil, IsEmpty.forall_iff, implies_true, and_true]
  and_intros
  all_goals simp [fieldAt_behind, fieldAt_here, fieldAt_last]

/-- The Meter Block ends with the period sequence again (R155). -/
theorem State.meterImage_sequence : fieldAt s.meterImage 1088 4 = s.meters.periodSeq.toNat % 256 ^ 4 := by
  rw [State.meterImage_eq, fieldAt_behind (by rw [State.meterHead_length]; decide), State.meterHead_length,
    fieldAt_behind (by rw [State.meterEntries_length]), State.meterEntries_length]
  exact fieldAt_last

theorem State.meterImage_laidOut : laidOut 0 s.meterImage
    [(0, 4, s.meters.periodSeq.toNat), (4, 4, s.meters.endStamp.toNat), (8, 1, s.clock.meterTicks), (9, 3, 0), (12, 4, s.clock.interval),
     (16, 2, s.slotsFree), (18, 2, s.slotsIn .filling), (20, 2, s.slotsIn .resident), (22, 2, s.slotsIn .draining),
     (24, 2, s.slotsIn .stale), (26, 2, s.slotsIn .bad), (28, 4, 0), (32, 4, s.meters.noGroup.last), (36, 4, 0),
     (40, 8, s.meters.noGroup.total), (48, 16, 0), (1088, 4, s.meters.periodSeq.toNat)] := by
  have within : ∀ off n, off + n ≤ 64 → fieldAt s.meterImage off n = fieldAt s.meterHead off n := fun off n fits => by
    rw [State.meterImage_eq, fieldAt_within (by rw [State.meterHead_length]; exact fits)]
  have head := s.meterHead_laidOut
  unfold laidOut at head ⊢
  simp only [List.forall_mem_cons, List.not_mem_nil, IsEmpty.forall_iff, implies_true, and_true, Nat.sub_zero] at head ⊢
  simp only [within, Nat.reduceAdd, Nat.reduceLeDiff, head, State.meterImage_sequence, and_self]

theorem State.meterImage_entry {g : Nat} (bound : g < 16) : laidOut 0 s.meterImage
    (let m := s.meter g
     [(64 + 64 * g, 4, m.reads.last), (64 + 64 * g + 4, 4, m.writes.last), (64 + 64 * g + 8, 4, m.staged.last),
      (64 + 64 * g + 12, 4, m.orders.last), (64 + 64 * g + 16, 1, if m.cappedLast then 1 else 0), (64 + 64 * g + 17, 7, 0),
      (64 + 64 * g + 24, 8, m.reads.total), (64 + 64 * g + 32, 8, m.writes.total), (64 + 64 * g + 40, 8, m.staged.total),
      (64 + 64 * g + 48, 8, m.orders.total), (64 + 64 * g + 56, 8, 0)]) := by
  have at_g : allGroups[g]? = some g := by simp [allGroups, Config.numGroups, bound]
  have entry := laidOut_entry (pre := s.meterHead) (rest := leBytes 4 s.meters.periodSeq.toNat)
    (f := fun g => (s.meter g).image) (fun g => (s.meter g).image_length) at_g (by simp) (s.meter g).image_laidOut
  rw [← State.meterImage_eq, State.meterHead_length] at entry
  exact entry

end

/-! ## Parts of a record in host memory (R200) -/

section
variable {s : State} {a i x : Nat} {image : List Byte} {p : Nat × Nat} {parts : List (Nat × Nat)}

/-- A byte of a record, after one part of the record was written. -/
theorem State.pokePart_read (small : image.length ≤ 18446744073709551616) (fits : p.1 + p.2 ≤ image.length) (bound : i < image.length) :
    Memory.read (s.poke (a + p.1) ((image.drop p.1).take p.2)).hostMem ((a + i) % 18446744073709551616) =
      if p.1 ≤ i ∧ i < p.1 + p.2 then image[i]? else Memory.read s.hostMem ((a + i) % 18446744073709551616) := by
  have space : Config.addressSpace = 18446744073709551616 := rfl
  have length : ((image.drop p.1).take p.2).length = p.2 := by rw [List.length_take, List.length_drop]; omega
  rw [State.poke_hostMem, Memory.read_writeBytes_wrap _ _ _ _ (by rw [space]; omega) (by rw [space]; omega), space, length]
  by_cases behind : p.1 ≤ i
  · have place : ((a + i) % 18446744073709551616 + 18446744073709551616 - (a + p.1) % 18446744073709551616) % 18446744073709551616
        = i - p.1 := by omega
    rw [place]
    by_cases inside : i < p.1 + p.2
    · rw [if_pos (by omega), if_pos ⟨behind, inside⟩, List.getElem?_take, if_pos (by omega), List.getElem?_drop,
        Nat.add_sub_cancel' behind]
    · rw [if_neg (by omega), if_neg fun h => inside h.2]
  · have place : ((a + i) % 18446744073709551616 + 18446744073709551616 - (a + p.1) % 18446744073709551616) % 18446744073709551616
        = i + 18446744073709551616 - p.1 := by omega
    rw [place, if_neg (by omega), if_neg fun h => behind h.1]

/-- A byte of a record reads as the record has it, once a part with it was written, or where it did before. -/
theorem State.pokeParts_read (small : image.length ≤ 18446744073709551616) (bound : i < image.length)
    (fits : ∀ p ∈ parts, p.1 + p.2 ≤ image.length)
    (told : (∃ p ∈ parts, p.1 ≤ i ∧ i < p.1 + p.2) ∨ Memory.read s.hostMem ((a + i) % 18446744073709551616) = image[i]?) :
    Memory.read (s.pokeParts a image parts).hostMem ((a + i) % 18446744073709551616) = image[i]? := by
  induction parts generalizing s with
  | nil =>
    rcases told with ⟨p, mem, -⟩ | before
    · cases mem
    · exact before
  | cons p parts ih =>
    have here := State.pokePart_read (s := s) (a := a) small (fits p List.mem_cons_self) bound
    refine ih (s := s.poke (a + p.1) ((image.drop p.1).take p.2)) (fun q mem => fits q (List.mem_cons_of_mem _ mem)) ?_
    rw [here]
    rcases told with ⟨q, mem, inside⟩ | before
    · rcases List.mem_cons.1 mem with rfl | mem
      · exact .inr (if_pos inside)
      · exact .inl ⟨q, mem, inside⟩
    · rw [before, ite_self]
      exact .inr rfl

theorem State.pokeParts_read_other (small : image.length ≤ 18446744073709551616) (fits : ∀ p ∈ parts, p.1 + p.2 ≤ image.length)
    (away : ∀ i, i < image.length → x ≠ (a + i) % Config.addressSpace) :
    Memory.read (s.pokeParts a image parts).hostMem x = Memory.read s.hostMem x := by
  have space : Config.addressSpace = 18446744073709551616 := rfl
  induction parts generalizing s with
  | nil => rfl
  | cons p parts ih =>
    have own := fits p List.mem_cons_self
    have length : ((image.drop p.1).take p.2).length = p.2 := by rw [List.length_take, List.length_drop]; omega
    refine (ih (s := s.poke (a + p.1) ((image.drop p.1).take p.2)) fun q mem => fits q (List.mem_cons_of_mem _ mem)).trans ?_
    rw [State.poke_hostMem]
    refine Memory.read_writeBytes_other _ _ _ _ (by rw [space]; omega) fun j hj => ?_
    rw [Nat.add_assoc]
    exact away (p.1 + j) (by omega)

/-- The parts of a record are the whole of its n bytes. -/
def partsCover (parts : List (Nat × Nat)) (n : Nat) : Prop :=
  (∀ p ∈ parts, p.1 + p.2 ≤ n) ∧ ∀ i, i < n → ∃ p ∈ parts, p.1 ≤ i ∧ i < p.1 + p.2

theorem faultRecordParts_cover : partsCover faultRecordParts 20 := by
  simp [partsCover, faultRecordParts]; omega
theorem meterBlockParts_cover : partsCover meterBlockParts 1092 := by
  simp [partsCover, meterBlockParts]; omega
theorem baySummaryParts_cover : partsCover baySummaryParts 392 := by
  simp [partsCover, baySummaryParts]; omega

/-- A record written in all its parts stands in host memory, and every other byte is as it was. -/
theorem State.pokeParts_written {n : Nat} (cover : partsCover parts n) (length : image.length = n) (small : n ≤ 18446744073709551616)
    (s : State) (a : Nat) :
    (∀ i, i < n → Memory.read (s.pokeParts a image parts).hostMem ((a + i) % 18446744073709551616) = image[i]?)
      ∧ s.otherBytes (s.pokeParts a image parts) a n := by
  subst length
  obtain ⟨fits, all⟩ := cover
  exact ⟨fun i bound => State.pokeParts_read small bound fits (.inl (all i bound)), fun x away => State.pokeParts_read_other small fits away⟩

end

/-! ## What the end of a record write leads to -/

section
variable (s : State)

theorem State.serving_eq_decide : s.serving = decide (s.exchange.part ∈ [PartState.stopped, .running, .stopping]) := by
  rw [Bool.eq_iff_iff, State.serving_iff, decide_eq_true_iff]

theorem State.mayWriteRecords_iff :
    s.mayWriteRecords = true ↔ s.exchange.part ∈ [PartState.stopped, .running, .stopping] ∧ s.exchange.base ≠ 0 := by
  rw [State.mayWriteRecords, Bool.and_eq_true, State.serving_iff, bne_iff_ne]

theorem State.faultNotice_flags : s.faultNotice.notices.flags = { s.notices.flags with fault := s.notices.flags.fault || s.serving } := by
  unfold State.faultNotice
  cases s.serving with
  | false => rw [if_neg Bool.false_ne_true, Bool.or_false]
  | true => rw [if_pos rfl, State.noticeFault, State.setFlags, Notices.renew_flags, Bool.or_true]

theorem State.meterNotice_flags : s.meterNotice.notices.flags =
    { s.notices.flags with meter := s.notices.flags.meter || decide (s.exchange.part ≠ .restarting) } := by
  unfold State.meterNotice
  by_cases restarting : s.exchange.part = .restarting
  · rw [if_pos restarting, decide_eq_false (not_not_intro restarting), Bool.or_false]
  · rw [if_neg restarting, decide_eq_true restarting, State.noticeMeter, State.setFlags, Notices.renew_flags, Bool.or_true]

/-- A scheduler that makes no choices asks for no spin-up (R76). -/
theorem State.requestSpinUps_idle {s : State} (idle : s.working = false) : s.requestSpinUps = s := by
  have each : ∀ bs : List Nat, bs.foldl (fun s b => s.requestSpinUp b) s = s := fun bs => by
    induction bs with
    | nil => rfl
    | cons b bs ih => rw [List.foldl_cons, State.requestSpinUp_none fun asks => Bool.false_ne_true (idle.symm.trans asks.1), ih]
  exact each allBays

theorem State.requestSpinUps_capture : s.requestSpinUps.capture = s.capture := by
  obtain ⟨⟨r, held, form, -⟩, -⟩ := State.requestSpinUp_fold allBays s List.nodup_range
  have form : s.requestSpinUps = s.withRecords r held := form
  rw [form]; rfl

theorem State.rearmed_capture : s.rearmed.capture = s.capture := by
  unfold State.rearmed
  split
  · exact s.requestSpinUps_capture
  · rfl

/-- A record that has been written is no longer captured, and where AUTO_REARM is set the next one may be (R162). -/
def FaultCapture.written (v : FaultCapture) : FaultCapture :=
  { v with record := none, writing := none, triggered := v.triggered && !v.autoRearm }

theorem State.pokeParts_exchange (a : Nat) (image : List Byte) (parts : List (Nat × Nat)) :
    (s.pokeParts a image parts).exchange = s.exchange := by
  induction parts generalizing s with
  | nil => rfl
  | cons p parts ih => exact ih _

theorem State.pokeParts_capture (a : Nat) (image : List Byte) (parts : List (Nat × Nat)) :
    (s.pokeParts a image parts).capture = s.capture := by
  induction parts generalizing s with
  | nil => rfl
  | cons p parts ih => exact ih _

/-- The Fault Record stands in host memory, at address a. -/
def State.recordEnded (s : State) (a : Nat) (r : FaultRecord) : State :=
  { s.pokeParts a r.image faultRecordParts with capture := s.capture.written }

theorem State.recordEnded_touches (a : Nat) (r : FaultRecord) : Touches [.ports, .capture, .hostMem] s (s.recordEnded a r) :=
  (State.setCapture_touches ..).after rfl ((s.pokeParts_touches a r.image faultRecordParts).mono rfl)

theorem exec_faultRecordWriteEnd {s : State} {base : BitVec 64} {r : FaultRecord} (writing : s.capture.writing = some base)
    (record : s.capture.record = some r) :
    exec .faultRecordWriteEnd s = .next (s.recordEnded (base.toNat + 0x20000) r).faultNotice.rearmed.beginRecords := by
  show Host.Outcome.next s.faultRecordWritten = _
  unfold State.faultRecordWritten
  simp only [writing, record, State.pokeParts_capture, State.recordEnded, FaultCapture.written]

theorem exec_meterBlockWriteEnd {s : State} {w : RecordWrite} (flight : s.exchange.meterPort.inFlight = some w) :
    exec .meterBlockWriteEnd s =
      .next (s.pokeParts (w.base.toNat + 0x20200) w.image meterBlockParts).endMeterWrite.meterNotice.beginRecords := by
  show Host.Outcome.next s.meterBlockWritten = _
  unfold State.meterBlockWritten
  rw [flight]

theorem exec_baySummaryWriteEnd {s : State} {w : RecordWrite} (flight : s.exchange.summaryPort.inFlight = some w) :
    exec .baySummaryWriteEnd s = .next (s.pokeParts (w.base.toNat + 0x20040) w.image baySummaryParts).endSummaryWrite.beginRecords := by
  show Host.Outcome.next s.baySummaryWritten = _
  unfold State.baySummaryWritten
  rw [flight]

end

/-- The Fault Record: the record itself, and the heads that are looked at again (R165). -/
theorem State.faultRecordEnds (s : State) (a : Nat) (r : FaultRecord) {t : State}
    (ends : t = (s.recordEnded a r).faultNotice.rearmed.beginRecords) :
    t.capture = s.capture.written
      ∧ t.hostMem = (s.pokeParts a r.image faultRecordParts).hostMem
      ∧ t.notices.flags = { s.notices.flags with fault := s.notices.flags.fault || s.serving }
      ∧ (s.capture.autoRearm = true → s.working = true → s.spinUpsAsked t)
      ∧ (s.capture.autoRearm = false ∨ s.working = false → t.bays = s.bays) := by
  obtain ⟨w, hw⟩ : ∃ w, w = s.recordEnded a r := ⟨_, rfl⟩
  have ended : Touches [.ports, .capture, .hostMem] s w := hw ▸ s.recordEnded_touches a r
  have capture : w.capture = s.capture.written := by rw [hw]; rfl
  have exchange : w.exchange = s.exchange := by rw [hw]; exact s.pokeParts_exchange ..
  have noticed : Touches [.notices] w w.faultNotice := w.faultNotice_touches
  have before : Touches [.ports, .capture, .hostMem, .notices] s w.faultNotice := noticed.after rfl (ended.mono rfl)
  have rearmed : Touches [.ports, .records] w.faultNotice w.faultNotice.rearmed := State.rearmed_touches _
  have last := w.faultNotice.rearmed.beginRecords_touches
  have captured : w.faultNotice.rearmed.capture = s.capture.written := by
    rw [State.rearmed_capture, noticed.captures, capture]
  have working : w.faultNotice.working = s.working := before.working
  rw [← hw] at ends
  subst ends
  refine ⟨?_, ?_, ?_, fun auto works => ?_, fun still => ?_⟩
  · exact (w.faultNotice.rearmed.beginRecords_capture (by rw [captured]; rfl)).trans captured
  · rw [last.hostMem, rearmed.hostMem, noticed.hostMem, hw]; rfl
  · rw [last.notices, rearmed.notices, State.faultNotice_flags, ended.notices, ended.serving]
  · obtain ⟨-, port, seq, -⟩ := noticed.same .ports (by decide)
    have looks : w.faultNotice.rearmed = w.faultNotice.requestSpinUps := if_pos (by rw [noticed.captures, capture]; exact auto)
    have after : Touches [.ports, .records] w.faultNotice w.faultNotice.requestSpinUps := State.requestSpinUps_touches _
    rw [looks]
    exact State.spinUpsAsked_of_requests (working.trans works) before.bays
      ⟨by rw [port, exchange], by rw [seq, exchange], by rw [noticed.base, exchange]⟩ ⟨rfl, rfl, rfl, rfl⟩ fun b => after.wantsSpinUp b
  · have rests : w.faultNotice.rearmed = w.faultNotice := by
      unfold State.rearmed
      rcases still with off | idle
      · rw [if_neg (by rw [noticed.captures, capture]; exact fun on => Bool.false_ne_true (off.symm.trans on))]
      · rw [State.requestSpinUps_idle (working.trans idle), ite_self]
    rw [State.beginRecords_bays, rests, before.bays]

/-- Settles O56: the codes and layouts, then each record as its parts, with what the end of its write leads to. -/
theorem recordsAreWritten : Obligations.RecordsAreWritten := by
  refine ⟨rfl, rfl, rfl, fun r => r.image_laidOut, fun s seq => ⟨s.summaryImage_length seq, s.summaryImage_sequence seq,
    fun b bound => s.summaryImage_entry seq bound⟩, fun s => ⟨s.meterImage_length, ?_, fun g bound => s.meterImage_entry bound⟩, ?_, ?_, ?_⟩
  · have block := s.meterImage_laidOut
    simp only [State.slotsFree, State.slotsIn_eq] at block
    exact block
  · intro s base r writing record
    have run := exec_faultRecordWriteEnd writing record
    obtain ⟨length, -⟩ := r.image_laidOut
    obtain ⟨written, others⟩ := State.pokeParts_written faultRecordParts_cover length (by decide) s (base.toNat + 0x20000)
    obtain ⟨capture, mem, flags, asked, still⟩ := s.faultRecordEnds (base.toNat + 0x20000) r rfl
    refine ⟨_, run, ?_, ?_, ?_, fun i bound => ?_, fun x away => ?_, ?_, fun auto works => asked auto (s.working_iff.2 works), fun rests => ?_,
      exec_touches run⟩
    · rw [capture]; rfl
    · rw [capture]; rfl
    · rw [capture]; rfl
    · rw [mem]; exact written i bound
    · rw [mem]; exact others x away
    · rw [flags, State.serving_eq_decide]
    · exact still (rests.imp_right fun out => Bool.eq_false_iff.2 fun works => out (s.working_iff.1 works))
  · intro s w flight length
    have run := exec_meterBlockWriteEnd flight
    obtain ⟨written, others⟩ := State.pokeParts_written meterBlockParts_cover length (by decide) s (w.base.toNat + 0x20200)
    obtain ⟨u, hu⟩ : ∃ u, u = s.pokeParts (w.base.toNat + 0x20200) w.image meterBlockParts := ⟨_, rfl⟩
    have poked : Touches [.hostMem] s u := hu ▸ s.pokeParts_touches ..
    have exchange : u.exchange = s.exchange := hu ▸ s.pokeParts_exchange ..
    obtain ⟨v, hv⟩ : ∃ v, v = u.endMeterWrite := ⟨_, rfl⟩
    rw [← hu, ← hv] at run
    rw [← hu] at written others
    have port : v.exchange = { s.exchange with meterPort := { s.exchange.meterPort with inFlight := none } } := by rw [hv, ← exchange]; rfl
    have mem : v.hostMem = u.hostMem := by rw [hv]; rfl
    have notices : v.notices = s.notices := by rw [hv, ← poked.notices]; rfl
    have noticed := v.meterNotice_touches
    have last := v.meterNotice.beginRecords_touches
    obtain ⟨same, -⟩ := noticed.same .ports (by decide)
    refine ⟨_, run, fun i bound => ?_, fun x away => ?_, ?_, ?_, exec_touches run⟩
    · rw [last.hostMem, noticed.hostMem, mem]; exact written i bound
    · rw [last.hostMem, noticed.hostMem, mem]; exact others x away
    · rw [last.notices, State.meterNotice_flags, notices, port]
    · have may : v.meterNotice.mayWriteRecords = true ↔ s.exchange.part ∈ [PartState.stopped, .running, .stopping] ∧ s.exchange.base ≠ 0 := by
        rw [State.mayWriteRecords_iff, noticed.part, noticed.base, port]
      rw [State.beginRecords_meter, State.beginRecords_meterImage, noticed.base, same, port]
      refine if_congr ⟨?_, ?_⟩ rfl rfl
      · rintro ⟨begins, held, -⟩
        exact ⟨held, may.1 begins⟩
      · rintro ⟨held, begins⟩
        exact ⟨may.2 begins, held, rfl⟩
  · intro s w flight length
    have run := exec_baySummaryWriteEnd flight
    obtain ⟨written, others⟩ := State.pokeParts_written baySummaryParts_cover length (by decide) s (w.base.toNat + 0x20040)
    obtain ⟨u, hu⟩ : ∃ u, u = s.pokeParts (w.base.toNat + 0x20040) w.image baySummaryParts := ⟨_, rfl⟩
    have poked : Touches [.hostMem] s u := hu ▸ s.pokeParts_touches ..
    have exchange : u.exchange = s.exchange := hu ▸ s.pokeParts_exchange ..
    obtain ⟨v, hv⟩ : ∃ v, v = u.endSummaryWrite := ⟨_, rfl⟩
    rw [← hu, ← hv] at run
    rw [← hu] at written others
    have port : v.exchange = { s.exchange with summaryPort := { s.exchange.summaryPort with inFlight := none } } := by rw [hv, ← exchange]; rfl
    have mem : v.hostMem = u.hostMem := by rw [hv]; rfl
    have last := v.beginRecords_touches
    have image : ∀ n, v.beginRecords.summaryImage n = v.summaryImage n := fun n => by
      simp only [State.summaryImage, State.bay, State.beginRecords_bays]
    have summary := v.beginRecords_summary
    refine ⟨_, run, fun i bound => ?_, fun x away => ?_, exec_touches run, ?_⟩
    · rw [last.hostMem, mem]; exact written i bound
    · rw [last.hostMem, mem]; exact others x away
    · have may : v.mayWriteRecords = true ↔ s.exchange.part ∈ [PartState.stopped, .running, .stopping] ∧ s.exchange.base ≠ 0 := by
        rw [State.mayWriteRecords_iff, port]
      rw [port] at summary
      by_cases begins : s.exchange.summaryPort.held = true ∧ s.exchange.part ∈ [.stopped, .running, .stopping] ∧ s.exchange.base ≠ 0
      · rw [if_pos ⟨may.2 begins.2, begins.1, rfl⟩] at summary
        rw [if_pos begins, image]
        exact summary
      · rw [if_neg fun ⟨starts, held, _⟩ => begins ⟨held, may.1 starts⟩] at summary
        rw [if_neg begins]
        exact summary

end Sys2Proof.Machine
end

section
namespace Sys2Proof.Machine

set_option Elab.async false

/-! ## What a tick leaves of the record ports (R121, R142, R155) -/

section
variable {s t u : State} {b g c n : Nat} {ps : List Part}

/-- No record write has begun or ended, and a bay that has left SPUN_DOWN had a Bay Summary rewrite requested. -/
structure State.keepsPorts (s u : State) : Prop where
  meter : u.exchange.meterPort = s.exchange.meterPort
  seq : u.exchange.summarySeq = s.exchange.summarySeq
  flight : u.exchange.summaryPort.inFlight = s.exchange.summaryPort.inFlight
  held : s.exchange.summaryPort.held = true → u.exchange.summaryPort.held = true
  asked : ∀ b, (s.bay b).state = .spunDown → (u.bay b).state ≠ .spunDown → u.exchange.summaryPort.held = true

theorem State.keepsPorts.trans (h : s.keepsPorts t) (k : t.keepsPorts u) : s.keepsPorts u := by
  refine ⟨k.meter.trans h.meter, k.seq.trans h.seq, k.flight.trans h.flight, k.held ∘ h.held, fun b down left => ?_⟩
  by_cases still : (t.bay b).state = .spunDown
  · exact k.asked b still left
  · exact k.held (h.asked b down still)

theorem State.keepsPorts_of_states (h : Touches ps s u) (states : ∀ b, (u.bay b).state = (s.bay b).state)
    (ports : Part.ports ∉ ps := by decide) : s.keepsPorts u := by
  obtain ⟨meter, summary, seq, -⟩ := h.same .ports ports
  exact ⟨meter, seq, by rw [summary], fun held => by rw [summary]; exact held, fun b down left => absurd ((states b).trans down) left⟩

theorem Touches.keepsPorts (h : Touches ps s u) (ports : Part.ports ∉ ps := by decide) (records : Part.records ∉ ps := by decide) :
    s.keepsPorts u :=
  State.keepsPorts_of_states h (fun b => by rw [h.bay b records]) ports

theorem State.requestSpinUp_keepsPorts (s : State) (b : Nat) : s.keepsPorts (s.requestSpinUp b) := by
  by_cases asks : s.asksSpinUp b
  · obtain ⟨⟨r, held, form, iff⟩, bay⟩ := State.requestSpinUp_asked asks
    have port : (s.requestSpinUp b).exchange.summaryPort.held = held := by rw [form]; rfl
    refine ⟨by rw [form]; rfl, by rw [form]; rfl, by rw [form]; rfl, fun before => port.trans (iff.2 (.inl before)), fun c down left => ?_⟩
    by_cases own : c = b
    · exact port.trans (iff.2 (.inr (own ▸ down)))
    · rw [bay, if_neg own] at left
      exact absurd down left
  · rw [State.requestSpinUp_none asks]
    exact (Touches.refl [] s).keepsPorts

theorem State.keepsPorts_foldl {f : State → Nat → State} (each : ∀ s b, State.keepsPorts s (f s b)) (bs : List Nat) (s : State) :
    s.keepsPorts (bs.foldl f s) := by
  induction bs generalizing s with
  | nil => exact (Touches.refl [] s).keepsPorts
  | cons b bs ih => exact (each s b).trans (ih _)

theorem State.putBay_keepsPorts (s : State) (b : Nat) (v : Bay) : s.keepsPorts (s.putBay b v) :=
  ⟨rfl, rfl, rfl, fun _ => rfl, fun _ _ _ => rfl⟩

theorem State.idleTick_keepsPorts (s : State) (b : Nat) : s.keepsPorts (s.idleTick b) := by
  unfold State.idleTick
  split
  · exact (State.putBay_keepsPorts ..).trans
      (State.keepsPorts_of_states (State.send_touches _ b (.control .standby)) fun c => State.send_bay_state _ b c _)
  · refine State.keepsPorts_of_states (State.setBay_touches ..) fun c => ?_
    rw [State.bay_setBay]
    split
    · next own => rw [own]
    · rfl

theorem State.completionTests_keepsPorts (s : State) (bs : List Nat) : s.keepsPorts (s.completionTests bs) :=
  State.keepsPorts_of_states (State.completionTests_touches ..) fun c => s.completionTests_bay_state bs c

end

/-! ## What the Loan Manager's tick leaves of the meters (R151 to R154) -/

section
variable {s t u : State} {b g c k n : Nat} {ps : List Part}

/-- Nothing of the meters changed but the staged blocks of groups. -/
structure State.keepsMeters (s u : State) : Prop where
  group : ∀ g, u.meter g = { s.meter g with staged := (u.meter g).staged }
  noGroup : u.meters.noGroup = s.meters.noGroup
  seq : u.meters.periodSeq = s.meters.periodSeq

theorem State.keepsMeters.trans (h : s.keepsMeters t) (k : t.keepsMeters u) : s.keepsMeters u :=
  ⟨fun g => by rw [k.group g, h.group g], k.noGroup.trans h.noGroup, k.seq.trans h.seq⟩

theorem Touches.keepsMeters (h : Touches ps s u) (meters : Part.meters ∉ ps := by decide) : s.keepsMeters u :=
  ⟨fun g => by rw [h.meter g meters], by rw [h.meters meters], by rw [h.meters meters]⟩

/-- A read that joins a RESIDENT slot is metered as staged blocks (R83, R153). -/
theorem State.joinSlot_keepsMeters (s : State) (k c : Nat) (x : Transfer) : s.keepsMeters (s.joinSlot k c x) := by
  unfold State.joinSlot
  dsimp only
  split
  · refine ⟨fun g => ?_, rfl, rfl⟩
    rw [State.meterStaged, State.meter_setMeter]
    split
    · next own => rw [own]; rfl
    · rfl
  · exact (State.setSlot_touches ..).keepsMeters

/-- What the Loan Manager's tick leaves of the record ports and of the meters. -/
def State.keepsRecords (s u : State) : Prop := s.keepsPorts u ∧ s.keepsMeters u

theorem State.keepsRecords.trans (h : s.keepsRecords t) (k : t.keepsRecords u) : s.keepsRecords u := ⟨h.1.trans k.1, h.2.trans k.2⟩

theorem Touches.keepsRecords (h : Touches ps s u) (ports : Part.ports ∉ ps := by decide) (records : Part.records ∉ ps := by decide)
    (meters : Part.meters ∉ ps := by decide) : s.keepsRecords u := ⟨h.keepsPorts ports records, h.keepsMeters meters⟩

theorem State.settleHead_keepsRecords (fuel : Nat) (s : State) (b g : Nat) : s.keepsRecords (s.settleHead fuel b g) := by
  induction fuel generalizing s with
  | zero => exact (Touches.refl [] s).keepsRecords
  | succ n ih =>
    cases own : (s.fifo b g).orders with
    | nil => rw [State.settleHead_empty _ own]; exact (Touches.refl [] s).keepsRecords
    | cons c rest =>
      cases made : s.transfer? c with
      | none => rw [State.settleHead_unmade _ own made]; exact (Touches.refl [] s).keepsRecords
      | some x =>
        cases joins : s.headJoins b x with
        | some k =>
          rw [State.settleHead_joins _ own made joins]
          have moved : s.keepsRecords (s.setOrders b g rest) := (State.setOrders_touches ..).keepsRecords
          have joined : (s.setOrders b g rest).keepsRecords ((s.setOrders b g rest).joinSlot k c x) :=
            ⟨(State.joinSlot_touches ..).keepsPorts, State.joinSlot_keepsMeters ..⟩
          exact (moved.trans joined).trans (ih _)
        | none =>
          rw [State.settleHead_stays _ own made joins, State.costHead]
          have costed : Touches [.fifos] s (s.setFifo b g { s.fifo b g with cost := some (costOf (s.arbiter b) x.first x.count) }) :=
            State.setFifo_touches ..
          exact (costed.trans (State.tagHead_touches ..)).keepsRecords

theorem State.becomeHead_keepsRecords (s : State) (b g : Nat) : s.keepsRecords (s.becomeHead b g) :=
  (State.settleHead_keepsRecords _ s b g).trans ⟨State.requestSpinUp_keepsPorts .., (State.requestSpinUp_touches ..).keepsMeters⟩

theorem State.removeQueued_keepsRecords (s : State) (b g : Nat) (p : Nat → Bool) : s.keepsRecords (s.removeQueued b g p) := by
  unfold State.removeQueued
  dsimp only
  split
  · exact (Touches.refl [] s).keepsRecords
  · split
    · exact (State.setFifo_touches ..).keepsRecords.trans (State.becomeHead_keepsRecords ..)
    · exact (State.setFifo_touches ..).keepsRecords

theorem State.lapseLoan_keepsRecords (s : State) (n : Nat) : s.keepsRecords (s.lapseLoan n) := by
  have removed := ((s.replyAll_touches ((s.fifo (s.loan n).bay (s.loan n).group).orders.filter (s.isTransferOf n)) .lapsed n).keepsRecords).trans
    (State.removeQueued_keepsRecords _ (s.loan n).bay (s.loan n).group (s.isTransferOf n))
  rw [State.lapseLoan]
  exact (removed.trans (State.setLoan_touches ..).keepsRecords).trans (State.pushLapse_touches ..).keepsRecords

theorem State.lapseAll_keepsRecords (s : State) (ns : List Nat) : s.keepsRecords (s.lapseAll ns) := by
  induction ns generalizing s with
  | nil => exact (Touches.refl [] s).keepsRecords
  | cons n ns ih => exact (s.lapseLoan_keepsRecords n).trans (ih _)

theorem State.loanTick_keepsRecords (s : State) : s.keepsRecords s.loanTick := by
  have lapsed : s.keepsRecords s.lapsesDone := by
    rw [State.lapsesDone_eq]
    exact s.termsCounted_touches.keepsRecords.trans (State.lapseAll_keepsRecords ..)
  have examined : s.keepsRecords (s.lapsesDone.examineAll s.tickBays) := lapsed.trans (State.examineAll_touches ..).keepsRecords
  refine examined.trans ⟨?_, s.loanTick_touches_examined.keepsMeters⟩
  rw [State.loanTick_eq]
  exact State.completionTests_keepsPorts ..

/-- Where no loan lapses, no read joins a slot at the tick. -/
theorem State.loanTick_meters (none : ∀ n, s.lapsesNext (s.loan n) = false) : s.loanTick.meters = s.meters := by
  have empty : s.expiriesDone.lapsing = [] := List.eq_nil_iff_forall_not_mem.2 fun n hn => by
    rw [s.mem_expiriesDone_lapsing, none] at hn; cases hn
  have lapsed : s.lapsesDone.meters = s.meters := by
    rw [State.lapsesDone_eq, empty]; exact s.termsCounted_touches.meters
  rw [s.loanTick_touches_examined.meters, (State.examineAll_touches ..).meters, lapsed]

end

/-! ## Bays that are down at a tick -/

section
variable {s : State} {b c : Nat} {v : Bay}

theorem Bay.asked_asked (v : Bay) : v.asked.asked = v.asked := by
  cases state : v.state with
  | spunDown => rw [Bay.asked_spunDown state]; rfl
  | spinningDown =>
    rw [Bay.asked_spinningDown state]
    exact Bay.asked_spinningDown state
  | empty | present | admitting | online | spinningUp | retiring | faulted =>
    have same : v.asked = v := Bay.asked_other (by rw [state]; decide) (by rw [state]; decide)
    rw [same, same]

theorem State.lapseAll_bay (s : State) (ns : List Nat) (c : Nat) :
    (s.lapseAll ns).bay c = s.bay c ∨ (s.lapseAll ns).bay c = (s.bay c).asked := by
  induction ns generalizing s with
  | nil => exact .inl rfl
  | cons n ns ih =>
    rcases ih (s.lapseLoan n) with later | later <;> rcases s.lapseLoan_bay n c with before | before
    · exact .inl (later.trans before)
    · exact .inr (later.trans before)
    · exact .inr (later.trans (congrArg Bay.asked before))
    · exact .inr (later.trans ((congrArg Bay.asked before).trans (s.bay c).asked_asked))

/-- A bay that is SPUN_DOWN or SPINNING_DOWN at a tick of the Loan Manager is left alone, or asked to spin up where a loan lapses. -/
theorem State.loanTick_bay (down : (s.bay b).state ∈ [BayState.spunDown, .spinningDown]) :
    s.loanTick.bay b = s.bay b ∨ s.loanTick.bay b = (s.bay b).asked := by
  have lapsed : s.lapsesDone.bay b = s.bay b ∨ s.lapsesDone.bay b = (s.bay b).asked := by
    rw [State.lapsesDone_eq, ← s.termsCounted_touches.bay b]
    exact State.lapseAll_bay ..
  have stays : (s.lapsesDone.bay b).state ≠ .retiring := by
    rcases lapsed with own | own <;> rw [own]
    · intro e; rw [e] at down; exact absurd down (by decide)
    · rcases List.mem_cons.1 down with e | rest
      · rw [Bay.asked_spunDown e]; exact nofun
      · rw [Bay.asked_spinningDown (List.mem_singleton.1 rest)]
        exact fun e => absurd ((List.mem_singleton.1 rest).symm.trans e) nofun
  have examined := (State.examineAll_touches s.lapsesDone s.tickBays).bay b
  rwa [State.loanTick_eq, State.completionTests_bay _ _ _ (by rw [examined]; exact stays), examined]

/-- A bay that is not ONLINE after the Loan Manager's tick has its idle ticks at 0 after its own (R130). -/
theorem State.idleTicks_offline (bound : b < 24) (off : (s.bay b).state ≠ .online) : s.idleTicks.bay b = { s.bay b with idleTicks := 0 } := by
  have stays : s.spinsDown b = false := by
    simp only [State.spinsDown, Bool.and_eq_false_iff, beq_eq_false_iff_ne]
    exact .inl (.inl (.inl (.inl off)))
  have idle : s.idleAfter b = 0 := if_neg fun h => off h.1
  rw [State.idleTicks_bay _ bound, State.idleTick_stays s stays, idle]

/-- What a request at the period end makes of a bay that was SPUN_DOWN at the tick. -/
theorem State.idleTicks_asked_spunDown (bound : b < 24) (down : (s.bay b).state = .spunDown) :
    (s.loanTick.idleTicks.bay b).asked = (s.bay b).startingUp := by
  rcases State.loanTick_bay (s := s) (b := b) (by rw [down]; decide) with own | own
  · rw [State.idleTicks_offline bound (by rw [own, down]; decide), own, Bay.asked_spunDown (by exact down)]
    rfl
  · rw [Bay.asked_spunDown down] at own
    rw [State.idleTicks_offline bound (by rw [own]; exact nofun), own]
    rfl

/-- What it makes of one that was SPINNING_DOWN. -/
theorem State.idleTicks_asked_spinningDown (bound : b < 24) (down : (s.bay b).state = .spinningDown) :
    (s.loanTick.idleTicks.bay b).asked = { s.bay b with spinUpPending := true, idleTicks := 0 } := by
  rcases State.loanTick_bay (s := s) (b := b) (by rw [down]; decide) with own | own
  · rw [State.idleTicks_offline bound (by rw [own, down]; decide), own, Bay.asked_spinningDown (by exact down)]
  · rw [Bay.asked_spinningDown down] at own
    rw [State.idleTicks_offline bound (by rw [own]; exact fun e => absurd (down.symm.trans e) nofun), own,
      Bay.asked_spinningDown (by exact down)]

end

/-! ## The end of a meter period (R56, R154, R155) -/

section
variable {s u : State} {b g : Nat}

theorem State.latchGroups_meter (s : State) (bound : g < 16) : s.latchGroups.meter g = (s.meter g).latch := by
  have own : ∀ (u : State) g h, ((u.setMeter g (u.meter g).latch).setGroup g (u.group g).periodEnd).meter h =
      if h = g then (u.meter g).latch else u.meter h := fun u g h => State.meter_setMeter ..
  have all := foldl_entry (get := State.meter) (g := GroupMeter.latch) own allGroups List.nodup_range s g
  rwa [if_pos (show g ∈ allGroups from List.mem_range.2 bound)] at all

theorem State.latchGroups_group (s : State) (bound : g < 16) : s.latchGroups.group g = (s.group g).periodEnd := by
  have own : ∀ (u : State) g h, ((u.setMeter g (u.meter g).latch).setGroup g (u.group g).periodEnd).group h =
      if h = g then (u.group g).periodEnd else u.group h := fun u g h => State.group_setGroup ..
  have all := foldl_entry (get := State.group) (g := Group.periodEnd) own allGroups List.nodup_range s g
  rwa [if_pos (show g ∈ allGroups from List.mem_range.2 bound)] at all

/-- The set of groups is latched before the counter of no group, the sequence and the stamp. -/
theorem State.latchGroups_rest (s : State) : s.latchGroups.meters.noGroup = s.meters.noGroup
    ∧ s.latchGroups.meters.periodSeq = s.meters.periodSeq ∧ s.latchGroups.clock = s.clock := by
  have each : ∀ (gs : List Nat) (u : State),
      (let v := gs.foldl (fun s g => (s.setMeter g (s.meter g).latch).setGroup g (s.group g).periodEnd) u
       v.meters.noGroup = u.meters.noGroup ∧ v.meters.periodSeq = u.meters.periodSeq ∧ v.clock = u.clock) := by
    intro gs
    induction gs with
    | nil => exact fun _ => ⟨rfl, rfl, rfl⟩
    | cons g gs ih => exact fun u => ih _
  exact each allGroups s

theorem State.latched_meter (s : State) (bound : g < 16) : s.latched.meter g = (s.meter g).latch := by
  have own := s.latchGroups_meter bound
  rw [State.latched]
  generalize s.latchGroups = v at own ⊢
  exact own

theorem State.latched_group (s : State) (bound : g < 16) : s.latched.group g = (s.group g).periodEnd := by
  have own := s.latchGroups_group bound
  rw [State.latched]
  generalize s.latchGroups = v at own ⊢
  exact own

theorem State.latched_rest (s : State) : s.latched.meters.noGroup = s.meters.noGroup.latch
    ∧ s.latched.meters.periodSeq = s.meters.periodSeq + 1 ∧ s.latched.meters.endStamp = s.clock.tickCount := by
  obtain ⟨noGroup, seq, clock⟩ := s.latchGroups_rest
  exact ⟨congrArg Counter.latch noGroup, congrArg (fun n => n + 1) seq, congrArg LoanClock.tickCount clock⟩

/-- The state in which the Meter Unit finds its counters at a period end. -/
def State.periodReset (s : State) : State := { s.loanTick.idleTicks with clock := { s.loanTick.idleTicks.clock with meterTickCount := 0 } }

theorem State.periodReset_touches (s : State) : Touches [.clock] s.loanTick.idleTicks s.periodReset := State.clock_touches ..

theorem State.periodReset_lent (s : State) : Touches [.clock, .ports, .records] s.loanTick s.periodReset :=
  s.periodReset_touches.after rfl (s.loanTick.idleTicks_touches.mono rfl)

theorem State.periodReset_clock (s : State) : s.periodReset.clock = { s.clock with meterTickCount := 0 } := by
  have same : s.loanTick.idleTicks.clock = s.clock := s.loanTick.idleTicks_touches.clock.trans s.loanTick_touches.clock
  rw [← same]; rfl

/-- A tick that ends the period, up to the two requests of the period end (R154). -/
def State.periodLatched (s : State) : State := s.periodReset.latched

theorem State.periodLatched_touches (s : State) : Touches [.groups, .meters, .clock, .ports, .records] s.loanTick s.periodLatched :=
  (State.latched_touches _).after rfl (s.periodReset_lent.mono rfl)

theorem State.periodLatched_bay (s : State) (b : Nat) : s.periodLatched.bay b = s.loanTick.idleTicks.bay b :=
  ((State.latched_touches _).bay b).trans (s.periodReset_touches.bay b)

theorem State.periodLatched_meter (s : State) (bound : g < 16) : s.periodLatched.meter g = (s.loanTick.meter g).latch := by
  rw [State.periodLatched, State.latched_meter _ bound, s.periodReset_lent.meter]

theorem State.periodLatched_group (s : State) (bound : g < 16) : s.periodLatched.group g = (s.group g).periodEnd := by
  rw [State.periodLatched, State.latched_group _ bound, s.periodReset_lent.group, s.loanTick_touches.group]

theorem State.periodLatched_rest (s : State) : s.periodLatched.meters.noGroup = s.meters.noGroup.latch
    ∧ s.periodLatched.meters.periodSeq = s.meters.periodSeq + 1 ∧ s.periodLatched.meters.endStamp = s.clock.tickCount := by
  obtain ⟨noGroup, seq, stamp⟩ := s.periodReset.latched_rest
  obtain ⟨-, kept⟩ := s.loanTick_keepsRecords
  rw [s.periodReset_lent.meters, kept.noGroup] at noGroup
  rw [s.periodReset_lent.meters, kept.seq] at seq
  rw [s.periodReset_clock] at stamp
  exact ⟨noGroup, seq, stamp⟩

theorem State.periodLatched_keepsPorts (s : State) : s.keepsPorts s.periodLatched := by
  obtain ⟨lent, -⟩ := s.loanTick_keepsRecords
  have idled : s.loanTick.keepsPorts s.loanTick.idleTicks := State.keepsPorts_foldl State.idleTick_keepsPorts allBays _
  have latched : Touches [.groups, .meters, .clock] s.loanTick.idleTicks s.periodLatched :=
    (State.latched_touches _).after rfl (s.periodReset_touches.mono rfl)
  exact (lent.trans idled).trans latched.keepsPorts

theorem State.takeTick_period (due : s.clock.meterTicks ≤ s.clock.meterTickCount + 1) :
    s.takeTick = s.periodLatched.requestSpinUps.requestMeter.beginRecords := by
  have clock : s.loanTick.idleTicks.clock = s.clock := s.loanTick.idleTicks_touches.clock.trans s.loanTick_touches.clock
  have ends : s.loanTick.idleTicks.periodEndsNext = true := by
    rw [State.periodEndsNext, clock]; exact decide_eq_true due
  rw [State.takeTick_eq, State.meterTick, if_pos ends, State.periodEnd_eq]; rfl

/-- What follows the latching changes neither meters nor groups. -/
theorem State.periodRequests_touches (u : State) : Touches [.ports, .records] u u.requestSpinUps.requestMeter.beginRecords :=
  (State.beginRecords_touches _).after rfl ((State.requestMeter_touches _).after rfl u.requestSpinUps_touches)

theorem State.requestSpinUps_keepsPorts (s : State) : s.keepsPorts s.requestSpinUps :=
  State.keepsPorts_foldl State.requestSpinUp_keepsPorts allBays s

/-- The Meter Block write of a period end is asked for, and begins where it can with the values then latched (R155). -/
theorem State.keepsPorts.meterAsked (h : s.keepsPorts u) (serving : u.serving = true) (base : u.exchange.base = s.exchange.base) :
    s.meterAsked u.requestMeter.beginRecords := by
  have port : u.requestMeter.exchange.meterPort = { s.exchange.meterPort with held := true } :=
    congrArg (fun p => { p with held := true }) h.meter
  have may : u.requestMeter.mayWriteRecords = true ↔ s.exchange.base ≠ 0 := by
    rw [State.mayWriteRecords, (State.requestMeter_touches u).serving, serving, (State.requestMeter_touches u).base, base, Bool.true_and,
      bne_iff_ne]
  rw [State.meterAsked, State.beginRecords_meter, State.beginRecords_meterImage, port, (State.requestMeter_touches u).base, base]
  refine if_congr ⟨?_, ?_⟩ rfl rfl
  · rintro ⟨begins, -, idle⟩
    exact ⟨idle, may.1 begins⟩
  · rintro ⟨idle, begins⟩
    exact ⟨may.2 begins, rfl, idle⟩

/-- A bay that has left SPUN_DOWN has a rewrite asked for. -/
theorem State.keepsPorts.summaryAsked (h : s.keepsPorts u) (base : u.exchange.base = s.exchange.base) (down : (s.bay b).state = .spunDown)
    (left : (u.bay b).state ≠ .spunDown) : s.summaryAsked u.requestMeter.beginRecords := by
  have port : u.exchange.summaryPort = { s.exchange.summaryPort with held := true } :=
    congrArg₂ RecordPort.mk (h.asked b down left) h.flight
  exact State.summaryAsked_of_request (u := u.requestMeter) port h.seq base

end

/-- Settles O46: the tick is taken up to the latching of the counters; the requests of the period end are added to it. -/
theorem meterPeriodsEnd : Obligations.MeterPeriodsEnd := by
  intro s serves due latched lent
  have serving := s.serving_iff.2 serves
  obtain ⟨v, hv⟩ : ∃ v, v = { s with clock := s.clock.produce } := ⟨_, rfl⟩
  have ticked : Touches [.clock] s v := hv ▸ s.clock_touches _
  have lends : lent = v.loanTick := by rw [hv]; rfl
  have due' : v.clock.meterTicks ≤ v.clock.meterTickCount + 1 := by rw [hv]; exact due
  obtain ⟨w, hw⟩ : ∃ w, w = v.periodLatched := ⟨_, rfl⟩
  obtain ⟨x, hx⟩ : ∃ x, x = w.requestSpinUps := ⟨_, rfl⟩
  have run : exec .meterPeriodEnd s = .next x.requestMeter.beginRecords := by
    have taken : s.tick = x.requestMeter.beginRecords := by
      rw [State.tick_serving serving, ← hv, State.takeTick_period due', hx, hw]
    show Host.Outcome.next (if s.serving && s.periodEndsNext then s.tick else s) = _
    rw [if_pos (by rw [serving, State.periodEndsNext]; exact decide_eq_true due), taken]
  have looked : Touches [.ports, .records] w x := hx ▸ w.requestSpinUps_touches
  have last : Touches [.ports, .records] w x.requestMeter.beginRecords := hx ▸ w.periodRequests_touches
  have counts : ∀ c : Counter, latched c c.latch := fun c => ⟨rfl, rfl, rfl⟩
  have meter : ∀ g, g < 16 → x.requestMeter.beginRecords.meter g = (v.loanTick.meter g).latch := fun g bound => by
    rw [last.meter, hw, State.periodLatched_meter _ bound]
  obtain ⟨-, kept⟩ := v.loanTick_keepsRecords
  have lentMeter : ∀ g, v.loanTick.meter g = { s.meter g with staged := (v.loanTick.meter g).staged } := fun g => by
    rw [kept.group g, ticked.meter]
  obtain ⟨noGroup, seq, stamp⟩ := v.periodLatched_rest
  have ports : s.keepsPorts x :=
    (ticked.keepsPorts.trans (hw ▸ v.periodLatched_keepsPorts)).trans (hx ▸ w.requestSpinUps_keepsPorts)
  have before : Touches [.answers, .lapseQueue, .ports, .loans, .fifos, .staging, .engine, .records, .meters, .notices, .groups, .clock] s x :=
    looked.after rfl (hw ▸ (v.periodLatched_touches.after rfl (v.loanTick_touches.after rfl (ticked.mono rfl))))
  refine ⟨_, run, ?_, fun g bound => ⟨?_, ?_, ?_, ?_, fun none => ?_, ?_, ?_⟩, ?_, fun g bound => ?_, ?_, ?_,
    ports.meterAsked (before.serving.trans serving) before.base, fun works b bound wants => ?_⟩
  · have clock := v.takeTick_clock
    rw [State.takeTick_period due', ← hw, ← hx, if_pos due'] at clock
    rw [clock]
  · rw [meter g bound, lentMeter g]; exact counts _
  · rw [meter g bound, lentMeter g]; exact counts _
  · rw [meter g bound, lentMeter g]; exact counts _
  · rw [meter g bound, lends]; exact counts _
  · have same : v.loanTick.meters = s.meters :=
      (State.loanTick_meters (s := v) (by rw [hv]; exact none)).trans ticked.meters
    have own : v.loanTick.meter g = s.meter g := by simp only [State.meter, same]
    rw [meter g bound, own]; exact counts _
  · rw [meter g bound, lentMeter g]; rfl
  · rw [meter g bound]; rfl
  · rw [last.meters, hw, noGroup, ticked.meters]; exact counts _
  · have touched : x.requestMeter.beginRecords.group g = w.group g := last.group g
    rw [touched, hw, State.periodLatched_group _ bound, ticked.group]; rfl
  · rw [last.meters, hw, seq, ticked.meters]
  · rw [last.meters, hw, stamp, hv]; rfl
  · have asks : w.asksSpinUp b := by
      have working : w.working = s.working := by
        rw [← looked.working, before.working]
      exact ⟨working.trans (s.working_iff.2 works), (last.wantsSpinUp b).1 wants⟩
    obtain ⟨-, bays⟩ := State.requestSpinUp_fold allBays w List.nodup_range
    have asked : x.bay b = (v.loanTick.idleTicks.bay b).asked := by
      rw [← State.periodLatched_bay, ← hw, hx]
      exact (bays b).1 ⟨List.mem_range.2 bound, asks⟩
    have own : x.requestMeter.beginRecords.bay b = (v.loanTick.idleTicks.bay b).asked := by
      rw [(State.beginRecords_touches _).bay, (State.requestMeter_touches _).bay, asked]
    have same : v.bay b = s.bay b := ticked.bay b
    refine ⟨fun down => ?_, fun down => ?_⟩
    · have up : (v.loanTick.idleTicks.bay b).asked = (s.bay b).startingUp := by
        rw [State.idleTicks_asked_spunDown bound (by rw [same]; exact down), same]
      have left : (x.bay b).state ≠ .spunDown := by
        rw [asked, up]; exact nofun
      exact ⟨own.trans up, ports.summaryAsked before.base down left⟩
    · rw [own, State.idleTicks_asked_spinningDown bound (by rw [same]; exact down), same]

end Sys2Proof.Machine
end

section
namespace Sys2Proof.Machine

/-! ## Power-on and the end of BRINGUP (R102, R144, R184) -/

section
variable {s : State} {b : Nat} {bad : BitVec 256}

/-- Entries that are all listed with one value. -/
theorem Table.get_constant {α : Type} (d v : α) (ns : List Nat) (n : Nat) :
    Table.get d (ns.map (fun k => (k, v))) n = if n ∈ ns then v else d := by
  induction ns with
  | nil => rfl
  | cons k ns ih =>
    by_cases own : k = n
    · rw [if_pos (List.mem_cons.2 (.inl own.symm))]
      exact if_pos own
    · simp only [List.mem_cons, Ne.symm own, false_or, ← ih]
      exact if_neg own

/-- The slots that the bring-up test found bad are BAD, every other is FREE (R102). -/
theorem testedSlots_slot (bad : BitVec 256) (k : Nat) :
    Table.get .free (testedSlots bad) k = if bad.getLsbD k then { Slot.free with state := .bad } else .free := by
  have listed : k ∈ (List.range Config.numSlots).filter bad.getLsbD ↔ bad.getLsbD k = true := by
    rw [List.mem_filter, List.mem_range, and_iff_right_iff_imp]
    exact BitVec.lt_of_getLsbD
  rw [testedSlots, Table.get_constant]
  exact if_congr listed rfl rfl

/-- The record of a bay whose presence line has been sampled (R144). -/
def Bay.sampled (v : Bay) (presence : Bool) : Bay := if presence then { v with state := .present } else v

/-- A sample of the presence line changes the record of its bay only, and no line. -/
theorem State.samplePresence_bay (s : State) (b c : Nat) :
    (s.samplePresence b).bay c = (if c = b then (s.bay b).sampled (s.lines b).presence else s.bay c)
      ∧ (s.samplePresence b).lines c = s.lines c := by
  refine ⟨?_, (s.samplePresence_touches b).lines c⟩
  unfold State.samplePresence Bay.sampled
  split
  · exact State.bay_putBay ..
  · split
    · next own => rw [own]
    · rfl

/-- The record and the lines of a bay: a sample of the presence line reads both. -/
def State.bayWithLines (s : State) (b : Nat) : Bay × Lines := (s.bay b, s.lines b)

theorem State.samplePresence_bayWithLines (s : State) (b c : Nat) : (s.samplePresence b).bayWithLines c =
    if c = b then ((s.bayWithLines b).1.sampled (s.bayWithLines b).2.presence, (s.bayWithLines b).2) else s.bayWithLines c := by
  obtain ⟨bay, lines⟩ := s.samplePresence_bay b c
  rw [State.bayWithLines, bay, lines]
  split
  · next own => rw [own]; rfl
  · rfl

/-- The presence lines of all bays are sampled. -/
theorem State.samplePresences_bay (s : State) (bound : b < 24) :
    (overBays s (fun s b => s.samplePresence b)).bay b = (s.bay b).sampled (s.lines b).presence := by
  have all := foldl_entry (g := fun e : Bay × Lines => (e.1.sampled e.2.presence, e.2)) State.samplePresence_bayWithLines allBays
    List.nodup_range s b
  rw [if_pos (show b ∈ allBays from List.mem_range.2 bound)] at all
  exact (Prod.mk.inj all).1

theorem State.samplePresence_keepsPorts (s : State) (b : Nat) : s.keepsPorts (s.samplePresence b) := by
  unfold State.samplePresence
  split
  · exact State.putBay_keepsPorts ..
  · exact (Touches.refl [] s).keepsPorts

/-- A bay whose presence line is high has a rewrite requested by its sample, and the samples behind it leave the request (R121, R142). -/
theorem State.samplePresences_rewriteHeld (s : State) (bound : b < 24) (high : (s.lines b).presence = true) :
    s.rewriteHeld (overBays s (fun s b => s.samplePresence b)) := by
  obtain ⟨before, after, bays⟩ := List.append_of_mem (show b ∈ allBays from List.mem_range.2 bound)
  have ports : ∀ (bs : List Nat) (u : State), u.keepsPorts (bs.foldl (fun s b => s.samplePresence b) u) :=
    State.keepsPorts_foldl State.samplePresence_keepsPorts
  obtain ⟨u, hu⟩ : ∃ u, u = before.foldl (fun s b => s.samplePresence b) s := ⟨_, rfl⟩
  have touched : Touches [.ports, .records] s u := hu ▸ Touches.foldl (fun u c => u.samplePresence_touches c) (Touches.refl ..)
  have asked : (u.samplePresence b).exchange.summaryPort.held = true := by
    rw [State.samplePresence, touched.lines, high]; rfl
  have all : overBays s (fun s b => s.samplePresence b) = after.foldl (fun s b => s.samplePresence b) (u.samplePresence b) := by
    rw [overBays, bays, List.foldl_append, List.foldl_cons, hu]
  have turn := u.samplePresence_keepsPorts b
  have rest := ports after (u.samplePresence b)
  have kept := ((hu ▸ ports before s : s.keepsPorts u).trans turn).trans rest
  have base := (Touches.foldl (fun u c => u.samplePresence_touches c) (touched.trans (u.samplePresence_touches b)) (l := after)).base
  rw [all]
  exact ⟨congrArg₂ RecordPort.mk (rest.held asked) kept.flight, kept.seq, base⟩

/-- The state at the end of BRINGUP with the staging test's result in it. -/
def State.slotsTested (s : State) (bad : BitVec 256) : State := { s with staging := { s.staging with slots := testedSlots bad } }

theorem State.slotsTested_touches (s : State) (bad : BitVec 256) : Touches [.staging] s (s.slotsTested bad) := by
  refine ⟨fun p out => ?_⟩
  cases p
  case staging => exact absurd (by decide) out
  all_goals and_intros <;> rfl

theorem exec_bringupEnd (part : s.exchange.part = .bringup) : exec (.bringupEnd bad) s =
    .next ((overBays (s.slotsTested bad) (fun s b => s.samplePresence b)).setPart .stopped).beginRecords :=
  congrArg Host.Outcome.next (if_pos part)

end

/-- Settles O10: the samples of the presence lines, one bay after another, stand between the staging test's result and STOPPED. -/
theorem powerOnAndBringup : Obligations.PowerOnAndBringup := by
  refine ⟨fun s => ⟨_, rfl, rfl, rfl, rfl, rfl, rfl, rfl, rfl, rfl, rfl, rfl, rfl, rfl⟩, fun s bad part => ?_⟩
  obtain ⟨u, hu⟩ : ∃ u, u = overBays (s.slotsTested bad) (fun s b => s.samplePresence b) := ⟨_, rfl⟩
  have tested := s.slotsTested_touches bad
  have sampled : Touches [.ports, .records] (s.slotsTested bad) u :=
    hu ▸ overBays_touches (fun u b => u.samplePresence_touches b) (Touches.refl ..)
  have ended : Touches [.part, .ports] u (u.setPart .stopped).beginRecords :=
    (State.beginRecords_touches _).after rfl ((State.setPart_touches ..).mono rfl)
  have run : exec (.bringupEnd bad) s = .next (u.setPart .stopped).beginRecords := hu ▸ exec_bringupEnd part
  refine ⟨_, run, State.beginRecords_part _, fun k => ?_, fun b bound => ?_, fun b bound high => ?_, exec_touches run⟩
  · rw [ended.slot, sampled.slot]
    exact testedSlots_slot bad k
  · rw [ended.bay, hu, State.samplePresences_bay _ bound, tested.bay, tested.lines]
    rfl
  · have held : (s.slotsTested bad).rewriteHeld u := hu ▸ State.samplePresences_rewriteHeld _ bound (by rw [tested.lines, high])
    obtain ⟨port, seq, base⟩ := held
    exact State.summaryAsked_of_request (u := u.setPart .stopped) port seq base

end Sys2Proof.Machine
end

section
namespace Sys2Proof.Machine

/-! ## Slots offered in one event, and SLOT_FLUSH (R89, R99) -/

section
variable {s : State} {k : Nat} {ks before after : List Nat} {cell : Fin 1024} {o : HeldOrder}

/-- A bay leaves the Slot Wait list where the slot offered is available (R89). -/
theorem State.offerSlot_queue (serving : s.serving = true) (k : Nat) :
    (s.offerSlot k).staging.slotWait = s.staging.slotWait.drop (if (s.slot k).available then 1 else 0) := by
  cases list : s.staging.slotWait with
  | nil => rw [State.offerSlot_unwanted list, list, List.drop_nil]
  | cons b rest =>
    split
    · next ready => exact (State.offerSlot_given serving ready list).2.1
    · next ready => rw [State.offerSlot_kept (.inr (by simpa using ready)), list]; rfl

/-- A FREE slot is given to the bay that waits first, if one waits (R89). -/
theorem State.offerSlot_slot_given (serving : s.serving = true) (free : s.slot k = .free) :
    (s.offerSlot k).slot k = { Slot.free with reservedFor := s.staging.slotWait.head? } := by
  cases list : s.staging.slotWait with
  | nil => rw [State.offerSlot_unwanted list, free]; rfl
  | cons b rest => exact (State.offerSlot_given serving (by rw [free]; rfl) list).1

/-- As many bays leave the Slot Wait list as slots of an event are available (R89). -/
theorem State.offerSlots_queue (serving : s.serving = true) (once : ks.Nodup) :
    (s.offerSlots ks).staging.slotWait = s.staging.slotWait.drop (ks.countP (fun j => (s.slot j).available)) := by
  induction ks generalizing s with
  | nil => rfl
  | cons k ks ih =>
    obtain ⟨fresh, once⟩ := List.nodup_cons.1 once
    have same : ks.countP (fun j => ((s.offerSlot k).slot j).available) = ks.countP (fun j => (s.slot j).available) :=
      List.countP_congr fun j mem => by rw [State.offerSlot_slot_other _ (ne_of_mem_of_not_mem mem fresh)]
    have rest := ih (s := s.offerSlot k) ((State.offerSlot_touches ..).serving.trans serving) once
    rw [same, State.offerSlot_queue serving, List.drop_drop] at rest
    rw [List.countP_cons, Nat.add_comm]
    exact rest

/-- A FREE slot goes to the bay that stands in the Slot Wait list as far behind as available slots come before it (R89). -/
theorem State.offerSlots_slot_given (serving : s.serving = true) (once : (before ++ k :: after).Nodup) (free : s.slot k = .free) :
    (s.offerSlots (before ++ k :: after)).slot k =
      { Slot.free with reservedFor := s.staging.slotWait[before.countP (fun j => (s.slot j).available)]? } := by
  obtain ⟨first, tail, apart⟩ := List.nodup_append.1 once
  have ahead : k ∉ before := fun mem => apart k mem k List.mem_cons_self rfl
  have split : s.offerSlots (before ++ k :: after) = ((s.offerSlots before).offerSlot k).offerSlots after := by
    simp only [State.offerSlots, List.foldl_append, List.foldl_cons]
  rw [split, State.offerSlots_slot_other _ (List.nodup_cons.1 tail).1, State.offerSlot_slot_given, State.offerSlots_queue serving first,
    List.head?_drop]
  · rw [(State.offerSlots_touches ..).serving, serving]
  · rw [State.offerSlots_slot_other _ ahead, free]

/-- What is left of a discarded slot can be offered where nothing is delivered from it. -/
theorem Slot.dropped_available (v : Slot) : v.dropped.available = (v.deliveries == 0) := by
  by_cases idle : v.deliveries = 0
  · simp [Slot.dropped, Slot.available, Slot.free, idle]
  · rw [Slot.dropped, if_neg idle, beq_eq_false_iff_ne.2 idle]
    rfl

/-- RESIDENT slots that are discarded together, before they are offered. -/
def State.dropResidents (s : State) (ks : List Nat) : State := ks.foldl (fun s k => s.dropResident k) s

theorem State.discardResident_eq (s : State) (ks : List Nat) : s.discardResident ks = (s.dropResidents ks).offerSlots ks := rfl

theorem State.dropResidents_touches (s : State) (ks : List Nat) : Touches [.staging] s (s.dropResidents ks) :=
  Touches.foldl (fun u k => u.dropResident_touches k) (Touches.refl ..)

theorem State.dropResidents_slotWait (s : State) (ks : List Nat) : (s.dropResidents ks).staging.slotWait = s.staging.slotWait := by
  unfold State.dropResidents
  induction ks generalizing s with
  | nil => rfl
  | cons k ks ih => exact (ih _).trans (s.dropResident_slotWait k)

theorem State.dropResidents_available (s : State) (within : before ⊆ ks) :
    before.countP (fun j => ((s.dropResidents ks).slot j).available) = before.countP (fun j => (s.slot j).deliveries == 0) :=
  List.countP_congr fun j mem => by rw [State.dropResidents, State.dropResidents_slot, if_pos (within mem), Slot.dropped_available]

/-- As many bays leave the Slot Wait list as discarded slots become FREE (R89). -/
theorem State.discardResident_queue (serving : s.serving = true) (once : ks.Nodup) :
    (s.discardResident ks).staging.slotWait = s.staging.slotWait.drop (ks.countP (fun j => (s.slot j).deliveries == 0)) := by
  rw [State.discardResident_eq, State.offerSlots_queue ((s.dropResidents_touches ks).serving.trans serving) once,
    State.dropResidents_slotWait, State.dropResidents_available _ (List.Subset.refl ks)]

/-- A discarded slot that becomes FREE is given to its bay of the Slot Wait list (R89). -/
theorem State.discardResident_slot_given (serving : s.serving = true) (once : (before ++ k :: after).Nodup)
    (idle : (s.slot k).deliveries = 0) : (s.discardResident (before ++ k :: after)).slot k =
      { Slot.free with reservedFor := s.staging.slotWait[before.countP (fun j => (s.slot j).deliveries == 0)]? } := by
  have free : (s.dropResidents (before ++ k :: after)).slot k = .free := by
    rw [State.dropResidents, State.dropResidents_slot, if_pos (by simp), Slot.dropped, if_pos idle]
  rw [State.discardResident_eq, State.offerSlots_slot_given ((s.dropResidents_touches _).serving.trans serving) once free,
    State.dropResidents_slotWait, State.dropResidents_available _ (List.subset_append_left ..)]

theorem State.slotsWhere_sorted (ordered : Table.ordered s.staging.slots) (p : Slot → Bool) : (s.slotsWhere p).Pairwise (· < ·) :=
  ordered.filter _

/-- The slots that satisfy p and q, counted over the table or over the numbers of those that satisfy p. -/
theorem State.slotsWhere_countP (ordered : Table.ordered s.staging.slots) (p q : Slot → Bool) :
    (s.slotsWhere p).countP (fun j => q (s.slot j)) = s.staging.slots.countP (fun e => p e.2 && q e.2) := by
  rw [← Table.keys_filter_length (d := Slot.free) ordered fun v => p v && q v, ← List.countP_eq_length_filter, State.slotsWhere,
    List.countP_filter]
  exact List.countP_congr fun j _ => by rw [Bool.and_comm]; rfl

/-- Of the slots that satisfy p, those before slot k that satisfy q too are all those below it. -/
theorem State.slotsWhere_countP_before {p : Slot → Bool} (ordered : Table.ordered s.staging.slots) (free : p .free = false)
    (all : s.slotsWhere p = before ++ k :: after) (q : Slot → Bool) :
    before.countP (fun j => q (s.slot j)) = (List.range k).countP (fun j => p (s.slot j) && q (s.slot j)) := by
  have sorted := State.slotsWhere_sorted ordered p
  rw [all] at sorted
  obtain ⟨first, tail, less⟩ := List.pairwise_append.1 sorted
  have below : ∀ j, j ∈ before ↔ j < k ∧ p (s.slot j) = true := fun j => by
    rw [← State.mem_slotsWhere free, all, List.mem_append, List.mem_cons]
    refine ⟨fun mem => ⟨less j mem k List.mem_cons_self, .inl mem⟩, fun ⟨lt, mem⟩ => ?_⟩
    rcases mem with mem | rfl | mem
    · exact mem
    · exact absurd lt (Nat.lt_irrefl j)
    · exact absurd lt (Nat.lt_asymm ((List.pairwise_cons.1 tail).1 j mem))
  have same : (before.filter (fun j => q (s.slot j))).Perm ((List.range k).filter (fun j => p (s.slot j) && q (s.slot j))) := by
    refine (List.perm_ext_iff_of_nodup ((first.imp Nat.ne_of_lt).filter _) (List.nodup_range.filter _)).2 fun j => ?_
    simp only [List.mem_filter, below, List.mem_range, Bool.and_eq_true, and_assoc]
  rw [List.countP_eq_length_filter, List.countP_eq_length_filter, same.length_eq]

/-- The slots that a SLOT_FLUSH changes, as a property of the slot. -/
theorem State.mem_flushed {b first count : Nat} :
    k ∈ s.flushed b first count ↔ (s.slot k).state = .resident ∧ (s.slot k).overlapsOn b first count = true := by
  rw [State.flushed, State.mem_slotsWhere (by rfl), Bool.and_eq_true, beq_iff_eq]

theorem exec_slotFlush_accepted (handed : s.handed .slotFlush cell = some o) (node : Copy.node o.copy = 0) (bay : Copy.bay o.copy < 24)
    (blocks : Copy.count o.copy ≠ 0) (fits : Copy.first o.copy + Copy.count o.copy ≤ 4294967296) : exec (.slotFlush cell) s =
      .next ((s.validated cell).flush cell (Copy.bay o.copy) (Copy.first o.copy) (Copy.count o.copy)).beginRecords := by
  rw [exec_slotFlush, State.handling_of_handed handed,
    State.policy_accepted node (by simp [firstFailure, Config.numBays, bay, blocks, fits])]

theorem State.flushed_once (ordered : Table.ordered s.staging.slots) (b first count : Nat) : (s.flushed b first count).Nodup :=
  (State.slotsWhere_sorted ordered _).imp Nat.ne_of_lt

theorem State.flushed_length (ordered : Table.ordered s.staging.slots) (b first count : Nat) : (s.flushed b first count).length =
    s.staging.slots.countP (fun e => e.2.state == .resident && e.2.overlapsOn b first count) :=
  Table.keys_filter_length (d := Slot.free) ordered fun v => v.state == .resident && v.overlapsOn b first count

/-- As many bays leave the Slot Wait list as a SLOT_FLUSH makes slots FREE (R89, R99). -/
theorem State.flushed_queue (serving : s.serving = true) (ordered : Table.ordered s.staging.slots) (b first count : Nat) :
    (s.discardResident (s.flushed b first count)).staging.slotWait = s.staging.slotWait.drop (s.staging.slots.countP
      (fun e => e.2.state == .resident && e.2.overlapsOn b first count && e.2.deliveries == 0)) := by
  rw [State.discardResident_queue serving (State.flushed_once ordered ..)]
  exact congrArg (fun n => s.staging.slotWait.drop n) (State.slotsWhere_countP ordered _ fun v => v.deliveries == 0)

/-- A slot that a SLOT_FLUSH makes FREE is given to its bay of the Slot Wait list (R89, R99). -/
theorem State.flushed_slot_given {b first count : Nat} (serving : s.serving = true) (ordered : Table.ordered s.staging.slots)
    (mem : k ∈ s.flushed b first count) (idle : (s.slot k).deliveries = 0) :
    (s.discardResident (s.flushed b first count)).slot k = { Slot.free with
      reservedFor := s.staging.slotWait[(List.range k).countP (fun j =>
        (s.slot j).state == .resident && (s.slot j).overlapsOn b first count && (s.slot j).deliveries == 0)]? } := by
  obtain ⟨before, after, all⟩ := List.append_of_mem mem
  have once : (before ++ k :: after).Nodup := all ▸ State.flushed_once ordered ..
  rw [← State.slotsWhere_countP_before ordered (by rfl) all fun v => v.deliveries == 0, all]
  exact State.discardResident_slot_given serving once idle

theorem State.flush_slot (s : State) (cell b first count k : Nat) :
    (s.flush cell b first count).beginRecords.slot k = (s.discardResident (s.flushed b first count)).slot k := by
  rw [(State.beginRecords_touches _).slot, State.flush, (State.reply_touches ..).slot]

theorem State.flush_slotWait (s : State) (cell b first count : Nat) : (s.flush cell b first count).beginRecords.staging.slotWait =
    (s.discardResident (s.flushed b first count)).staging.slotWait := by
  rw [(State.beginRecords_touches _).staging, State.flush, (State.reply_touches ..).staging]

/-- A SLOT_FLUSH answers OK with the number of slots that it changes (R99). -/
theorem State.flush_answered (s : State) (cell b first count : Nat) :
    s.answered (s.flush cell b first count) [plain cell .ok (s.flushed b first count).length] :=
  (State.discardResident_touches ..).answered_nil.trans (State.reply_answered ..) (State.discardResident_touches ..).serving

theorem State.serving_of_working (working : s.working = true) : s.serving = true :=
  s.serving_iff.2 (List.mem_cons_of_mem _ (s.working_iff.1 working))

end

/-- Settles O41: the slots of the range are discarded together and offered by rising number. -/
theorem slotFlushDropsResidentSlots : Obligations.SlotFlushDropsResidentSlots := by
  rintro s cell o c handed rfl node bay blocks fits
  have before := s.validated_touches cell
  obtain ⟨u, hu⟩ : ∃ u, u = s.validated cell := ⟨_, rfl⟩
  rw [← hu] at before
  have serving : u.serving = true := before.serving.trans (State.serving_of_working (State.working_of_handed handed))
  have slot : u.slot = s.slot := funext fun k => before.slot k
  have run := exec_slotFlush_accepted handed node bay blocks fits
  rw [← hu] at run
  refine ⟨_, run, fun k resident overlap => ?_, fun k out => ?_, ?_, ⟨_, hu ▸ (State.flush_answered ..).handling, fun ordered => ?_⟩,
    hu ▸ Touches.handling ((State.flush_touches ..).mono rfl)⟩
  · rw [← slot] at resident overlap ⊢
    rw [State.flush_slot]
    have mem := State.mem_flushed.2 ⟨resident, overlap⟩
    exact ⟨State.discardResident_slot_free mem, State.discardResident_slot_stale mem⟩
  · rw [← slot] at out ⊢
    rw [State.flush_slot]
    exact State.discardResident_slot_other _ fun mem => out (State.mem_flushed.1 mem)
  · rintro freed ⟨-, -, -, -, -, ordered, -⟩
    rw [← before.staging] at ordered ⊢
    rw [← slot]
    refine ⟨fun k free => ?_, ?_⟩
    · obtain ⟨ranged, idle⟩ : ((u.slot k).state = .resident ∧ _) ∧ (u.slot k).deliveries = 0 := by simpa [freed] using free
      rw [State.flush_slot]
      exact State.flushed_slot_given serving ordered (State.mem_flushed.2 ranged) idle
    · rw [State.flush_slotWait]
      exact State.flushed_queue serving ordered ..
  · obtain ⟨-, -, -, -, -, ordered, -⟩ := ordered
    rw [← before.staging] at ordered ⊢
    exact State.flushed_length ordered ..

end Sys2Proof.Machine
end

section
namespace Sys2Proof.Machine

set_option Elab.async false

/-! ## What entry to RESTARTING stops (R143, R175, R182, R187) -/

section
variable {s : State} {b : Nat}

/-- The record of a bay that sends no more but the STANDBY of a spin-down already begun (R143). -/
def Bay.stopped (v : Bay) : Bay := { v with sendList := v.sendList.filter v.keepsSending }

theorem State.stopSends_bay (s : State) (b c : Nat) : (s.stopSends b).bay c = if c = b then (s.bay b).stopped else s.bay c :=
  ((State.releaseEnded_touches ..).bay c).trans (State.bay_setBay ..)

theorem State.quiesce_bay (s : State) (bound : b < 24) : s.quiesce.bay b = (s.bay b).stopped :=
  (foldl_entry State.stopSends_bay allBays List.nodup_range s.stopSweep b).trans (if_pos (List.mem_range.2 bound))

theorem State.quiesce_touches_stopped (s : State) : Touches [.arbiters, .records] s.stopSweep s.quiesce :=
  Touches.foldl (fun u b => u.stopSends_touches b) (Touches.refl ..)

/-- The part is RESTARTING, and has stopped nothing yet. -/
def State.restarting (s : State) (cause : ResetCause) : State :=
  { s with exchange := { s.exchange with part := .restarting, resetCause := cause, errorInRestart := false } }

theorem State.requestRestart_eq (on : s.exchange.part ≠ .bringup) (fresh : s.exchange.part ≠ .restarting) (cause : ResetCause) :
    s.requestRestart cause = (s.restarting cause).quiesce := by
  unfold State.requestRestart
  split
  · next part => exact absurd part on
  · next part => exact absurd part fresh
  all_goals rfl

/-- RUN starts and stops a part in service, and takes no part out of service or into it (R184, R185). -/
theorem State.actOnRun_part (s : State) :
    s.actOnRun.exchange.part = s.exchange.part ∨ s.actOnRun.exchange.part ∈ [PartState.stopped, .running, .stopping] := by
  have running : ∀ u : State, u.enterRunning.exchange.part = .running := fun u => by
    unfold State.enterRunning State.startSweepTimer
    split <;> rfl
  unfold State.actOnRun
  split
  · unfold State.tryStart
    split
    · exact .inr (by rw [running]; decide)
    · exact .inl rfl
  · exact .inr (by rw [running]; decide)
  · unfold State.tryStop
    split
    · exact .inr (List.mem_cons_self ..)
    · exact .inr (List.mem_of_elem_eq_true rfl)
  · exact .inl rfl

theorem State.actOnRun_postFifo (s : State) : s.actOnRun.exchange.postFifo = s.exchange.postFifo := by
  have running : ∀ u : State, u.enterRunning.exchange.postFifo = u.exchange.postFifo := fun u => by
    unfold State.enterRunning State.startSweepTimer
    split <;> rfl
  unfold State.actOnRun
  split
  · unfold State.tryStart
    split
    · exact running s
    · rfl
  · exact running s
  · unfold State.tryStop
    split <;> rfl
  · rfl

/-- The fields of CONTROL before RUN acts on the part state (R182). -/
def State.controlStored (s : State) (c : Control) : State :=
  (({ s with exchange := { s.exchange with control := c } }.changeAnswerMode s.exchange.control.answerMode).changeSweepMs
    s.exchange.control.sweepMs).changeIntake s.exchange.control.intake

theorem State.storeControl_eq (s : State) (c : Control) : s.storeControl c = (s.controlStored c).actOnRun := rfl

theorem State.controlStored_part (s : State) (c : Control) : (s.controlStored c).exchange.part = s.exchange.part := by
  rw [State.controlStored, (State.changeIntake_touches ..).part, (State.changeSweepMs_touches ..).part, (State.changeAnswerMode_touches ..).part]

theorem State.controlStored_postFifo (s : State) (c : Control) : (s.controlStored c).exchange.postFifo = s.exchange.postFifo := by
  have sweep : ∀ (u : State) old, (u.changeSweepMs old).exchange.postFifo = u.exchange.postFifo := fun u old => by
    unfold State.changeSweepMs
    split <;> rfl
  have intake : ∀ (u : State) old, (u.changeIntake old).exchange.postFifo = u.exchange.postFifo := fun u old => by
    unfold State.changeIntake
    dsimp only
    split
    · rfl
    · split
      · rfl
      · split <;> rfl
  rw [State.controlStored, intake, sweep, ((State.changeAnswerMode_touches ..).same .intake (by decide)).1]

/-- A write of CONTROL leaves a part that may restart one that may. -/
theorem State.storeControl_part (on : s.exchange.part ≠ .bringup) (fresh : s.exchange.part ≠ .restarting) (c : Control) :
    (s.storeControl c).exchange.part ≠ .bringup ∧ (s.storeControl c).exchange.part ≠ .restarting := by
  rw [State.storeControl_eq]
  rcases (s.controlStored c).actOnRun_part with same | serves
  · rw [same, State.controlStored_part]
    exact ⟨on, fresh⟩
  · exact ⟨ne_of_mem_of_not_mem serves (by decide), ne_of_mem_of_not_mem serves (by decide)⟩

theorem State.storeControl_postFifo (s : State) (c : Control) : (s.storeControl c).exchange.postFifo = s.exchange.postFifo := by
  rw [State.storeControl_eq, State.actOnRun_postFifo, State.controlStored_postFifo]

theorem exec_restart {w : Word} (up : s.link.up = true) (on : s.exchange.part ≠ .bringup) (fresh : s.exchange.part ≠ .restarting)
    (bit : w.getLsbD 31 = true) :
    exec (.restart w) s = .next (((s.storeControl (.ofWord w)).restarting .restartWrite).quiesce).beginRecords := by
  obtain ⟨on', fresh'⟩ := State.storeControl_part on fresh (.ofWord w)
  have writable : s.writable = true := by rw [State.writable, up, bne_iff_ne.2 on]; rfl
  show Host.Outcome.next (s.writeControl w) = _
  unfold State.writeControl
  rw [if_pos writable]
  dsimp only
  rw [if_pos bit, State.requestRestart_eq on' fresh']

end

/-- Settles O16: CONTROL is stored, the part is RESTARTING, and it stops its sweep and what its bays were to send. -/
theorem restartWriteEntersRestarting : Obligations.RestartWriteEntersRestarting := by
  intro s w up on fresh bit
  obtain ⟨u, hu⟩ : ∃ u, u = s.storeControl (.ofWord w) := ⟨_, rfl⟩
  have stored : Touches [.part, .control, .intake, .notices] s u := hu ▸ State.storeControl_touches ..
  have stopped := (u.restarting .restartWrite).quiesce_touches_stopped
  have last := State.beginRecords_touches (u.restarting .restartWrite).quiesce
  have all : Touches [.arbiters, .records, .ports] (u.restarting .restartWrite).stopSweep (u.restarting .restartWrite).quiesce.beginRecords :=
    last.after rfl (stopped.mono rfl)
  obtain ⟨part, cause, -, -⟩ := all.same .part (by decide)
  obtain ⟨fifo, -, timer, timerOn, sweep, -⟩ := all.same .intake (by decide)
  refine ⟨_, exec_restart up on fresh bit, ?_⟩
  rw [← hu]
  refine ⟨part, cause, congrArg Sweep.active sweep, timer, timerOn, fun b bound c mem => ?_, all.held.trans stored.held,
    fifo.trans (hu ▸ State.storeControl_postFifo ..)⟩
  rw [last.bay b, State.quiesce_bay _ bound, show (u.restarting .restartWrite).bay b = s.bay b from stored.bay b] at mem
  have kept := (List.mem_filter.1 mem).2
  rw [Bay.keepsSending, Bool.and_eq_true, beq_iff_eq, beq_iff_eq] at kept
  exact kept

end Sys2Proof.Machine
end

section
namespace Sys2Proof.Machine

set_option Elab.async false

/-! ## Changes of bay records that ask for a Bay Summary rewrite (R121, R142) -/

section
variable {α : Type} {f : Bay → α} {s t u : State}

/-- No rewrite has begun on the way from s to u, and one was requested where f of a bay record changed. -/
structure State.asksOf (f : Bay → α) (s u : State) : Prop where
  seq : u.exchange.summarySeq = s.exchange.summarySeq
  flight : u.exchange.summaryPort.inFlight = s.exchange.summaryPort.inFlight
  base : u.exchange.base = s.exchange.base
  held : s.exchange.summaryPort.held = true → u.exchange.summaryPort.held = true
  asked : ∀ b, f (u.bay b) ≠ f (s.bay b) → u.exchange.summaryPort.held = true

theorem State.asksOf.refl (f : Bay → α) (s : State) : s.asksOf f s := ⟨rfl, rfl, rfl, id, fun _ ne => absurd rfl ne⟩

theorem State.asksOf.trans (h : s.asksOf f t) (k : t.asksOf f u) : s.asksOf f u := by
  refine ⟨k.seq.trans h.seq, k.flight.trans h.flight, k.base.trans h.base, k.held ∘ h.held, fun b changed => ?_⟩
  by_cases before : f (t.bay b) = f (s.bay b)
  · exact k.asked b fun same => changed (same.trans before)
  · exact k.held (h.asked b before)

theorem State.asksOf_foldl {β : Type} {step : State → β → State} (each : ∀ s b, State.asksOf f s (step s b)) (bs : List β) (s : State) :
    s.asksOf f (bs.foldl step s) := by
  induction bs generalizing s with
  | nil => exact .refl f s
  | cons b bs ih => exact (each s b).trans (ih _)

theorem State.putBay_asksOf (f : Bay → α) (s : State) (b : Nat) (v : Bay) : s.asksOf f (s.putBay b v) :=
  ⟨rfl, rfl, rfl, fun _ => rfl, fun _ _ => rfl⟩

theorem State.asksOf.rewriteHeld (h : s.asksOf f u) {b : Nat} (changed : f (u.bay b) ≠ f (s.bay b)) : s.rewriteHeld u := by
  refine ⟨?_, h.seq, h.base⟩
  show u.exchange.summaryPort = ⟨true, s.exchange.summaryPort.inFlight⟩
  rw [← h.flight, ← h.asked b changed]

theorem State.rewriteHeld.since {ps : List Part} (h : t.rewriteHeld u) (before : Touches ps s t) (ports : Part.ports ∉ ps := by decide)
    (base : Part.base ∉ ps := by decide) : s.rewriteHeld u := by
  obtain ⟨port, seq, own⟩ := h
  obtain ⟨-, port', seq', -⟩ := before.same .ports ports
  exact ⟨by rw [port, port'], seq.trans seq', own.trans (before.base base)⟩

end

/-! ## BAY_WATCH (R140) -/

section
variable {s : State} {cell : Fin 1024} {o : HeldOrder} {c : Copy}

/-- The capture fields of a bay in the mask of a BAY_WATCH. -/
def Copy.watched (c : Copy) (v : Bay) : Bay := v.watch (c.watchEnable.getD false) (c.edgeSelect.getD .both) c.noticeOn

/-- Every bay of the mask of a BAY_WATCH is armed or disarmed. -/
def State.watched (s : State) (c : Copy) : State := (baysIn c.bayMask).foldl (fun s b => s.watchBay c b) s

theorem mem_baysIn {mask b : Nat} : b ∈ baysIn mask ↔ b < 24 ∧ mask.testBit b = true := by
  rw [baysIn, List.mem_filter, allBays, List.mem_range]

theorem State.watchBay_eq (s : State) (c : Copy) (b : Nat) :
    s.watchBay c b = if c.watched (s.bay b) = s.bay b then s else s.putBay b (c.watched (s.bay b)) := rfl

theorem State.watchBay_bay (c : Copy) (s : State) (b d : Nat) :
    (s.watchBay c b).bay d = if d = b then c.watched (s.bay b) else s.bay d := by
  rw [State.watchBay_eq]
  by_cases same : c.watched (s.bay b) = s.bay b
  · rw [if_pos same, same]
    split
    · next own => rw [own]
    · rfl
  · rw [if_neg same, State.bay_putBay]

theorem State.watchBay_asksOf (c : Copy) (s : State) (b : Nat) : s.asksOf id (s.watchBay c b) := by
  rw [State.watchBay_eq]
  split
  · exact .refl ..
  · exact State.putBay_asksOf ..

theorem State.watched_bay (s : State) (c : Copy) (b : Nat) :
    (s.watched c).bay b = if b < 24 ∧ c.bayMask.testBit b = true then c.watched (s.bay b) else s.bay b := by
  simp only [← mem_baysIn]
  exact foldl_entry (State.watchBay_bay c) _ (List.nodup_range.filter _) s b

theorem State.watched_eq_self {c : Copy} (same : ∀ b, (s.watched c).bay b = s.bay b) : s.watched c = s :=
  List.foldlRecOn (motive := (· = s)) _ _ rfl fun u eq b mem => by
    have own := same b
    rw [State.watched_bay, if_pos (mem_baysIn.1 mem)] at own
    rw [eq, State.watchBay_eq, if_pos own]

theorem State.watched_touches (s : State) (c : Copy) : Touches [.ports, .records] s (s.watched c) :=
  Touches.foldl (fun u b => u.watchBay_touches c b) (Touches.refl ..)

theorem exec_bayWatch_accepted (handed : s.handed .bayWatch cell = some o) (copy : o.copy = c) (node : c.node = 0) (mask : c.bayMask < 2 ^ 24)
    (known : c.watchEnable.isSome = true) (edge : (c.watchEnable != some true || c.edgeSelect.isSome) = true) :
    exec (.bayWatch cell) s = .next (((s.validated cell).watched c).reply cell .ok
      ((List.range 24).countP (fun b => c.bayMask.testBit b))).beginRecords := by
  have bits : c.bayMask < 16777216 := mask
  have passes : firstFailure [(3, c.watchEnable.isSome), (4, decide (c.bayMask < 16777216)),
      (5, c.watchEnable != some true || c.edgeSelect.isSome)] = none := by
    rw [firstFailure_cons, firstFailure_cons, firstFailure_cons, known, edge, decide_eq_true bits]; rfl
  rw [exec_bayWatch, State.handling_of_handed handed, copy, State.policy_accepted node passes, List.countP_eq_length_filter]; rfl

theorem exec_bayWatch_watches (handed : s.handed .bayWatch cell = some o) (copy : o.copy = c) (node : c.node = 0) (mask : c.bayMask < 2 ^ 24)
    (known : c.watchEnable.isSome = true) (edge : (c.watchEnable != some true || c.edgeSelect.isSome) = true) :
    ∃ t, exec (.bayWatch cell) s = .next t
      ∧ (∀ b, t.bay b = if b < 24 ∧ c.bayMask.testBit b = true then c.watched (s.bay b) else s.bay b)
      ∧ s.answered t [plain cell .ok ((List.range 24).countP (fun b => c.bayMask.testBit b))]
      ∧ (∀ b, t.bay b ≠ s.bay b → s.summaryAsked t) ∧ ((∀ b, t.bay b = s.bay b) → s.summaryNotAsked t)
      ∧ Touches [.awaiting, .answers, .ports, .records] s t := by
  obtain ⟨v, hv⟩ : ∃ v, v = s.validated cell := ⟨_, rfl⟩
  obtain ⟨n, hn⟩ : ∃ n, n = (List.range 24).countP (fun b => c.bayMask.testBit b) := ⟨_, rfl⟩
  have run := exec_bayWatch_accepted handed copy node mask known edge
  rw [← hv, ← hn] at run
  have before : Touches [.awaiting] s v := hv ▸ s.validated_touches cell
  have replied : Touches [.answers] (v.watched c) ((v.watched c).reply cell .ok n) := State.reply_touches ..
  have begun := State.beginRecords_touches ((v.watched c).reply cell .ok n)
  have bay : ∀ b, (((v.watched c).reply cell .ok n).beginRecords).bay b = (v.watched c).bay b := fun b => by
    rw [begun.bay, replied.bay]
  have sameBay : ∀ b, v.bay b = s.bay b := fun b => before.bay b
  refine ⟨_, run, fun b => ?_, ?_, fun b changed => ?_, fun same => ?_, exec_touches run⟩
  · rw [bay, State.watched_bay, sameBay]
  · rw [hn, hv]
    have touched := (s.validated cell).watched_touches c
    exact State.answered.handling (touched.answered_nil.trans (State.reply_answered ..) touched.serving)
  · rw [bay, ← sameBay] at changed
    have asks : v.asksOf id (v.watched c) := State.asksOf_foldl (State.watchBay_asksOf c) _ v
    exact (((asks.rewriteHeld changed).since before).keeps replied).asked
  · have still : v.watched c = v := State.watched_eq_self fun b => by rw [← bay, same, sameBay]
    rw [still] at replied ⊢
    obtain ⟨-, port, seq, -⟩ := (replied.after rfl (before.mono rfl) : Touches [.awaiting, .answers] s _).same .ports (by decide)
    exact State.summaryNotAsked_of_same port seq

end

/-- Settles O40: the bays of the mask are watched one after another, and a bay that keeps its fields asks for nothing. -/
theorem bayWatchArmsTheMask : Obligations.BayWatchArmsTheMask := by
  intro s cell o c handed copy node mask
  refine ⟨fun edge enable select => ?_, fun disable => ?_⟩
  · have arm : c.watchEnable = some true := by rw [Copy.watchEnable, enable]; rfl
    have notice : c.noticeOn = (c.field 34 1).testBit 0 := Nat.testBit_zero .. |>.symm
    have own : ∀ v, c.watched v
        = { v with captureEnable := true, edgeSelect := edge, noticeOn := (c.field 34 1).testBit 0 } := fun v => by
      rw [Copy.watched, arm, select, notice]; rfl
    simpa only [own] using exec_bayWatch_watches handed copy node mask (by rw [arm]; rfl) (by rw [select]; simp)
  · have disarm : c.watchEnable = some false := by rw [Copy.watchEnable, disable]; rfl
    have own : ∀ v, c.watched v = { v with captureEnable := false, captured := false } := fun v => by
      rw [Copy.watched, disarm]; rfl
    simpa only [own] using exec_bayWatch_watches handed copy node mask (by rw [disarm]; rfl) (by rw [disarm]; rfl)

end Sys2Proof.Machine
end

section
namespace Sys2Proof.Machine

set_option Elab.async false

/-! ## What a bay holds (R119) -/

section
variable {s : State} {b n : Nat}

theorem Slot.onBay_iff (v : Slot) (b : Nat) : v.onBay b = true ↔ ∃ p, v.place = some p ∧ p.bay = b := by
  unfold Slot.onBay
  split
  · next none => simp [none]
  · next p some => simp [some]

theorem LoanState.holdsBay_iff (l : LoanState) : l.holdsBay = true ↔ l ∈ [LoanState.waiting, .held, .returning, .lapsing, .lapsed] := by
  cases l <;> decide

theorem State.hasWork_iff (s : State) (b : Nat) :
    s.hasWork b = true ↔ (∃ g, g < 16 ∧ (s.fifo b g).orders ≠ []) ∨ (∃ i, i < 4 ∧ s.tagHolder b i ≠ none)
      ∨ ∃ e ∈ s.staging.slots, (e.2.state = .filling ∨ e.2.state = .draining) ∧ ∃ p, e.2.place = some p ∧ p.bay = b := by
  have queued : (allGroups.any fun g => !(s.fifo b g).orders.isEmpty) = true ↔ ∃ g, g < 16 ∧ (s.fifo b g).orders ≠ [] := by
    simp [allGroups, Config.numGroups]
  have tagged : ((List.range Config.numTags).any fun t => (s.tagHolder b t).isSome) = true ↔ ∃ i, i < 4 ∧ s.tagHolder b i ≠ none := by
    simp [Config.numTags, Option.isSome_iff_ne_none]
  rw [State.hasWork, Bool.or_eq_true, Bool.or_eq_true, queued, tagged, or_assoc]
  simp only [List.any_eq_true, Bool.and_eq_true, Bool.or_eq_true, beq_iff_eq, Slot.onBay_iff]

theorem State.holdsLoans_iff (s : State) (b : Nat) :
    s.holdsLoans b = true ↔ ∃ e ∈ s.loans.table, e.2.bay = b ∧ e.2.state ∈ [LoanState.waiting, .held, .returning, .lapsing, .lapsed] := by
  simp only [State.holdsLoans, List.any_eq_true, Bool.and_eq_true, beq_iff_eq, LoanState.holdsBay_iff]

theorem State.anyLoan_of_loan (bay : (s.loan n).bay = b) (used : (s.loan n).state ≠ .free) : s.anyLoan b = true := by
  have taken : s.loan n ≠ Loan.free := fun free => used (by rw [free]; rfl)
  have entry : (n, s.loan n) ∈ s.loans.table := Table.mem_of_get_ne taken
  exact List.any_eq_true.2 ⟨_, entry, Bool.and_eq_true_iff.2 ⟨beq_iff_eq.2 bay, bne_iff_ne.2 used⟩⟩

theorem State.completionTest_waits (busy : s.anyLoan b = true ∨ s.hasWork b = true) : s.completionTest b = s := by
  rw [State.completionTest, if_neg]
  rcases busy with loans | work
  · simp [loans]
  · simp [work]

end

/-! ## BAY_ADMIT (R127, R128) -/

section
variable {s : State} {b n : Nat} {cell : Fin 1024} {o : HeldOrder} {c : Copy}

/-- The record of a bay whose admission an order in cell n began, its START sent. -/
def Bay.admissionBegun (v : Bay) (n : Nat) : Bay :=
  { v with state := .admitting, capacity := 0, opTimer := 0, admitCell := some n, idleTicks := 0,
           outstanding := v.outstanding ++ [v.firstSend .start], sends := v.sends + 1 }

theorem State.beginAdmission_bay (s : State) (b n c : Nat) :
    (s.beginAdmission b n).bay c = if c = b then (s.bay b).admissionBegun n else s.bay c := by
  rw [State.beginAdmission, State.send_start, State.bay_setBay, State.bay_putBay, State.bay_putBay, if_pos rfl]
  by_cases own : c = b
  · rw [if_pos own, if_pos own]; rfl
  · rw [if_neg own, if_neg own, if_neg own]

theorem State.admitBay_begins (may : (s.bay b).state ∈ [BayState.present, .faulted]) : s.admitBay n b = s.beginAdmission b n := by
  have states : (s.bay b).state = .present ∨ (s.bay b).state = .faulted := by simpa using may
  unfold State.admitBay
  rcases states with state | state <;> rw [state]

theorem State.admitBay_refuses (no : (s.bay b).state ∉ [BayState.present, .faulted]) :
    s.admitBay n b = s.reply n .wrongState (s.bay b).state.code := by
  unfold State.admitBay
  split
  · next state => exact absurd (by rw [state]; decide) no
  · next state => exact absurd (by rw [state]; decide) no
  · rfl

theorem exec_bayAdmit_accepted (handed : s.handed .bayAdmit cell = some o) (copy : o.copy = c) (node : c.node = 0) (inside : c.bay < 24) :
    exec (.bayAdmit cell) s = .next ((s.validated cell).admitBay cell c.bay).beginRecords := by
  have passes : firstFailure [(3, decide (c.bay < Config.numBays))] = none := by
    rw [firstFailure_cons, decide_eq_true inside]; rfl
  rw [exec_bayAdmit, State.handling_of_handed handed, copy, State.policy_accepted node passes]

theorem exec_bayAdmit_begins (handed : s.handed .bayAdmit cell = some o) (copy : o.copy = c) (node : c.node = 0) (inside : c.bay < 24)
    (may : (s.bay c.bay).state ∈ [BayState.present, .faulted]) :
    ∃ t, exec (.bayAdmit cell) s = .next t ∧ t.bay c.bay = (s.bay c.bay).admissionBegun cell
      ∧ s.summaryAsked t ∧ s.otherBays t c.bay ∧ Touches [.awaiting, .ports, .records] s t := by
  have run := exec_bayAdmit_accepted handed copy node inside
  obtain ⟨v, hv⟩ : ∃ v, v = s.validated cell := ⟨_, rfl⟩
  have before : Touches [.awaiting] s v := hv ▸ s.validated_touches cell
  have bay : ∀ d, (v.beginAdmission c.bay cell).beginRecords.bay d
      = if d = c.bay then (s.bay c.bay).admissionBegun cell else s.bay d := fun d => by
    rw [(State.beginRecords_touches _).bay, State.beginAdmission_bay, before.bay, before.bay]
  rw [← hv, State.admitBay_begins (by rwa [before.bay])] at run
  refine ⟨_, run, (bay _).trans (if_pos rfl), ?_, fun d ne => (bay d).trans (if_neg ne), ?_⟩
  · exact ((State.rewriteHeld_putBay before).keeps (State.send_touches ..)).asked
  · exact (State.beginRecords_touches _).after rfl ((v.beginAdmission_touches _ _).after rfl (before.mono rfl))

theorem exec_bayAdmit_refuses (handed : s.handed .bayAdmit cell = some o) (copy : o.copy = c) (node : c.node = 0) (inside : c.bay < 24)
    (no : (s.bay c.bay).state ∉ [BayState.present, .faulted]) :
    ∃ t, exec (.bayAdmit cell) s = .next t ∧ s.answered t [plain cell .wrongState (s.bay c.bay).state.code]
      ∧ Touches [.awaiting, .answers, .ports] s t := by
  have run := exec_bayAdmit_accepted handed copy node inside
  have before := s.validated_touches cell
  have same := before.bay c.bay
  rw [State.admitBay_refuses (by rwa [same]), same] at run
  refine ⟨_, run, State.answered.handling (State.reply_answered ..), ?_⟩
  exact (State.beginRecords_touches _).after rfl ((State.reply_touches ..).after rfl (before.mono rfl))

end

/-! ## BAY_RETIRE (R134, R135) -/

section
variable {s v : State} {b n : Nat} {cell : Fin 1024} {o : HeldOrder} {c : Copy}

/-- The record of an ONLINE bay that becomes RETIRING. -/
def Bay.retiring (v : Bay) : Bay := { v with state := .retiring, idleTicks := 0, readyLow := 0 }

/-- The record of a bay whose retirement waits for the end of its spin-up or spin-down. -/
def Bay.retiresLater (v : Bay) : Bay := { v with retirePending := true }

/-- An ONLINE bay is RETIRING, before its completion test. -/
def State.retiring (s : State) (b : Nat) : State := s.putBay b (s.bay b).retiring

theorem State.retiring_bay (s : State) (b : Nat) : (s.retiring b).bay b = (s.bay b).retiring := (State.bay_putBay ..).trans (if_pos rfl)

theorem State.answerRetire_online (online : (s.bay b).state = .online) :
    s.answerRetire n b = ((s.retiring b).completionTest b).reply n .ok 7 := by
  have taken : s.retireBay b = some ((s.retiring b).completionTest b) := by unfold State.retireBay; dsimp only; rw [online]; rfl
  rw [State.answerRetire, taken]
  dsimp only
  rw [State.completionTest_bay_state, State.retiring_bay]; rfl

theorem State.answerRetire_spunDown (down : (s.bay b).state = .spunDown) :
    s.answerRetire n b = (s.retireSpunDown b).reply n .ok ((s.retireSpunDown b).bay b).state.code := by
  have taken : s.retireBay b = some (s.retireSpunDown b) := by unfold State.retireBay; dsimp only; rw [down]
  rw [State.answerRetire, taken]

theorem State.answerRetire_pending (turns : (s.bay b).state ∈ [BayState.spinningDown, .spinningUp]) :
    s.answerRetire n b = (s.setBay b (s.bay b).retiresLater).reply n .ok (s.bay b).state.code := by
  have states : (s.bay b).state = .spinningDown ∨ (s.bay b).state = .spinningUp := by simpa using turns
  have taken : s.retireBay b = some (s.setBay b (s.bay b).retiresLater) := by
    rcases states with state | state
    · simp [State.retireBay, Bay.retiresLater, state]
    · simp [State.retireBay, Bay.retiresLater, state]
  rw [State.answerRetire, taken]
  dsimp only
  rw [State.bay_setBay, if_pos rfl]; rfl

theorem State.answerRetire_refuses (rests : (s.bay b).state ∈ [BayState.empty, .present, .admitting, .retiring, .faulted]) :
    s.answerRetire n b = s.reply n .wrongState (s.bay b).state.code := by
  have states : (s.bay b).state = .empty ∨ (s.bay b).state = .present ∨ (s.bay b).state = .admitting ∨ (s.bay b).state = .retiring
      ∨ (s.bay b).state = .faulted := by simpa using rests
  have refused : s.retireBay b = none := by
    rcases states with state | state | state | state | state <;> rw [State.retireBay, state]
  rw [State.answerRetire, refused]

/-- A BAY_RETIRE is taken at once, taken by a SPUN_DOWN bay, taken for later, or refused. -/
theorem BayState.retire_cases (st : BayState) : st = .online ∨ st = .spunDown ∨ st ∈ [BayState.spinningDown, .spinningUp]
    ∨ st ∈ [BayState.empty, .present, .admitting, .retiring, .faulted] := by
  cases st <;> decide

theorem State.retireSpunDown_busy (busy : s.holdsLoans b = true ∨ s.hasWork b = true) :
    s.retireSpunDown b = (s.setBay b (s.bay b).retiresLater).startSpinUp b := if_pos (Bool.or_eq_true_iff.2 busy)

theorem State.retireSpunDown_free (loans : s.holdsLoans b = false) (work : s.hasWork b = false) : s.retireSpunDown b = s.retired b :=
  if_neg (by rw [loans, work]; exact Bool.false_ne_true)

theorem State.retireSpunDown_others (s : State) (b : Nat) : s.otherBays (s.retireSpunDown b) b := fun c ne => by
  unfold State.retireSpunDown
  split
  · rw [State.startSpinUp_bay, if_neg ne, State.bay_setBay, if_neg ne]
  · rw [State.retired_bay, if_neg ne]

theorem State.rewriteHeld_retireSpunDown (s : State) (b : Nat) : s.rewriteHeld (s.retireSpunDown b) := by
  unfold State.retireSpunDown
  split
  · exact (State.rewriteHeld_putBay (s.setBay_touches ..)).keeps (State.send_touches ..)
  · exact s.rewriteHeld_retired b

theorem State.answerRetire_others (s : State) (b n : Nat) : s.otherBays (s.answerRetire n b) b := fun c ne => by
  rcases (s.bay b).state.retire_cases with online | down | turns | rests
  · rw [State.answerRetire_online online, (State.reply_touches ..).bay, State.completionTest_bay_other _ ne, State.retiring,
      State.bay_putBay, if_neg ne]
  · rw [State.answerRetire_spunDown down, (State.reply_touches ..).bay, s.retireSpunDown_others b c ne]
  · rw [State.answerRetire_pending turns, (State.reply_touches ..).bay, State.bay_setBay, if_neg ne]
  · rw [State.answerRetire_refuses rests, (State.reply_touches ..).bay]

theorem State.rewriteHeld_answerRetire (acts : (s.bay b).state ∈ [BayState.online, .spunDown]) : s.rewriteHeld (s.answerRetire n b) := by
  have states : (s.bay b).state = .online ∨ (s.bay b).state = .spunDown := by simpa using acts
  rcases states with online | down
  · rw [State.answerRetire_online online]
    exact ((State.rewriteHeld_putBay (Touches.refl [] s)).keeps (State.completionTest_touches ..)).keeps (State.reply_touches ..)
  · rw [State.answerRetire_spunDown down]
    exact (s.rewriteHeld_retireSpunDown b).keeps (State.reply_touches ..)

/-- A retirement that is refused or only becomes pending asks for no record write. -/
theorem State.answerRetire_waits (no : (s.bay b).state ∉ [BayState.online, .spunDown]) :
    Touches [.answers, .records] s (s.answerRetire n b) := by
  rcases (s.bay b).state.retire_cases with online | down | turns | rests
  · exact absurd (by rw [online]; decide) no
  · exact absurd (by rw [down]; decide) no
  · rw [State.answerRetire_pending turns]
    exact (State.reply_touches ..).after rfl ((s.setBay_touches ..).mono rfl)
  · rw [State.answerRetire_refuses rests]
    exact (State.reply_touches ..).mono rfl

theorem State.retiring_touches (s : State) (b : Nat) : Touches [.ports, .records] s (s.retiring b) := State.putBay_touches ..

/-- An ONLINE bay that passes the completion test as it becomes RETIRING is sent its final STANDBY. -/
theorem State.retiring_standbySent (ordered : Table.ordered s.loans.table) (free : ∀ m, (s.loan m).bay = b → (s.loan m).state = .free)
    (work : s.hasWork b = false) (fresh : ∀ d ∈ (s.bay b).outstanding ++ (s.bay b).sendList, d.kind ≠ .standby) :
    s.standbySent ((s.retiring b).completionTest b) b := by
  have put := s.retiring_touches b
  have own := s.retiring_bay b
  have loans : (s.retiring b).anyLoan b = false := (State.anyLoan_eq_false ordered free : s.anyLoan b = false)
  rw [State.completionTest_sends (by rw [own]; rfl) loans ((put.hasWork b).trans work) (by rw [own]; exact fresh)]
  exact (State.send_standby_sent _ b).of_sends (by rw [own]; rfl) (put.lines b) rfl

/-- An ONLINE bay that does not pass the completion test as it becomes RETIRING is sent nothing. -/
theorem State.retiring_waits (held : ¬((∀ m, (s.loan m).bay = b → (s.loan m).state = .free) ∧ s.hasWork b = false)) :
    (s.retiring b).completionTest b = s.retiring b := by
  refine State.completionTest_waits ?_
  by_cases work : s.hasWork b = true
  · exact .inr (((s.retiring_touches b).hasWork b).trans work)
  · rw [Bool.not_eq_true] at work
    obtain ⟨m, bay, used⟩ : ∃ m, (s.loan m).bay = b ∧ (s.loan m).state ≠ .free := by
      by_contra none
      push Not at none
      exact held ⟨none, work⟩
    exact .inl (State.anyLoan_of_loan (s := s.retiring b) bay used)

theorem State.answerRetire_online_ends (online : (s.bay b).state = .online) :
    ((s.answerRetire n b).bay b).state = .retiring ∧ s.answered (s.answerRetire n b) [plain n .ok 7] := by
  have tested := (s.retiring b).completionTest_touches b
  rw [State.answerRetire_online online, (State.reply_touches ..).bay, State.completionTest_bay_state, State.retiring_bay]
  have touched : Touches [.ports, .records] s ((s.retiring b).completionTest b) := tested.after rfl (s.retiring_touches b)
  exact ⟨rfl, touched.answered_nil.trans (State.reply_answered ..) touched.serving⟩

theorem State.answerRetire_spunDown_busy (down : (s.bay b).state = .spunDown) (busy : s.holdsLoans b = true ∨ s.hasWork b = true) :
    ((s.answerRetire n b).bay b).state = .spinningUp ∧ ((s.answerRetire n b).bay b).retirePending = true
      ∧ s.answered (s.answerRetire n b) [plain n .ok 6] := by
  have own : ((s.setBay b (s.bay b).retiresLater).startSpinUp b).bay b = (s.bay b).retiresLater.startingUp := by
    rw [State.startSpinUp_bay, if_pos rfl, State.bay_setBay, if_pos rfl]
  have touched : Touches [.ports, .records] s ((s.setBay b (s.bay b).retiresLater).startSpinUp b) :=
    (State.startSpinUp_touches ..).after rfl ((State.setBay_touches ..).mono rfl)
  rw [State.answerRetire_spunDown down, State.retireSpunDown_busy busy, (State.reply_touches ..).bay, own]
  exact ⟨rfl, rfl, touched.answered_nil.trans (State.reply_answered ..) touched.serving⟩

theorem State.answerRetire_spunDown_free (down : (s.bay b).state = .spunDown) (loans : s.holdsLoans b = false)
    (work : s.hasWork b = false) : ((s.answerRetire n b).bay b).state = .present ∧ ((s.answerRetire n b).bay b).capacity = 0
      ∧ s.answered (s.answerRetire n b) [plain n .ok 1] := by
  have touched := s.retired_touches b
  rw [State.answerRetire_spunDown down, State.retireSpunDown_free loans work, (State.reply_touches ..).bay, State.retired_bay, if_pos rfl]
  exact ⟨rfl, rfl, touched.answered_nil.trans (State.reply_answered ..) touched.serving⟩

theorem State.answerRetire_pending_ends (turns : (s.bay b).state ∈ [BayState.spinningDown, .spinningUp]) :
    (s.answerRetire n b).bay b = (s.bay b).retiresLater ∧ s.answered (s.answerRetire n b) [plain n .ok (s.bay b).state.code] := by
  have touched := s.setBay_touches b (s.bay b).retiresLater
  rw [State.answerRetire_pending turns, (State.reply_touches ..).bay, State.bay_setBay, if_pos rfl]
  exact ⟨rfl, touched.answered_nil.trans (State.reply_answered ..) touched.serving⟩

theorem State.answerRetire_refuses_ends (rests : (s.bay b).state ∈ [BayState.empty, .present, .admitting, .retiring, .faulted]) :
    (s.answerRetire n b).bay b = s.bay b ∧ s.answered (s.answerRetire n b) [plain n .wrongState (s.bay b).state.code] := by
  rw [State.answerRetire_refuses rests]
  exact ⟨(State.reply_touches ..).bay b, State.reply_answered ..⟩

theorem exec_bayRetire_accepted (handed : s.handed .bayRetire cell = some o) (copy : o.copy = c) (node : c.node = 0) (inside : c.bay < 24) :
    exec (.bayRetire cell) s = .next ((s.validated cell).answerRetire cell c.bay).beginRecords := by
  have passes : firstFailure [(3, decide (c.bay < Config.numBays))] = none := by
    rw [firstFailure_cons, decide_eq_true inside]; rfl
  rw [exec_bayRetire, State.handling_of_handed handed, copy, State.policy_accepted node passes]

end

/-- Settles O39: each order acts by the case of the bay's state, and its answer and its record writes come after. -/
theorem admissionAndRetirementBegin : Obligations.AdmissionAndRetirementBegin := by
  refine ⟨fun s b => ⟨s.hasWork_iff b, s.holdsLoans_iff b⟩, fun s cell o c handed copy node inside => ?_,
    fun s cell o c handed copy node inside => ?_⟩
  · exact ⟨exec_bayAdmit_begins handed copy node inside, exec_bayAdmit_refuses handed copy node inside⟩
  · have run := exec_bayRetire_accepted handed copy node inside
    obtain ⟨v, hv⟩ : ∃ v, v = s.validated cell := ⟨_, rfl⟩
    obtain ⟨n, hn⟩ : ∃ n : Nat, n = cell := ⟨_, rfl⟩
    obtain ⟨b, hb⟩ : ∃ b, b = c.bay := ⟨_, rfl⟩
    rw [← hv, ← hn, ← hb] at run
    rw [← hb, ← hn]
    have before : Touches [.awaiting] s v := by rw [hv]; exact s.validated_touches cell
    have after := State.beginRecords_touches (v.answerRetire n b)
    have same : v.bay b = s.bay b := before.bay b
    have loans : v.holdsLoans b = s.holdsLoans b := by rw [State.holdsLoans, before.loans]; rfl
    have work : v.hasWork b = s.hasWork b := before.hasWork b
    have answer : ∀ {as}, v.answered (v.answerRetire n b) as → s.answered (v.answerRetire n b).beginRecords as :=
      fun h => State.answered.handling (cell := cell) (hv ▸ h)
    rw [← same, ← loans, ← work]
    refine ⟨_, run, fun d ne => ?_, fun acts => ?_, fun waits => ?_, fun online => ⟨?_, ?_, fun ordered passed fresh => ?_, fun held => ?_⟩,
      fun down => ⟨fun busy => ?_, fun free idle => ?_⟩, fun turns => ?_, fun rests => ?_, exec_touches run⟩
    · rw [after.bay, v.answerRetire_others b n d ne, before.bay]
    · exact ((State.rewriteHeld_answerRetire acts).since before).asked
    · obtain ⟨-, port, seq, -⟩ := ((State.answerRetire_waits waits).after rfl (before.mono rfl)
        : Touches [.awaiting, .answers, .records] s (v.answerRetire n b)).same .ports (by decide)
      exact State.summaryNotAsked_of_same port seq
    · rw [after.bay]
      exact (State.answerRetire_online_ends online).1
    · exact answer (State.answerRetire_online_ends online).2
    · have free : ∀ m, (v.loan m).bay = b → (v.loan m).state = .free := fun m => by
        rw [before.loan]
        exact passed.1 m
      have sent := State.retiring_standbySent (by rw [before.loans]; exact ordered.1) free passed.2 fresh
      refine sent.congr same (before.lines b) ?_
      rw [after.bay, State.answerRetire_online online, (State.reply_touches ..).bay]
    · have held' : ¬((∀ m, (v.loan m).bay = b → (v.loan m).state = .free) ∧ v.hasWork b = false) := by
        simp only [before.loan]
        exact held
      rw [after.bay, State.answerRetire_online online, State.retiring_waits held', (State.reply_touches ..).bay, State.retiring_bay]; rfl
    all_goals rw [after.bay]
    · obtain ⟨up, pending, replied⟩ := State.answerRetire_spunDown_busy (n := n) down busy
      exact ⟨up, pending, answer replied⟩
    · obtain ⟨present, empty, replied⟩ := State.answerRetire_spunDown_free (n := n) down free idle
      exact ⟨present, empty, answer replied⟩
    · exact (State.answerRetire_pending_ends turns).imp id answer
    · exact (State.answerRetire_refuses_ends rests).imp id answer

end Sys2Proof.Machine
end

section
namespace Sys2Proof.Machine

set_option Elab.async false

/-! ## A bay without work keeps none at the Loan Manager's tick (R119) -/

section
variable {α : Type} {d v : α} {t : Table α} {e : Nat × α} {n : Nat}

theorem Table.mem_insert (h : e ∈ Table.insert t n v) : e ∈ t ∨ e = (n, v) := by
  induction t with
  | nil => exact .inr (List.mem_singleton.1 h)
  | cons x t ih =>
    obtain ⟨k, w⟩ := x
    unfold Table.insert at h
    split at h
    · exact (List.mem_cons.1 h).symm
    · split at h
      · exact (List.mem_cons.1 h).symm.imp_left (List.mem_cons_of_mem _)
      · rcases List.mem_cons.1 h with here | later
        · exact .inl (here ▸ List.mem_cons_self)
        · exact (ih later).imp_left (List.mem_cons_of_mem _)

theorem Table.mem_set [DecidableEq α] (h : e ∈ Table.set d t n v) : e ∈ t ∨ e = (n, v) := by
  unfold Table.set at h
  split at h
  · exact .inl (List.mem_of_mem_filter h)
  · exact Table.mem_insert h

end

section
variable {s u : State} {b : Nat} {ps : List Part}

/-- The slot is work of bay b. -/
def Slot.worksOn (v : Slot) (b : Nat) : Prop := (v.state = .filling ∨ v.state = .draining) ∧ ∃ p, v.place = some p ∧ p.bay = b

/-- No slot is work of bay b. -/
def State.stagesNone (s : State) (b : Nat) : Prop := ∀ e ∈ s.staging.slots, ¬e.2.worksOn b

theorem State.hasWork_eq_false : s.hasWork b = false ↔
    (∀ g, g < 16 → (s.fifo b g).orders = []) ∧ (∀ i, i < 4 → s.tagHolder b i = none) ∧ s.stagesNone b := by
  rw [← Bool.not_eq_true, State.hasWork_iff, not_or, not_or]
  simp only [not_exists, not_and, ne_eq, not_not, State.stagesNone, Slot.worksOn]

theorem Touches.stagesNone (h : Touches ps s u) (none : s.stagesNone b) (w : Part.staging ∉ ps := by decide) : u.stagesNone b := by
  unfold State.stagesNone
  rwa [h.staging w]

theorem Slot.joinedBy_worksOn (v : Slot) (c : Nat) : (v.joinedBy c).worksOn b ↔ v.worksOn b := by
  unfold Slot.joinedBy
  split <;> exact Iff.rfl

theorem State.mem_joinSlot_slots {k c : Nat} {x : Transfer} {e : Nat × Slot} (mem : e ∈ (s.joinSlot k c x).staging.slots) :
    e ∈ s.staging.slots ∨ e = (k, (s.slot k).joinedBy c) := by
  unfold State.joinSlot at mem
  unfold Slot.joinedBy
  dsimp only at mem
  split at mem
  · next resident =>
    rw [if_pos resident]
    exact Table.mem_set mem
  · next filling =>
    rw [if_neg filling]
    exact Table.mem_set mem

theorem State.joinSlot_stagesNone (none : s.stagesNone b) (k c : Nat) (x : Transfer) : (s.joinSlot k c x).stagesNone b := by
  intro e mem works
  rcases State.mem_joinSlot_slots mem with old | rfl
  · exact none e old works
  · have own : (s.slot k).worksOn b := (Slot.joinedBy_worksOn ..).1 works
    have taken : s.slot k ≠ Slot.free := fun free => by
      rw [free] at own
      exact absurd own.1 (by decide)
    exact none _ (Table.mem_of_get_ne taken) own

theorem State.settleHead_stagesNone (fuel : Nat) (none : s.stagesNone b) (d g : Nat) : (s.settleHead fuel d g).stagesNone b := by
  induction fuel generalizing s with
  | zero => exact none
  | succ n ih =>
    cases own : (s.fifo d g).orders with
    | nil => rwa [State.settleHead_empty _ own]
    | cons c rest =>
      cases made : s.transfer? c with
      | none => rwa [State.settleHead_unmade _ own made]
      | some x =>
        cases joins : s.headJoins d x with
        | some k =>
          rw [State.settleHead_joins _ own made joins]
          exact ih (State.joinSlot_stagesNone ((State.setOrders_touches ..).stagesNone none) _ _ _)
        | none =>
          rw [State.settleHead_stays _ own made joins]
          exact (State.costHead_touches ..).stagesNone none

theorem State.removeQueued_stagesNone (none : s.stagesNone b) (d g : Nat) (p : Nat → Bool) : (s.removeQueued d g p).stagesNone b := by
  have put : ∀ q, (s.setFifo d g q).stagesNone b := fun q => (State.setFifo_touches ..).stagesNone none
  unfold State.removeQueued
  dsimp only
  split
  · exact none
  · split
    · exact (State.requestSpinUp_touches ..).stagesNone (State.settleHead_stagesNone _ (put _) _ _)
    · exact put _

theorem State.lapseAll_stagesNone (none : s.stagesNone b) (ns : List Nat) : (s.lapseAll ns).stagesNone b := by
  have each : ∀ (u : State) n, u.stagesNone b → (u.lapseLoan n).stagesNone b := fun u n none =>
    (State.pushLapse_touches ..).stagesNone ((State.setLoan_touches ..).stagesNone
      (State.removeQueued_stagesNone ((State.replyAll_touches ..).stagesNone none) _ _ _))
  induction ns generalizing s with
  | nil => exact none
  | cons n ns ih => exact ih (each s n none)

theorem State.lapseAll_hasWork (idle : s.hasWork b = false) (ns : List Nat) : (s.lapseAll ns).hasWork b = false := by
  obtain ⟨orders, tags, slots⟩ := State.hasWork_eq_false.1 idle
  refine State.hasWork_eq_false.2 ⟨fun g low => ?_, fun i low => ?_, State.lapseAll_stagesNone slots ns⟩
  · exact List.eq_nil_iff_forall_not_mem.2 fun x mem => by
      have old := (State.lapseAll_orders mem).1
      rw [orders g low] at old
      cases old
  · rw [(State.lapseAll_touches ..).tagHolder, tags i low]

/-- A bay without work at a tick has none when its idle tick is counted. -/
theorem State.loanTick_hasWork (idle : s.hasWork b = false) : s.loanTick.hasWork b = false := by
  rw [s.loanTick_touches_examined.hasWork, (State.examineAll_touches ..).hasWork, State.lapsesDone_eq]
  exact State.lapseAll_hasWork ((s.termsCounted_touches.hasWork b).trans idle) _

/-- The Loan Manager's tick leaves the record of an ONLINE bay. -/
theorem State.loanTick_online (online : (s.bay b).state = .online) : s.loanTick.bay b = s.bay b := by
  have lapsed : s.lapsesDone.bay b = s.bay b := by
    rw [State.lapsesDone_eq, ← s.termsCounted_touches.bay b]
    rcases s.termsCounted.lapseAll_bay s.expiriesDone.lapsing b with own | own
    · exact own
    · rw [own, Bay.asked_online (by rw [s.termsCounted_touches.bay b]; exact online)]
  have examined : (s.lapsesDone.examineAll s.tickBays).bay b = s.bay b := ((State.examineAll_touches ..).bay b).trans lapsed
  rw [State.loanTick_eq, State.completionTests_bay _ _ _ (by rw [examined, online]; decide), examined]

end

/-! ## The spin-down of an idle bay (R130, R131) -/

section
variable {α : Type} {f : Bay → α} {s t u w : State} {b : Nat} {ps : List Part}

theorem Touches.asksOf (h : Touches ps s u) (same : ∀ b, f (u.bay b) = f (s.bay b)) (ports : Part.ports ∉ ps := by decide)
    (base : Part.base ∉ ps := by decide) : s.asksOf f u := by
  obtain ⟨-, port, seq, -⟩ := h.same .ports ports
  exact ⟨seq, by rw [port], h.base base, fun held => by rw [port]; exact held, fun b changed => absurd (same b) changed⟩

/-- A rewrite requested after steps that began none is one requested. -/
theorem State.rewriteHeld.sincePorts (h : t.rewriteHeld u) (k : s.keepsPorts t) (base : t.exchange.base = s.exchange.base) :
    s.rewriteHeld u := by
  obtain ⟨port, seq, own⟩ := h
  refine ⟨port.trans ?_, seq.trans k.seq, own.trans base⟩
  show _ = RecordPort.mk true s.exchange.summaryPort.inFlight
  rw [← k.flight]

/-- A rewrite requested stays requested while none begins. -/
theorem State.rewriteHeld.keepsPorts (h : s.rewriteHeld u) (k : u.keepsPorts w) (base : w.exchange.base = u.exchange.base) :
    s.rewriteHeld w := by
  obtain ⟨port, seq, own⟩ := h
  have held : w.exchange.summaryPort.held = true := k.held (by rw [port])
  have flight : w.exchange.summaryPort.inFlight = s.exchange.summaryPort.inFlight := by rw [k.flight, port]
  refine ⟨?_, k.seq.trans seq, base.trans own⟩
  show w.exchange.summaryPort = ⟨true, s.exchange.summaryPort.inFlight⟩
  rw [← held, ← flight]

theorem State.rewriteHeld.requestMeter (h : s.rewriteHeld u) : s.rewriteHeld u.requestMeter := by
  obtain ⟨port, seq, own⟩ := h
  exact ⟨port, seq, own⟩

theorem State.rewriteHeld.meterTick (h : s.rewriteHeld u) : s.rewriteHeld u.meterTick := by
  unfold State.meterTick
  split
  · have latched : Touches [.clock, .groups, .meters] u (State.latched { u with clock := { u.clock with meterTickCount := 0 } }) :=
      (State.latched_touches _).after rfl ((u.clock_touches _).mono rfl)
    have asked : s.rewriteHeld (State.latched { u with clock := { u.clock with meterTickCount := 0 } }).requestSpinUps :=
      (h.keeps latched).keepsPorts (State.requestSpinUps_keepsPorts _) (State.requestSpinUps_touches _).base
    rw [State.periodEnd_eq]
    exact asked.requestMeter
  · exact h.keeps (u.clock_touches _)

theorem State.idleTick_asksOf (s : State) (b : Nat) : s.asksOf Bay.state (s.idleTick b) := by
  unfold State.idleTick
  split
  · exact (State.putBay_asksOf ..).trans ((State.send_touches ..).asksOf fun c => State.send_bay_state _ b c _)
  · refine (State.setBay_touches ..).asksOf fun c => ?_
    rw [State.bay_setBay]
    split
    · next own => rw [own]
    · rfl

theorem State.idleTicks_asksOf (s : State) : s.asksOf Bay.state s.idleTicks := State.asksOf_foldl State.idleTick_asksOf allBays s

/-- A bay that spins down sends its STANDBY. -/
theorem State.idleTick_spins (spins : s.spinsDown b = true) : ((s.idleTick b).bay b).state = .spinningDown
    ∧ ((s.idleTick b).bay b).idleTicks = 0 ∧ ∃ c ∈ ((s.idleTick b).bay b).outstanding, c.kind = .standby := by
  have high : (s.lines b).ready = true := (Bool.and_eq_true_iff.1 spins).2
  have sends : ¬((Command.control .standby).kind.waitsForReady = true ∧ (s.lines b).ready = false) := fun low => by
    rw [high] at low
    cases low.2
  rw [State.idleTick, if_pos spins, State.send_bay, (State.putBay_touches ..).lines, if_neg sends, State.bay_putBay, if_pos rfl]
  exact ⟨rfl, rfl, _, List.mem_append_right _ List.mem_cons_self, rfl⟩

/-- A period end may ask a bay that spins down for a spin-up to follow, and does no more to its record. -/
theorem State.meterTick_spinningDown (down : (s.bay b).state = .spinningDown) :
    ∃ pending, s.meterTick.bay b = { s.bay b with spinUpPending := pending } := by
  rcases s.meterTick_bay b with own | own
  · exact ⟨_, own⟩
  · exact ⟨true, own.trans (Bay.asked_spinningDown down)⟩

/-- The conditions of a spin-down hold after the Loan Manager's tick where they hold before it. -/
theorem State.loanTick_spinsDown (online : (s.bay b).state = .online) (on : 1 ≤ (s.bay b).spinIdle)
    (due : (s.bay b).spinIdle ≤ min 65535 ((s.bay b).idleTicks + 1)) (idle : s.hasWork b = false) (high : (s.lines b).ready = true) :
    s.loanTick.spinsDown b = true := by
  have own := State.loanTick_online online
  have work := State.loanTick_hasWork idle
  have ready : s.loanTick.readyHigh b = true := (s.loanTick_touches.readyHigh b).trans high
  have after : s.loanTick.idleAfter b = min 65535 ((s.bay b).idleTicks + 1) := by
    rw [State.idleAfter, own, if_pos ⟨online, work⟩]
  rw [State.spinsDown, own, online, after, work, ready, decide_eq_true on, decide_eq_true due]; rfl

/-- What a tick makes of a bay that spins down at it. -/
theorem State.takeTick_spins (bound : b < 24) (online : (s.bay b).state = .online) (spins : s.loanTick.spinsDown b = true) :
    (s.takeTick.bay b).state = .spinningDown ∧ (s.takeTick.bay b).idleTicks = 0
      ∧ (∃ c ∈ (s.takeTick.bay b).outstanding, c.kind = .standby) ∧ s.summaryAsked s.takeTick := by
  obtain ⟨w, hw⟩ : ∃ w, w = s.loanTick.idleTicks := ⟨_, rfl⟩
  have ticked : s.takeTick = w.meterTick.beginRecords := hw ▸ s.takeTick_eq
  obtain ⟨down, zero, sent⟩ := State.idleTick_spins spins
  rw [← State.idleTicks_bay _ bound, ← hw] at down zero sent
  have asks : s.loanTick.asksOf Bay.state w := hw ▸ s.loanTick.idleTicks_asksOf
  have held : s.loanTick.rewriteHeld w := asks.rewriteHeld (b := b) (by
    rw [down, State.loanTick_online online, online]
    exact nofun)
  have asked : s.rewriteHeld w.meterTick := (held.sincePorts s.loanTick_keepsRecords.1 s.loanTick_touches.base).meterTick
  obtain ⟨pending, own⟩ := State.meterTick_spinningDown down
  rw [ticked, (State.beginRecords_touches _).bay, own]
  exact ⟨down, zero, sent, asked.asked⟩

end

/-- Settles O45: the conditions hold through the Loan Manager's tick, and nothing later in the tick takes the STANDBY back. -/
theorem idleBaysSpinDown : Obligations.IdleBaysSpinDown := by
  intro s b part online on due idle high
  obtain ⟨u, hu⟩ : ∃ u : State, u = { s with clock := s.clock.produce } := ⟨_, rfl⟩
  have serving : s.serving = true := s.serving_iff.2 part
  have ticks : s.tick = u.takeTick := hu ▸ State.tick_serving serving
  have clocked : Touches [.clock] s u := hu ▸ s.clock_touches _
  have run : exec (.spinDown b) s = .next s.tick := by
    show Host.Outcome.next (if s.serving && s.loanTick.spinsDown b then s.tick else s) = _
    rw [serving, State.loanTick_spinsDown online on due idle high]; rfl
  have own := clocked.bay b
  have spins : u.loanTick.spinsDown b = true := State.loanTick_spinsDown (by rw [own]; exact online) (by rw [own]; exact on)
    (by rw [own]; exact due) ((clocked.hasWork b).trans idle) (by rw [clocked.lines]; exact high)
  have ends := State.takeTick_spins b.isLt (by rw [own]; exact online) spins
  rw [← ticks, hu] at ends
  exact ⟨_, run, ends⟩

end Sys2Proof.Machine
end

section
namespace Sys2Proof.Machine

set_option Elab.async false

/-! ## The ready line (R122, R128, R133, R136) -/

section
variable {s u : State} {b n : Nat} {d : Command}

theorem State.watchesLines_of_part (part : s.exchange.part ≠ .bringup) : s.watchesLines = true := bne_iff_ne.2 part

/-- A command sent while the ready line is high. -/
def Bay.sent (v : Bay) (d : Command) : Bay :=
  { v with
    outstanding := v.outstanding ++ [{ d with timer := 0, number := v.sends }], sends := v.sends + 1, idleTicks := 0,
    readyLow := if d.kind = .standby then 0 else v.readyLow }

theorem State.send_bay_high (high : (s.lines b).ready = true) (d : Command) : (s.send b d).bay b = (s.bay b).sent d := by
  rw [State.send_bay, if_neg fun low => by rw [high] at low; cases low.2]; rfl

/-- Commands sent one after another. -/
abbrev State.sendEach (s : State) (b : Nat) (ds : List Command) : State := ds.foldl (fun s d => s.send b d) s

theorem State.sendEach_touches (s : State) (b : Nat) (ds : List Command) : Touches [.records] s (s.sendEach b ds) :=
  Touches.foldl (fun u d => u.send_touches b d) (Touches.refl ..)

theorem State.sendEach_others (s : State) (b : Nat) (ds : List Command) : s.otherBays (s.sendEach b ds) b := fun c ne => by
  induction ds generalizing s with
  | nil => rfl
  | cons d ds ih => exact (ih (s.send b d)).trans (s.send_bay_other d ne)

/-- With the ready line high they are outstanding behind those before, numbered as they are sent. -/
theorem State.sendEach_bay (high : (s.lines b).ready = true) (ds : List Command) :
    (s.sendEach b ds).bay b = ds.foldl Bay.sent (s.bay b) := by
  induction ds generalizing s with
  | nil => rfl
  | cons d ds ih =>
    have still : ((s.send b d).lines b).ready = true := by rw [(State.send_touches ..).lines, high]
    exact (ih still).trans (by rw [State.send_bay_high high]; rfl)

theorem Bay.sentEach_outstanding_subset (v : Bay) (ds : List Command) : v.outstanding ⊆ (ds.foldl Bay.sent v).outstanding := by
  induction ds generalizing v with
  | nil => exact List.Subset.refl _
  | cons d ds ih => exact List.Subset.trans (List.subset_append_left ..) (ih (v.sent d))

theorem Bay.sentEach_mem (v : Bay) (ds : List Command) {i : Nat} (found : ds[i]? = some d) :
    { d with timer := 0, number := v.sends + i } ∈ (ds.foldl Bay.sent v).outstanding := by
  induction ds generalizing v i with
  | nil => cases found
  | cons e ds ih =>
    cases i with
    | zero =>
      cases found
      exact Bay.sentEach_outstanding_subset _ ds (List.mem_append_right _ List.mem_cons_self)
    | succ i =>
      have later := ih (v.sent e) (i := i) found
      rwa [Bay.sent, Nat.add_assoc, Nat.add_comm 1 i] at later

theorem Bay.sentEach_keeps (v : Bay) (ds : List Command) : (ds.foldl Bay.sent v).sendList = v.sendList
    ∧ (ds.foldl Bay.sent v).state = v.state ∧ (ds.foldl Bay.sent v).retirePending = v.retirePending := by
  induction ds generalizing v with
  | nil => exact ⟨rfl, rfl, rfl⟩
  | cons d ds ih => exact ih (v.sent d)

/-- The ready line is high, and what waited for it is sent. -/
def State.readied (s : State) (b : Nat) : State := ((s.setReady b true).clearReadyLow b).sendAll b

theorem State.readied_touches (s : State) (b : Nat) : Touches [.records, .lines] s (s.readied b) :=
  (State.sendAll_touches ..).after rfl ((State.clearReadyLow_touches ..).after rfl ((State.setReady_touches ..).mono rfl))

/-- The record of a bay as its ready line rises, before its send list is sent. -/
def Bay.risen (v : Bay) : Bay := { v with readyLow := 0, sendList := [] }

/-- The bay and its line as they are before the send list is sent. -/
def State.risen (s : State) (b : Nat) : State := ((s.setReady b true).clearReadyLow b).setBay b (s.bay b).risen

theorem State.readied_eq (s : State) (b : Nat) : s.readied b = (s.risen b).sendEach b (s.bay b).sendList := by
  have own : ((s.setReady b true).clearReadyLow b).bay b = { s.bay b with readyLow := 0 } := (State.bay_setBay ..).trans (if_pos rfl)
  rw [State.readied, State.sendAll, own]; rfl

theorem State.risen_lines (s : State) (b : Nat) : (s.risen b).lines b = { s.lines b with ready := true } :=
  (State.lines_setLines ..).trans (if_pos rfl)

theorem State.risen_bay (s : State) (b : Nat) : (s.risen b).bay b = (s.bay b).risen := (State.bay_setBay ..).trans (if_pos rfl)

theorem State.risen_others (s : State) (b : Nat) : s.otherBays (s.risen b) b := fun c ne => by
  rw [State.risen, State.bay_setBay, if_neg ne, State.clearReadyLow, State.bay_setBay, if_neg ne]; rfl

theorem State.readied_lines (s : State) (b : Nat) : (s.readied b).lines b = { s.lines b with ready := true } := by
  rw [State.readied_eq, (State.sendEach_touches ..).lines, State.risen_lines]

theorem State.readied_others (s : State) (b : Nat) : s.otherBays (s.readied b) b := fun c ne => by
  rw [State.readied_eq, State.sendEach_others _ _ _ c ne, State.risen_others _ _ c ne]

theorem State.readied_bay (s : State) (b : Nat) : (s.readied b).bay b = (s.bay b).sendList.foldl Bay.sent (s.bay b).risen := by
  rw [State.readied_eq, State.sendEach_bay (by rw [State.risen_lines]), State.risen_bay]

/-- What follows an ended START changes the record of its own bay alone. -/
theorem State.startDone_others (s : State) (b : Nat) : s.otherBays (s.startDone b) b := fun c ne => by
  unfold State.startDone
  split
  · exact s.send_bay_other _ ne
  · exact (s.spunUp_ends b).2.1 c ne
  · rfl

theorem State.completionTest_sendList (high : (s.lines b).ready = true) : ((s.completionTest b).bay b).sendList = (s.bay b).sendList := by
  unfold State.completionTest
  split
  · rw [State.send_bay_high high]; rfl
  · rfl

theorem State.spunUp_sendList (high : (s.lines b).ready = true) : ((s.spunUp b).bay b).sendList = (s.bay b).sendList := by
  have own : ((s.putBay b (s.bay b).spunUp).bay b).sendList = (s.bay b).sendList := by
    rw [State.bay_putBay, if_pos rfl]; rfl
  rw [State.spunUp_eq]
  split
  · rw [State.completionTest_sendList (by rw [(State.putBay_touches ..).lines, high]), own]
  · exact own

theorem State.startDone_sendList (high : (s.lines b).ready = true) : ((s.startDone b).bay b).sendList = (s.bay b).sendList := by
  unfold State.startDone
  split
  · rw [State.send_bay_high high]; rfl
  · exact State.spunUp_sendList high
  · rfl

theorem Bay.awaitsReady_iff (v : Bay) :
    v.awaitsReady = true ↔ (v.state = .admitting ∨ v.state = .spinningUp) ∧ v.outstanding = [] ∧ v.sendList = [] := by
  simp [Bay.awaitsReady, and_assoc]

theorem exec_readyRise {b : Fin 24} (part : s.exchange.part ≠ .bringup) (low : (s.lines b).ready = false) :
    exec (.readyRise b) s = .next (if (s.bay b).awaitsReady then (s.readied b).startDone b else s.readied b).beginRecords := by
  show Host.Outcome.next (s.readyRise b) = _
  have falls : s.readyHigh b = false := low
  have watches : (s.setReady b true).watchesLines = true := State.watchesLines_of_part part
  unfold State.readyRise
  rw [if_neg (by rw [falls]; exact Bool.false_ne_true)]
  dsimp only
  rw [if_pos watches]; rfl

theorem exec_readyFall {b : Fin 24} (part : s.exchange.part ≠ .bringup) (high : (s.lines b).ready = true) :
    exec (.readyFall b) s = .next ((s.setReady b false).clearReadyLow b) := by
  have rises : s.readyHigh b = true := high
  have watches : (s.setReady b false).watchesLines = true := State.watchesLines_of_part part
  show Host.Outcome.next (s.readyFall b) = _
  unfold State.readyFall
  rw [if_pos rises]
  dsimp only
  rw [if_pos watches]

end

/-- A rise of the ready line sends what waits, and takes a bay on whose START has ended. -/
theorem exec_readyRise_watched (s : State) (b : Fin 24) (part : s.exchange.part ≠ .bringup) (low : (s.lines b).ready = false) :
    ∃ t, exec (.readyRise b) s = .next t ∧ t.lines b = { s.lines b with ready := true } ∧ s.otherBays t b
      ∧ (t.bay b).sendList = []
      ∧ (∀ (i : Nat) (c : Command), (s.bay b).sendList[i]? = some c →
          { c with timer := 0, number := (s.bay b).sends + i } ∈ (t.bay b).outstanding)
      ∧ ((s.bay b).state = .spinningUp → (s.bay b).outstanding = [] → (s.bay b).sendList = [] →
          (t.bay b).state = (if (s.bay b).retirePending then .retiring else .online) ∧ s.summaryAsked t)
      ∧ ((s.bay b).state = .admitting → (s.bay b).outstanding = [] → (s.bay b).sendList = [] →
          (t.bay b).state = .admitting ∧ ∃ e ∈ (t.bay b).outstanding, e.kind = .identify) := by
  have run := exec_readyRise part low
  have lines := s.readied_lines b
  have others := s.readied_others b
  have own := s.readied_bay b
  have high : ((s.readied b).lines b).ready = true := by rw [lines]
  obtain ⟨waiting, state, pending⟩ := Bay.sentEach_keeps (s.bay b).risen (s.bay b).sendList
  rw [← own] at waiting state pending
  by_cases awaits : (s.bay b).awaitsReady = true
  · rw [if_pos awaits] at run
    obtain ⟨-, -, none⟩ := (Bay.awaitsReady_iff _).1 awaits
    have done := (s.readied b).startDone_touches b
    have last := ((s.readied b).startDone b).beginRecords_touches
    refine ⟨_, run, ?_, fun c ne => ?_, ?_, fun i c found => ?_, fun up _ _ => ?_, fun admits _ _ => ?_⟩
    · rw [last.lines, done.lines, lines]
    · rw [last.bay, (s.readied b).startDone_others b c ne, others c ne]
    · rw [last.bay, State.startDone_sendList high, waiting]; rfl
    · rw [none] at found
      cases found
    · have up' : (s.readied b).startDone b = (s.readied b).spunUp b := by rw [State.startDone, state.trans up]
      obtain ⟨held, -, ends, -⟩ := (s.readied b).spunUp_ends b
      rw [pending] at ends
      rw [last.bay, up']
      exact ⟨ends, (held.since (s.readied_touches b)).asked⟩
    · have sends : (s.readied b).startDone b = (s.readied b).send b (.control .identify) := by rw [State.startDone, state.trans admits]
      rw [last.bay, sends, State.send_bay_high high]
      exact ⟨state.trans admits, _, List.mem_append_right _ List.mem_cons_self, rfl⟩
  · rw [if_neg awaits] at run
    have last := (s.readied b).beginRecords_touches
    have stays : ∀ {st : BayState}, st = .admitting ∨ st = .spinningUp → (s.bay b).state = st → (s.bay b).outstanding = [] →
        (s.bay b).sendList = [] → False := fun may is quiet none =>
      awaits ((Bay.awaitsReady_iff _).2 ⟨is ▸ may, quiet, none⟩)
    refine ⟨_, run, ?_, fun c ne => ?_, ?_, fun i c found => ?_, fun up quiet none => (stays (.inr rfl) up quiet none).elim,
      fun admits quiet none => (stays (.inl rfl) admits quiet none).elim⟩
    · rw [last.lines, lines]
    · rw [last.bay, others c ne]
    · rw [last.bay, waiting]; rfl
    · rw [last.bay, own]
      exact Bay.sentEach_mem (s.bay b).risen _ found

/-- A fall of the ready line starts the ready-low timer from 0. -/
theorem exec_readyFall_watched (s : State) (b : Fin 24) (part : s.exchange.part ≠ .bringup) (high : (s.lines b).ready = true) :
    ∃ t, exec (.readyFall b) s = .next t ∧ t.lines b = { s.lines b with ready := false }
      ∧ t.bay b = { s.bay b with readyLow := 0 } ∧ s.otherBays t b ∧ Touches [.records, .lines] s t := by
  have run := exec_readyFall part high
  refine ⟨_, run, (State.lines_setLines ..).trans (if_pos rfl), (State.bay_setBay ..).trans (if_pos rfl), fun c ne => ?_, exec_touches run⟩
  exact (State.bay_setBay ..).trans (if_neg ne)

end Sys2Proof.Machine
end

section
namespace Sys2Proof.Machine

set_option Elab.async false

/-! ## Presence capture (R141) -/

section
variable {s t u w : State} {b : Nat} {edge : EdgeSelect}

/-- The bay captures the edge, if it has captured none. -/
def Bay.watchesFor (v : Bay) (edge : EdgeSelect) : Bool := v.captureEnable && (v.edgeSelect == .both || v.edgeSelect == edge)

/-- The record of a bay that was offered an edge of its presence line. -/
def Bay.offered (v : Bay) (edge : EdgeSelect) : Bay := { v with captured := v.captured || v.watchesFor edge }

theorem Bay.watchesFor_insert (v : Bay) : v.watchesFor .insert = (v.captureEnable && v.edgeSelect != .remove) := by
  rw [Bay.watchesFor]
  cases v.edgeSelect <;> rfl

theorem Bay.watchesFor_remove (v : Bay) : v.watchesFor .remove = (v.captureEnable && v.edgeSelect != .insert) := by
  rw [Bay.watchesFor]
  cases v.edgeSelect <;> rfl

theorem State.capturePresence_eq (s : State) (b : Nat) (edge : EdgeSelect) : s.capturePresence b edge =
    if (s.bay b).watchesFor edge = true ∧ (s.bay b).captured = false then
      if (s.bay b).noticeOn then (s.putBay b ((s.bay b).offered edge)).noticeBay else s.putBay b ((s.bay b).offered edge)
    else s := by
  have captures : ((s.bay b).captureEnable && !(s.bay b).captured && ((s.bay b).edgeSelect == .both || (s.bay b).edgeSelect == edge)) = true
      ↔ (s.bay b).watchesFor edge = true ∧ (s.bay b).captured = false := by
    simp only [Bay.watchesFor, Bool.and_eq_true, Bool.not_eq_true']
    tauto
  unfold State.capturePresence
  dsimp only
  by_cases taken : (s.bay b).watchesFor edge = true ∧ (s.bay b).captured = false
  · rw [if_pos (captures.2 taken), if_pos taken, Bay.offered, taken.1, Bool.or_true]
  · rw [if_neg (mt captures.1 taken), if_neg taken]

/-- An edge is captured with a notice, captured without one, or not captured. -/
theorem State.capturePresence_cases (s : State) (b : Nat) (edge : EdgeSelect) :
    ((s.bay b).watchesFor edge = true ∧ (s.bay b).captured = false ∧ (s.bay b).noticeOn = true
        ∧ s.capturePresence b edge = (s.putBay b ((s.bay b).offered edge)).noticeBay)
      ∨ ((s.bay b).watchesFor edge = true ∧ (s.bay b).captured = false ∧ (s.bay b).noticeOn = false
        ∧ s.capturePresence b edge = s.putBay b ((s.bay b).offered edge))
      ∨ ((s.bay b).offered edge = s.bay b ∧ s.capturePresence b edge = s) := by
  rw [State.capturePresence_eq]
  cases watches : (s.bay b).watchesFor edge with
  | false => exact .inr (.inr ⟨by rw [Bay.offered, watches, Bool.or_false], rfl⟩)
  | true =>
    cases captured : (s.bay b).captured with
    | true => exact .inr (.inr ⟨by rw [Bay.offered, captured, Bool.true_or, ← captured], rfl⟩)
    | false =>
      rw [if_pos ⟨rfl, rfl⟩]
      cases (s.bay b).noticeOn with
      | true => exact .inl ⟨rfl, rfl, rfl, rfl⟩
      | false => exact .inr (.inl ⟨rfl, rfl, rfl, rfl⟩)

theorem State.capturePresence_bay (s : State) (b : Nat) (edge : EdgeSelect) (c : Nat) :
    (s.capturePresence b edge).bay c = if c = b then (s.bay b).offered edge else s.bay c := by
  rcases s.capturePresence_cases b edge with ⟨-, -, -, form⟩ | ⟨-, -, -, form⟩ | ⟨same, form⟩
  · rw [form, (State.noticeBay_touches _).bay, State.bay_putBay]
  · rw [form, State.bay_putBay]
  · rw [form, same]
    split
    · next own => rw [own]
    · rfl

theorem State.capturePresence_asksOf (s : State) (b : Nat) (edge : EdgeSelect) : s.asksOf id (s.capturePresence b edge) := by
  have put : s.asksOf id (s.putBay b ((s.bay b).offered edge)) := State.putBay_asksOf ..
  rcases s.capturePresence_cases b edge with ⟨-, -, -, form⟩ | ⟨-, -, -, form⟩ | ⟨-, form⟩
  · rw [form]
    exact put.trans ((State.noticeBay_touches _).asksOf fun c => (State.noticeBay_touches _).bay c)
  · rwa [form]
  · rw [form]
    exact .refl ..

/-- An edge that changes no captured flag changes nothing. -/
theorem State.capturePresence_eq_self (same : (s.bay b).offered edge = s.bay b) : s.capturePresence b edge = s := by
  rw [State.capturePresence_eq, if_neg]
  rintro ⟨watches, captured⟩
  have flag : ((s.bay b).offered edge).captured = (s.bay b).captured := by rw [same]
  rw [Bay.offered, watches, captured] at flag
  cases flag

/-- A capture with its notice on sets the notice BAY. -/
theorem State.capturePresence_notice (watches : (s.bay b).watchesFor edge = true) (fresh : (s.bay b).captured = false)
    (on : (s.bay b).noticeOn = true) : (s.capturePresence b edge).notices.flags.bay = true := by
  rw [State.capturePresence_eq, if_pos ⟨watches, fresh⟩, if_pos on, State.noticeBay, State.setFlags, Notices.renew_flags]

/-! ## The presence line rises (R121) -/

/-- The presence line of bay b is at a level, and its edge was offered to capture. -/
def State.sensed (s : State) (b : Nat) (level : Bool) (edge : EdgeSelect) : State := (s.setPresence b level).capturePresence b edge

theorem State.sensed_touches (s : State) (b : Nat) (level : Bool) (edge : EdgeSelect) :
    Touches [.ports, .records, .notices, .lines] s (s.sensed b level edge) :=
  (State.capturePresence_touches ..).after rfl ((State.setPresence_touches ..).mono rfl)

theorem State.sensed_lines (s : State) (b : Nat) (level : Bool) (edge : EdgeSelect) :
    (s.sensed b level edge).lines b = { s.lines b with presence := level } :=
  ((State.capturePresence_touches ..).lines b).trans ((State.lines_setLines ..).trans (if_pos rfl))

theorem State.sensed_bay (s : State) (b : Nat) (level : Bool) (edge : EdgeSelect) (c : Nat) :
    (s.sensed b level edge).bay c = if c = b then (s.bay b).offered edge else s.bay c := State.capturePresence_bay ..

theorem State.sensed_asksOf (s : State) (b : Nat) (level : Bool) (edge : EdgeSelect) : s.asksOf id (s.sensed b level edge) :=
  ((State.setPresence_touches s b level).asksOf fun _ => rfl).trans (State.capturePresence_asksOf ..)

/-- The record of a bay after a rise of its presence line (R121). -/
def Bay.inserted (v : Bay) : Bay := { v with state := if v.state = .empty then .present else v.state }

theorem State.inserted_eq_self (there : (s.bay b).state ≠ .empty) : s.inserted b = s := if_neg there

theorem State.inserted_bay (s : State) (b c : Nat) : (s.inserted b).bay c = if c = b then (s.bay b).inserted else s.bay c := by
  by_cases empty : (s.bay b).state = .empty
  · rw [State.inserted, if_pos empty, State.bay_putBay, Bay.inserted, if_pos empty]
  · rw [State.inserted_eq_self empty, Bay.inserted, if_neg empty]
    split
    · next own => rw [own]
    · rfl

theorem State.inserted_asksOf (s : State) (b : Nat) : s.asksOf id (s.inserted b) := by
  unfold State.inserted
  split
  · exact State.putBay_asksOf ..
  · exact .refl ..

theorem exec_presenceRise {b : Fin 24} (part : s.exchange.part ≠ .bringup) (low : (s.lines b).presence = false) :
    exec (.presenceRise b) s = .next ((s.sensed b true .insert).inserted b).beginRecords := by
  have watches : (s.setPresence b true).watchesLines = true := State.watchesLines_of_part part
  show Host.Outcome.next (s.presenceRise b) = _
  unfold State.presenceRise
  rw [if_neg (by rw [low]; exact Bool.false_ne_true)]
  dsimp only
  rw [if_pos watches]; rfl

/-! ## The presence line falls (R137) -/

theorem exec_removal {b : Fin 24} (part : s.exchange.part ≠ .bringup) (high : (s.lines b).presence = true) :
    exec (.removal b) s = .next ((s.sensed b false .remove).removed b).beginRecords := by
  have watches : (s.setPresence b false).watchesLines = true := State.watchesLines_of_part part
  show Host.Outcome.next (s.presenceFall b) = _
  unfold State.presenceFall
  rw [if_pos high]
  dsimp only
  rw [if_pos watches]; rfl

theorem State.removed_faults (there : (s.bay b).state ≠ .empty) (faults : s.removalFaults b = true) :
    s.removed b = s.bayFault b .removed := by
  rw [State.removed, if_neg there, if_pos faults]

/-- The bay is EMPTY by a removal that is no fault, and the cell of its admission has its answer. -/
def State.emptied (s : State) (b : Nat) : State := (s.putBay b (s.bay b).emptied).answerAdmit b .diskUnavailable BayState.empty.code

theorem State.removed_empties (there : (s.bay b).state ≠ .empty) (quiet : s.removalFaults b = false) :
    s.removed b = (s.emptied b).discardBay b := by
  rw [State.removed, if_neg there, if_neg (by rw [quiet]; exact Bool.false_ne_true)]; rfl

theorem State.removalFaults_iff : s.removalFaults b = true ↔ (s.bay b).state ≠ .faulted ∧ (s.holdsLoans b = true ∨ s.hasWork b = true) := by
  rw [State.removalFaults, Bool.and_eq_true, bne_iff_ne, Bool.or_eq_true]

theorem State.sensed_removalFaults (s : State) (b : Nat) (level : Bool) (edge : EdgeSelect) :
    (s.sensed b level edge).removalFaults b = s.removalFaults b := by
  have touched := s.sensed_touches b level edge
  rw [State.removalFaults, State.holdsLoans, touched.loans, touched.hasWork, State.sensed_bay, if_pos rfl]; rfl

/-- The cell of an admission is answered and leaves the record of its bay, or stays where no answer is written. -/
theorem State.answerAdmit_bay (s : State) (b : Nat) (r : Result) (d : Nat) :
    ∃ cell, (s.answerAdmit b r d).bay b = { s.bay b with admitCell := cell } := by
  unfold State.answerAdmit
  split
  · exact ⟨none, by rw [(State.replyOpt_touches ..).bay, State.bay_setBay, if_pos rfl]⟩
  · exact ⟨(s.bay b).admitCell, rfl⟩

theorem State.emptied_bay (s : State) (b : Nat) : ∃ cell, (s.emptied b).bay b = { (s.bay b).emptied with admitCell := cell } := by
  obtain ⟨cell, own⟩ := (s.putBay b (s.bay b).emptied).answerAdmit_bay b .diskUnavailable BayState.empty.code
  rw [State.bay_putBay, if_pos rfl] at own
  exact ⟨cell, own⟩

theorem State.emptied_touches (s : State) (b : Nat) : Touches [.answers, .ports, .records] s (s.emptied b) :=
  (State.answerAdmit_touches ..).after rfl ((State.putBay_touches ..).mono rfl)

theorem State.rewriteHeld_emptied (s : State) (b : Nat) : s.rewriteHeld (s.emptied b) :=
  (State.rewriteHeld_putBay (Touches.refl [] s)).keeps (State.answerAdmit_touches ..)

theorem State.emptied_answered (serving : s.serving = true) :
    s.answered (s.emptied b) ((s.bay b).admitCell.toList.map (fun c => plain c .diskUnavailable 0)) := by
  obtain ⟨u, hu⟩ : ∃ u, u = s.putBay b (s.bay b).emptied := ⟨_, rfl⟩
  have put : Touches [.ports, .records] s u := hu ▸ State.putBay_touches ..
  have cell : (u.bay b).admitCell = (s.bay b).admitCell := by rw [hu, State.bay_putBay, if_pos rfl]; rfl
  have left : Touches [.ports, .records] s (u.setBay b { u.bay b with admitCell := none }) := (State.setBay_touches ..).after rfl put
  rw [State.emptied, ← hu, State.answerAdmit_serving (put.serving.trans serving), cell]
  exact left.answered_nil.trans (State.replyOpt_answered ..) left.serving

/-- A fault of a part that serves no orders changes the bay record, and releases the tags of what it ended (R76, R143). -/
theorem State.bayFault_halted (halted : s.serving = false) (b : Nat) (cause : Cause) : s.bayFault b cause =
    ((s.putBay b ((s.bay b).faulted cause)).releaseEnded b (s.bay b).outstanding).answerAdmit b .diskFault Cause.admitFailed.code := by
  refine if_neg ?_
  rw [(State.answerAdmit_touches ..).serving, (State.releaseEnded_touches ..).serving, (State.putBay_touches ..).serving, halted]
  exact Bool.false_ne_true

theorem State.bayFault_record (s : State) (b : Nat) (cause : Cause) :
    ∃ cell, (s.bayFault b cause).beginRecords.bay b = { (s.bay b).faulted cause with admitCell := cell } := by
  cases serving : s.serving with
  | true => exact ⟨none, State.bayFault_bay b cause serving⟩
  | false =>
    obtain ⟨cell, own⟩ := ((s.putBay b ((s.bay b).faulted cause)).releaseEnded b (s.bay b).outstanding).answerAdmit_bay b .diskFault
      Cause.admitFailed.code
    rw [(State.releaseEnded_touches ..).bay, State.bay_putBay, if_pos rfl] at own
    rw [State.bayFault_halted serving, (State.beginRecords_touches _).bay]
    exact ⟨cell, own⟩

theorem State.bayFault_asked (s : State) (b : Nat) (cause : Cause) : s.summaryAsked (s.bayFault b cause).beginRecords := by
  cases serving : s.serving with
  | true => exact State.bayFault_summaryAsked b cause serving
  | false =>
    rw [State.bayFault_halted serving]
    exact (((State.rewriteHeld_putBay (Touches.refl [] s)).keeps (State.releaseEnded_touches ..)).keeps (State.answerAdmit_touches ..)).asked

/-- A rewrite asked for after changes that had one requested is one asked for. -/
theorem State.asksOf.summaryAsked {α : Type} {f : Bay → α} (h : s.asksOf f u) (asked : u.summaryAsked t) : s.summaryAsked t := by
  unfold State.summaryAsked at asked ⊢
  simpa only [h.seq, h.flight, h.base] using asked

/-! ## What a fault reaches does not depend on what the presence line and its capture changed -/

theorem State.faultReached.of_setLines {v : Lines} {cause : Cause} (h : (s.setLines b v).faultReached t b cause) :
    s.faultReached t b cause := by
  obtain ⟨loans, shares, slots, sequence, offer, asked⟩ := h
  refine ⟨loans, shares, slots, sequence, fun ordered => offer ?_, asked⟩
  obtain ⟨table, waiting, groups, fifos, arbiters, staged, records, lines, meters⟩ := ordered
  exact ⟨table, waiting, groups, fifos, arbiters, staged, records, Table.ordered_set lines, meters⟩

theorem State.faultReached.of_requestSummary {cause : Cause} (h : s.requestSummary.faultReached t b cause) : s.faultReached t b cause := h

theorem State.faultReached.of_putBay {v : Bay} {cause : Cause} (h : (s.putBay b v).faultReached t b cause) : s.faultReached t b cause :=
  h.of_requestSummary.of_setBay

theorem State.faultReached.of_noticeBay {cause : Cause} (h : s.noticeBay.faultReached t b cause) : s.faultReached t b cause := h

theorem State.faultReached.of_sensed {level : Bool} {cause : Cause} (h : (s.sensed b level edge).faultReached t b cause) :
    s.faultReached t b cause := by
  have lines : (s.setPresence b level).faultReached t b cause := by
    unfold State.sensed at h
    rcases (s.setPresence b level).capturePresence_cases b edge with ⟨-, -, -, form⟩ | ⟨-, -, -, form⟩ | ⟨-, form⟩
    · rw [form] at h
      exact h.of_noticeBay.of_putBay
    · rw [form] at h
      exact h.of_putBay
    · rwa [form] at h
  exact lines.of_setLines

end

/-- A rise of the presence line makes an EMPTY bay PRESENT, and is captured where the bay watches for it. -/
theorem exec_presenceRise_watched (s : State) (b : Fin 24) (part : s.exchange.part ≠ .bringup) (low : (s.lines b).presence = false) :
    ∃ t, exec (.presenceRise b) s = .next t ∧ t.lines b = { s.lines b with presence := true } ∧ s.otherBays t b
      ∧ t.bay b = { s.bay b with
          state := if (s.bay b).state = .empty then .present else (s.bay b).state,
          captured := (s.bay b).captured || ((s.bay b).captureEnable && (s.bay b).edgeSelect != .remove) }
      ∧ ((s.bay b).captureEnable = true → (s.bay b).captured = false → (s.bay b).edgeSelect ≠ .remove → (s.bay b).noticeOn = true →
          t.notices.flags.bay = true)
      ∧ ((s.bay b).state = .empty ∨ ((s.bay b).captured = false ∧ (t.bay b).captured = true) → s.summaryAsked t)
      ∧ ((s.bay b).state ≠ .empty → (t.bay b).captured = (s.bay b).captured → s.summaryNotAsked t) := by
  obtain ⟨u, hu⟩ : ∃ u, u = (s.sensed b true .insert).inserted b := ⟨_, rfl⟩
  have run := exec_presenceRise part low
  rw [← hu] at run
  have sensed := s.sensed_touches b true .insert
  have put : Touches [.ports, .records] (s.sensed b true .insert) u := hu ▸ State.inserted_touches ..
  have last := u.beginRecords_touches
  have bay : ∀ c, u.beginRecords.bay c = if c = b.val then ((s.bay b).offered .insert).inserted else s.bay c := fun c => by
    rw [last.bay, hu, State.inserted_bay, State.sensed_bay, State.sensed_bay, if_pos rfl]
    by_cases own : c = b.val
    · rw [if_pos own, if_pos own]
    · rw [if_neg own, if_neg own, if_neg own]
  have own : u.beginRecords.bay b = ((s.bay b).offered .insert).inserted := (bay b).trans (if_pos rfl)
  have asks : s.asksOf id u := hu ▸ (s.sensed_asksOf b true .insert).trans (State.inserted_asksOf ..)
  refine ⟨_, run, ?_, fun c ne => (bay c).trans (if_neg ne), ?_, fun enable fresh edge on => ?_, fun changes => ?_, fun there same => ?_⟩
  · rw [last.lines, put.lines, State.sensed_lines]
  · rw [own, ← Bay.watchesFor_insert]; rfl
  · have watches : (s.bay b).watchesFor .insert = true := by
      rw [Bay.watchesFor_insert, enable, bne_iff_ne.2 edge]; rfl
    rw [last.notices, put.notices]
    exact State.capturePresence_notice (s := s.setPresence b true) watches fresh on
  · have changed : u.bay b ≠ s.bay b := fun same => by
      rw [← last.bay, own] at same
      rcases changes with empty | ⟨fresh, captured⟩
      · have state := congrArg Bay.state same
        rw [empty] at state
        exact absurd (state.symm.trans (if_pos empty)) nofun
      · rw [own, same, fresh] at captured
        cases captured
    exact (asks.rewriteHeld (b := b) changed).asked
  · rw [own] at same
    have offered : (s.bay b).offered .insert = s.bay b := by
      have flag : ((s.bay b).captured || (s.bay b).watchesFor .insert) = (s.bay b).captured := same
      rw [Bay.offered, flag]
    have still : u = s.setPresence b true := by
      rw [hu, State.inserted_eq_self (by rw [State.sensed_bay, if_pos rfl]; exact there)]
      exact State.capturePresence_eq_self offered
    obtain ⟨-, port, seq, -⟩ := (s.setPresence_touches b true).same .ports (by decide)
    rw [still]
    exact State.summaryNotAsked_of_same port seq

/-- A fall of the presence line empties the bay, by a fault where it holds loans or has work. -/
theorem exec_removal_watched (s : State) (b : Fin 24) (part : s.exchange.part ≠ .bringup) (high : (s.lines b).presence = true)
    (there : (s.bay b).state ≠ .empty) :
    ∃ t, exec (.removal b) s = .next t ∧ t.lines b = { s.lines b with presence := false }
      ∧ (t.bay b).state = .empty ∧ (t.bay b).capacity = 0 ∧ (t.bay b).outstanding = [] ∧ (t.bay b).sendList = []
      ∧ s.summaryAsked t
      ∧ (t.bay b).captured = ((s.bay b).captured || ((s.bay b).captureEnable && (s.bay b).edgeSelect != .insert))
      ∧ (s.exchange.part ∈ [.stopped, .running, .stopping] → (s.bay b).state ≠ .faulted →
          s.holdsLoans b = true ∨ s.hasWork b = true →
          (t.bay b).lastFault = .removed ∧ s.faultReached t b .removed
            ∧ ∀ c, (s.bay b).admitCell = some c → plain c .diskFault 1 ∈ t.exchange.answerList)
      ∧ (((s.bay b).state = .faulted ∨ (s.holdsLoans b = false ∧ s.hasWork b = false)) →
          (t.bay b).lastFault = (s.bay b).lastFault ∧ t.capture.sequence = s.capture.sequence
            ∧ (s.exchange.part ∈ [.stopped, .running, .stopping] →
                s.answered t ((s.bay b).admitCell.toList.map (fun c => plain c .diskUnavailable 0)))) := by
  obtain ⟨w, hw⟩ : ∃ w, w = s.sensed b false .remove := ⟨_, rfl⟩
  have run := exec_removal part high
  rw [← hw] at run
  have sensed : Touches [.ports, .records, .notices, .lines] s w := hw ▸ s.sensed_touches b false .remove
  have lines : w.lines b = { s.lines b with presence := false } := hw ▸ s.sensed_lines b false .remove
  have own : w.bay b = (s.bay b).offered .remove := by rw [hw, State.sensed_bay, if_pos rfl]
  have asks : s.asksOf id w := hw ▸ s.sensed_asksOf b false .remove
  have there' : (w.bay b).state ≠ .empty := by rw [own]; exact there
  have faults : w.removalFaults b = s.removalFaults b := hw ▸ s.sensed_removalFaults b false .remove
  have captured := Bay.watchesFor_remove (s.bay b)
  rw [← captured]
  cases fault : s.removalFaults b with
  | true =>
    obtain ⟨sound, busy⟩ := State.removalFaults_iff.1 fault
    obtain ⟨cell, record⟩ := w.bayFault_record b .removed
    rw [own] at record
    rw [State.removed_faults there' (faults.trans fault)] at run
    have last := (w.bayFault b .removed).beginRecords_touches
    refine ⟨_, run, ?_, ?_, ?_, ?_, ?_, asks.summaryAsked (w.bayFault_asked b .removed), ?_, fun serves _ _ => ⟨?_, ?_, fun c opening => ?_⟩,
      fun quiet => ?_⟩
    · rw [last.lines, (State.bayFault_touches ..).lines, lines]
    iterate 6 rw [record]; rfl
    · have reached := State.bayFault_faultReached b .removed (sensed.serving.trans (s.serving_iff.2 serves))
      rw [hw] at reached ⊢
      exact reached.of_sensed
    · exact State.bayFault_admit b .removed (sensed.serving.trans (s.serving_iff.2 serves)) (by rw [own]; exact opening)
    · rcases quiet with broken | ⟨loans, work⟩
      · exact absurd broken sound
      · rw [loans, work] at busy
        exact absurd busy (by decide)
  | false =>
    obtain ⟨cell, record⟩ := w.emptied_bay b
    rw [State.removed_empties there' (faults.trans fault)] at run
    obtain ⟨u, hu⟩ : ∃ u, u = w.emptied b := ⟨_, rfl⟩
    rw [← hu] at run record
    rw [own] at record
    have emptied : Touches [.answers, .ports, .records] w u := hu ▸ w.emptied_touches b
    have last : Touches [.staging, .ports] u (u.discardBay b).beginRecords :=
      (State.beginRecords_touches _).after rfl ((State.discardBay_touches ..).mono rfl)
    have asked : w.summaryAsked (u.discardBay b).beginRecords :=
      ((hu ▸ w.rewriteHeld_emptied b : w.rewriteHeld u).keeps (State.discardBay_touches ..)).asked
    have all : Touches [.answers, .ports, .records, .notices, .lines, .staging] s (u.discardBay b).beginRecords :=
      last.after rfl (emptied.after rfl (sensed.mono rfl))
    refine ⟨_, run, ?_, ?_, ?_, ?_, ?_, asks.summaryAsked asked, ?_, fun serves sound busy => ?_, fun _ => ⟨?_, ?_, fun serves => ?_⟩⟩
    · rw [last.lines, emptied.lines, lines]
    iterate 5 rw [last.bay, record]; rfl
    · exact absurd (State.removalFaults_iff.2 ⟨sound, busy⟩) (by rw [fault]; exact Bool.false_ne_true)
    · rw [last.bay, record]; rfl
    · obtain ⟨-, -, -, sequence, -, -⟩ := all.same .capture (by decide)
      exact sequence
    · have answers := State.emptied_answered (b := b) (sensed.serving.trans (s.serving_iff.2 serves))
      rw [← hu, own] at answers
      exact State.answered.within sensed answers last emptied.serving (by decide) (by decide)

/-- Settles O54: each line is watched by itself, and a removal is a fault by what the bay holds. -/
theorem linesAreWatched : Obligations.LinesAreWatched :=
  ⟨exec_readyRise_watched, exec_readyFall_watched, exec_presenceRise_watched, exec_removal_watched⟩

end Sys2Proof.Machine
end
